-- ==== Sys2Proof/Word.lean ====
section
/-!
DEFINITION. The word types of the TLP-2720 and the sparse tables the model keeps its state in.
Register and field widths are those of `spec/00_scope.md` (R5, R7); registers of `spec/20_register_space.md` are 32 bits.
-/

namespace Sys2Proof

/-- One byte (R5: little-endian, byte 0 at the lowest address). -/
abbrev Byte := BitVec 8
/-- A 16-bit field: a status code (R431), a codebook version (R94). -/
abbrev Half := BitVec 16
/-- A 32-bit register of the register space (R38 and the other register tables). -/
abbrev Word := BitVec 32
/-- A 64-bit value: a g register (R41), a handle (R138), a key (R276). -/
abbrev DWord := BitVec 64
/-- A 512-bit vector register or one 64-byte line (R41, R49). -/
abbrev VReg := BitVec 512
/-- A beat field as it stands in a command or packet: 48 bits, zero means none (R18). -/
abbrev BeatField := BitVec 48

/-- A sparse table by number: an unlisted number has the table's default, which the operation that reads it names. -/
abbrev Tab (α : Type) := List (Nat × α)

/-- Bytes of the device's own memories: address and byte, an unlisted address reads as zero (R62, R226, R320). -/
abbrev Mem := List Host.Cell

end Sys2Proof
end

