-- ==== Sys2Proof/Syntax.lean ====
section
/-!
DEFINITION. The commands of the block: one constructor per row of spec/opcode_table.json, and the operand types they carry.
What the device cannot decide by itself (where an edge fell, whether a read met an ECC error, what a sensor read, what a
signature check or a link training came to) is an operand: the event reports it.
-/

namespace Sys2Proof

/-! ## Numbers of parts -/

/-- Flat cell number comb·256 + y·16 + x (R6). -/
abbrev CellId := Fin 1024
/-- A worker of a cell (R40). -/
abbrev WorkerId := Fin 16
/-- An Emgait port E0 to E5 (R10). -/
abbrev PortId := Fin 6
/-- A PCI Express function, which is the client of that number (R298). -/
abbrev FnId := Fin 256
/-- A node number (R262). -/
abbrev NodeId := BitVec 14

/-- The path of a register access: the four paths of R430, and a virtual function's own BAR0 (R424). -/
inductive Path where
  | bar0 | sgmii | i3c | tap
  | vf (f : FnId)
  deriving DecidableEq, Repr

/-- What the ECC found on a line as it was read (R48, R84, R238, R241). -/
inductive Ecc where
  | clean | corrected | uncorrectable
  deriving DecidableEq, Repr

/-- What the ECC found on the lines that an operation read, by line; a line not listed was clean (R48, R238, R245). -/
abbrev Findings := List (Nat × Ecc)

/-- A cell instruction as the worker fetches it: its word (R50) and what the ECC found on its line (R48). -/
structure Insn where
  word : DWord
  fetch : Ecc := .clean
  deriving DecidableEq, Repr

/-! ## Host commands (R302, R311, R312) -/

/-- The common part of a command packet (R302) and where it was fetched from. `resv` says that a reserved FLAGS bit or
parameter byte is non-zero (R303 row 3). -/
structure CmdHdr where
  fn : FnId
  ring : Fin 16
  cid : Half
  fence : Bool
  irqNow : Bool
  notBefore : BeatField
  deadline : BeatField
  roleEpoch : Word
  resv : Bool
  deriving DecidableEq, Repr

/-- IMAGE and LENGTH of an image load (R312). -/
structure ImageArg where
  image : BitVec 48
  length : DWord
  deriving DecidableEq, Repr

structure SubmitArg where
  context : Half
  home : Half
  plen : Word
  maxlen : Word
  tbuf : BitVec 48
  sample : BitVec 48
  map : BitVec 48
  parent : DWord
  deriving DecidableEq, Repr

structure HandoffInArg where
  handle : DWord
  source : Half
  context : Half
  tbuf : BitVec 48
  sample : BitVec 48
  map : BitVec 48
  deriving DecidableEq, Repr

structure RegionArg where
  kind : Byte
  attr : Byte
  from_ : Half
  base : BitVec 48
  size : DWord
  deriving DecidableEq, Repr

structure PostArg where
  key : DWord
  slot : Half
  buf : BitVec 48
  size : Word
  deriving DecidableEq, Repr

structure SendArg where
  node : Half
  slot : Half
  key : DWord
  gen : Word
  length : Word
  src : BitVec 48
  deriving DecidableEq, Repr

structure MigrateArg where
  first : BitVec 48
  count : Word
  dest : Byte
  comb : Byte
  deriving DecidableEq, Repr

/-- OP_PREFETCH in its two forms (R312). -/
structure PrefetchArg where
  byHandle : Bool
  comb : Byte
  first : DWord
  count : Word
  deriving DecidableEq, Repr

structure ContextArg where
  cls : Byte
  priority : Byte
  prot : Bool
  base : BitVec 48
  size : DWord
  deriving DecidableEq, Repr

structure DmaCopyArg where
  spaces : Byte
  src : DWord
  dst : DWord
  length : DWord
  deriving DecidableEq, Repr

/-- How a read of a 64-byte line of host memory ends (R313, R315): with data, poisoned or not; with Unsupported Request or Completer Abort;
with no completion. -/
inductive HostLine where
  | data (v : VReg) (poisoned : Bool)
  | refused
  | timeout
  deriving DecidableEq, Repr

/-- The completions of the reads of host memory that an OP_DMA_COPY makes, line by line in order (R313). -/
structure HostLines where
  lines : List HostLine
  /-- Findings on the lines of a source in the tiered range. -/
  tier : Findings := []
  deriving DecidableEq, Repr

/-- A parsed command: its opcode and parameters (R311, R312). -/
inductive HostOp where
  | nop
  | identify (page : DWord)
  | setRole (role : Byte)
  | loadModel (a : ImageArg)
  | loadSchedule (a : ImageArg)
  | startJob
  | stopJob (job : Half)
  | submit (a : SubmitArg)
  | cancel (handle : DWord)
  | handoffOut (handle : DWord) (target : Half)
  | handoffIn (a : HandoffInArg)
  | query (handle : DWord) (buf : DWord)
  | prefixLookup (home : Half) (count : Word) (tokens : BitVec 48)
  | pagePin (page : Word)
  | pageUnpin (page : Word)
  | loadCodebook (a : ImageArg) (slot : Byte) (first last : Half)
  | retireCodebook (version : Half) (first last : Half)
  | loadGrammar (a : ImageArg) (slot : Byte)
  | retireGrammar (id : Half)
  | registerRegion (a : RegionArg)
  | revokeRegion (key : DWord)
  | postRecv (a : PostArg)
  | send (a : SendArg)
  | flush (node : Half)
  | migrate (a : MigrateArg)
  | prefetch (a : PrefetchArg)
  | contextCreate (a : ContextArg)
  | contextDestroy (context : Half)
  | semInit (number : Half) (count : Half)
  | setPowerLimit (mode : Byte) (window : Half) (limit : Word)
  | attest (buf : DWord) (nonce : BitVec 256)
  | readAccounting (client : Byte) (buf : DWord)
  | selfTest (kind : Byte)
  | dmaCopy (a : DmaCopyArg) (host : HostLines)
  deriving DecidableEq, Repr

/-- How the fetch of a submission entry ended (R301). The 64 bytes are the entry, byte 0 in the low bits. -/
inductive FetchEnd where
  | entry (bytes : VReg) (host : HostLines)
  | errorStatus
  | poisoned
  deriving DecidableEq, Repr

/-! ## Images whose byte layout the spec leaves to the toolchain (R197, R198) -/

/-- A weight section of a model image: where it lies, whether it is pinned to HBM, its affinity comb (R197, R227, R230). -/
structure WeightSection where
  first : Nat
  tiles : Nat
  pinned : Bool
  comb : Nat
  deriving DecidableEq, Repr

structure ModelImage where
  layers : Nat
  vocab : Nat
  narrow : Nat
  resv : Bool
  sections : List WeightSection
  deriving DecidableEq, Repr

/-- One entry of the peer table (R140). Role codes are those of OP_SET_ROLE (R312). -/
structure PeerEntry where
  node : Nat
  role : Nat
  roleEpoch : Nat
  lead : Nat
  partner : Option Nat
  deriving DecidableEq, Repr

/-- A cache layout (R109). -/
structure Layout where
  split : Nat
  n : Nat
  member : Nat
  layers : Nat
  hq : Nat
  hkv : Nat
  hg : Nat
  dh : Nat
  kfmt : Byte
  vfmt : Byte
  kver : Nat
  vver : Nat
  fpt : Nat
  plain : Bool
  maxpos : Nat
  deriving DecidableEq, Repr

/-- One cell of a residency slot (R200): window, workers, engine ownership. -/
structure SlotCell where
  cell : Nat
  base : Nat
  size : Nat
  code : Nat
  workers : BitVec 16
  engine : Bool
  deriving DecidableEq, Repr

structure ResSlot where
  cells : List SlotCell
  /-- Reserved VC 0 credits on each port (R257). -/
  credits : List Nat
  deriving DecidableEq, Repr

structure BarrierAlloc where
  barrier : Nat
  rs : Nat
  expected : Nat
  deriving DecidableEq, Repr

/-- A message binding (R54). -/
structure Binding where
  rs : Nat
  srcCell : Nat
  port : Nat
  dstCell : Nat
  channel : Nat
  deriving DecidableEq, Repr

/-- The code section and initial data of one residency slot on one cell (R62): bytes by window offset. -/
structure CodeSection where
  rs : Nat
  cell : Nat
  bytes : Mem
  deriving DecidableEq, Repr

/-- One cell of an attention table's cell set (R121, R122, R125). -/
structure StageCell where
  cell : Nat
  ring : Nat
  slots : Nat
  append : Nat
  worker : Nat
  counter : Nat
  deriving DecidableEq, Repr

structure AttEntry where
  layer : Nat
  writeOff : Nat
  stageOff : Nat
  dueOff : Nat
  byKey : Bool
  cells : List (List StageCell)
  deriving DecidableEq, Repr

/-- One member's buffer of a collective on this device: cell, window offset, elements (R127). -/
structure CollBuf where
  cell : Nat
  addr : Nat
  len : Nat
  deriving DecidableEq, Repr

/-- The kinds of frame entry (R31). -/
inductive EntryKind where
  | block (endOff : Nat) (workers : List (Nat × Nat)) (entry : Nat) (arg : DWord)
  | slot (generation : Bool) (capacity : Nat) (endOff : Nat) (draftSlots : Nat) (att : List AttEntry)
  | span (resid : Nat) (ports : BitVec 6) (beats : Nat)
  | collective (lse : Bool) (dh : Nat) (deadlineOff : Nat) (resid : Nat) (src dst : CollBuf)
  | migrate (first count dest due consumer : Nat)
  | idle (cells : List Nat)
  deriving DecidableEq, Repr

/-- A frame entry: its offset, its residency slot, the split levels it runs at (R198, R217). -/
structure FrameEntry where
  off : Nat
  rs : Nat
  levels : BitVec 8
  kind : EntryKind
  deriving DecidableEq, Repr

/-- The split-level section (R217). -/
structure SplitSection where
  nlev : Nat
  start : Nat
  wg : Nat
  wp : Nat
  up : List Nat
  down : List Nat
  deriving DecidableEq, Repr

structure ScheduleImage where
  job : Nat
  node : Nat
  period : Nat
  frame : Nat
  jobSize : Nat
  hkey : BitVec 128
  modelDigest : BitVec 384
  peers : List PeerEntry
  main : Layout
  prot : Option Layout
  slots : List ResSlot
  classes : List Word
  barriers : List BarrierAlloc
  bindings : List Binding
  code : List CodeSection
  entries : List FrameEntry
  split : SplitSection
  resv : Bool
  deriving DecidableEq, Repr

/-- What a verified image's payload says, where the spec gives the payload no byte layout. Codebook and grammar
payloads are read from their bytes (R93, R182). -/
inductive ImageContent where
  | model (m : ModelImage)
  | schedule (s : ScheduleImage)
  | bytes
  deriving DecidableEq, Repr

/-! ## Forager messages (R143, R144) -/

/-- The header fields a forager message carries, and its sender (R143). `resv` says that a reserved byte is non-zero. -/
structure FHdr where
  src : NodeId
  roleEpoch : Word
  handle : DWord
  epoch : Word
  status : Half
  hashv : Bool
  fork : Bool
  notBefore : BeatField
  deadline : BeatField
  resv : Bool
  deriving DecidableEq, Repr

/-- One page of a COMMIT or PAGES payload: layer, head group, block, the PD data bytes, poison, and a summary entry. -/
structure PageData where
  block : Nat
  layer : Nat
  group : Nat
  data : List Byte
  poison : Bool
  summary : Option (List Byte)
  deriving DecidableEq, Repr

/-- The request summary of GRANT and ADOPT (R437). -/
structure ReqSummary where
  client : Byte
  plen : Word
  maxlen : Word
  cb : Word
  clenh : Word
  lease : BeatField
  deriving DecidableEq, Repr

/-- The home record as it travels and as OP_QUERY_REQUEST reports it (R151). -/
structure RecordData where
  handle : DWord
  state : Nat
  client : Nat
  owner : Option Nat
  epoch : Nat
  lease : Nat
  pending : Option Nat
  proposed : Bool
  claimed : Bool
  primaryOk : Bool
  mirrorOk : Bool
  acting : Bool
  lastc : Option Nat
  partner : Nat
  cb : Nat
  clenh : Nat
  plen : Nat
  maxlen : Nat
  ownerCommitted : Bool
  deriving DecidableEq, Repr

/-- The payload of a REPLICATE (R144): a record (with the CREATE's hashes and parent), a token-log range, or pages; without pages the
commit of a block. -/
inductive ReplData where
  | record (r : RecordData) (hashes : List DWord) (parent : DWord) (free : Bool)
  | tokens (first : Nat) (ids : List Word)
  | pages (ps : List PageData) (block : Nat) (hash : Option DWord)
  deriving DecidableEq, Repr

/-- Which message a REPLY answers, and its result (R144): M and the lease of a CREATE, the lease of a RENEW, CB of a
COMMIT, the record of a QUERY. -/
inductive ReplyTo where
  | create (m : Nat) (lease : Nat)
  | renew (lease : Nat)
  | propose
  | claim
  | commit (block : Nat) (cb : Nat)
  | tokens
  | fetch
  | end_
  | query (r : Option RecordData)
  | lookup (m : Nat)
  | replicate
  /-- Refusal of a message that has no reply of its own. -/
  | other
  deriving DecidableEq, Repr

/-- What follows the header of a forager message the device sends (R144). -/
inductive FBody where
  | create (client : Nat) (plen maxlen : Nat) (parent : DWord) (tokens : List Word) (hashes : List DWord)
  | renew
  | propose (target : Nat)
  | claim (expOwner : Option Nat) (expEpoch : Nat)
  | commit (block : Nat) (hash : Option DWord) (pages : List PageData)
  | tokens (first count : Nat) (ids : List Word)
  | fetch (first count : Nat)
  | pagesData (pages : List PageData)
  | pagesTokens (first : Nat) (ids : List Word)
  | pagesSummaries (pages : List PageData)
  | end_ (status : Half)
  | query
  | lookup (client : Nat) (hashes : List DWord)
  | replicate (d : ReplData)
  | notice (kind : Nat) (epoch : Nat) (summary : Option ReqSummary)
  | direct (first : Nat) (pages : List PageData)
  | reply (r : ReplyTo)
  deriving DecidableEq, Repr

/-! ## Packets and waggles (R252, R267) -/

/-- An Emgait packet, field by field (R252). `resv` is the OR of its reserved bits; `ext` is the 24-byte extension of a
protected packet (R368), empty otherwise. -/
structure Packet where
  type : Byte
  vc : BitVec 2
  ordered : Bool
  prot : Bool
  dest : DWord
  src : NodeId
  hops : BitVec 5
  sub : Byte
  tag : Word
  aux : Word
  beat : BeatField
  payload : List Byte
  ext : List Byte
  hchk : Half
  pcrc : Word
  echk : Word
  resv : Bool
  deriving DecidableEq, Repr

/-- A waggle: the port it arrived on, the fields of its packet's header (R252), its route header (R267), and the bytes of its body. -/
structure WaggleHdr where
  port : PortId
  src : NodeId
  dest : DWord
  hops : BitVec 5
  sub : Byte
  tag : Word
  aux : Word
  beat : BeatField
  route : DWord
  back : DWord
  ptr : Byte
  count : BitVec 5
  routed : Bool
  mgr : NodeId
  fepoch : Word
  resv : Bool
  body : List Byte
  deriving DecidableEq, Repr

/-! ## Outcomes that an event reports -/

/-- Stages of the residue check (R81, R82): 0 multiplication, 1 alignment and sum, 2 addition and rounding, 3 dual. -/
structure Mismatch where
  block : Fin 8
  row : Fin 64
  column : Fin 64
  stage : Fin 4
  repeatPasses : Bool
  deriving DecidableEq, Repr

/-- An ECC finding in engine state (R84): in A buffer `n` (`inTile = false`) or tile `n`, at a row. -/
structure EngineEcc where
  inTile : Bool
  n : Fin 4
  row : Fin 64
  uncorrectable : Bool
  deriving DecidableEq, Repr

/-- What the ECC found as an engine instruction ran: in the engine's own state (R84), on lines of the owner's window by their
window line, and on lines of the codebook slot's image by their line in it (R48). -/
structure EngineFound where
  own : List EngineEcc := []
  memory : Findings := []
  store : Findings := []
  deriving DecidableEq, Repr

/-- How the shadow comparison of a sampling came out (R191). -/
inductive ShadowEnd where
  | equal
  | transient
  | permanent (banks : List Nat)
  | shadowPoisoned
  deriving DecidableEq, Repr

/-- How one codeword was received (R251): its header's SEQ and ACK, whether FEC decoding succeeded, symbols corrected on
each lane, and the lane the errors of a failed one concentrate on (R258). -/
structure CodewordIn where
  seq : BitVec 10
  ack : BitVec 10
  decoded : Bool
  corrected : List Nat
  badLane : Option (Fin 4)
  deriving DecidableEq, Repr

/-- Why a lane is dropped (R258). -/
inductive LaneCause where
  | lostLock | corrections | codewords
  deriving DecidableEq, Repr

/-- Why a port leaves UP (R260). -/
inductive DownCause where
  | lanes | replays | silence | retrain | powerOff
  deriving DecidableEq, Repr

/-- How training ends: the lanes good at this end and at the peer's, of which each end has its result under R259, and what the peer told:
node, port number, identity (R260, R268). -/
structure TrainEnd where
  lanes : BitVec 4
  peerLanes : BitVec 4
  peerNode : Option NodeId
  peerPort : Fin 8
  peerIdentity : DWord
  deriving DecidableEq, Repr

/-- Module types (R239): all that is neither an MRDIMM nor a registered DIMM with ECC is one the tier does not support. -/
inductive DimmKind where
  | mrdimm | rdimm | other
  deriving DecidableEq, Repr

/-- A DIMM as its SPD describes it: type, capacity in GiB, ranks, device width in bits (R239, R240). -/
structure Dimm where
  kind : DimmKind
  gib : Nat
  ranks : Nat
  width : Nat
  deriving DecidableEq, Repr

/-- What the DDR5 sideband and training found on one channel: the DIMM of each slot, and whether SPD reading and training passed (R240). -/
structure DdrChannel where
  slot0 : Option Dimm
  slot1 : Option Dimm
  sound : Bool
  deriving DecidableEq, Repr

/-- What the packages of one NAND channel report, and the LUNs that answer, each with its good blocks and their erase counts (R242, R243). -/
structure NandChannel where
  fitted : Bool
  pageKib : Nat
  blockPages : Nat
  planes : Nat
  enables : Nat
  nvDdr3 : Bool
  lpddr4 : Bool
  luns : List (Nat × List (Nat × Nat))
  deriving DecidableEq, Repr

/-- What the boot sequence meets in the world (R394): flash contents the board holds, PHY training, tiers found, the PUF
reconstruction, entropy health, calibration readings, the voltage search, the stress test's findings. -/
structure BootWorld where
  flash : Mem
  hbmTrained : BitVec 20
  ddr : List DdrChannel
  nand : List NandChannel
  seed : Option (BitVec 256)
  rngOk : Bool
  repairs : List (Nat × Byte)
  ecoef : List Word
  weights : List Word
  vreq : List Nat
  slacks : List Nat
  temps : List Int
  stressFailing : List Nat
  stressCool : Bool
  msStep2 : Nat
  msStep4a : Nat
  msStep4b : Nat
  msStep5 : Nat
  /-- NumVFs as host software wrote it before READY (R396). -/
  numVfs : Nat
  /-- The BAR2 sizes that the Resizable BAR capability was set to, PF0's and the virtual functions': 16 GiB × 2 to this power (R229). -/
  barSizes : Fin 5 × Fin 5
  /-- The MFG_TEST pin as PWR_OK rises (R411). -/
  mfgTest : Bool
  deriving DecidableEq, Repr

/-- One AVSBus reading (R323): whether the board presents the rail select, whether the transaction was acknowledged. -/
structure RailReading where
  rail : Fin 16
  present : Bool
  ack : Bool
  millivolts : Nat
  milliamps : Nat
  deriving DecidableEq, Repr

/-- Outcome of a known-answer test (R343). -/
inductive KatEnd where
  | pass | transient | permanent
  deriving DecidableEq, Repr

/-- The state of the SGMII link as the PHY reports it (R374). -/
inductive SgmiiLink where
  | down | up1000 | other
  deriving DecidableEq, Repr

/-- A management request frame or MCTP message (R376, R384); KIND is the row's. -/
structure MgmtFrame where
  sgmii : Bool
  dst : BitVec 48
  src : BitVec 48
  ethertype : Half
  version : Byte
  /-- KIND, where it is none of R377's (R378); otherwise the row's own. -/
  otherKind : Option Byte
  length : Half
  seq : DWord
  boot : DWord
  /-- Header bytes 12–13 and 14–15. -/
  status : Half
  resv : Half
  body : List Byte
  tag : List Byte
  deriving DecidableEq, Repr

/-- What makes a warm reset (R400). -/
inductive WarmCause where
  | resetN | perst | hotReset | secondaryBus | testLogicReset
  deriving DecidableEq, Repr

/-- Why a NAND block is relocated (R244). -/
inductive RelocCause where
  | staticWear | readDisturb | marginalRead (retry percent : Nat) | retention
  deriving DecidableEq, Repr

/-! ## What an access or an event finds -/

/-- A read of a path: its place and its bytes (R39). -/
structure RegRead where
  off : BitVec 26
  len : Nat
  deriving DecidableEq, Repr

/-- A write access to a path's registers: its words, and whether every byte of them is enabled (R6, R7). -/
structure RegWrite where
  words : List Word
  whole : Bool
  deriving DecidableEq, Repr

/-- An MMA as it issues: its word, and what the ECC found on the line of its compressed-B descriptor (R48, R100). -/
structure MmaInsn where
  insn : Insn
  desc : Ecc
  deriving DecidableEq, Repr

/-- Where the scatter-gather unit fills a stage's next slot, and the ECC findings on the lines it reads (R48, R122). -/
structure StageFill where
  cell : CellId
  found : Findings
  deriving DecidableEq, Repr

/-- What a lens request meets as it is served: the shadow comparison of each sampling in order, and the ECC findings on the rows' lines,
row after row (R48, R191). -/
structure LensMeets where
  ends : List ShadowEnd
  found : Findings
  deriving DecidableEq, Repr

/-- A context whose swap record has been read back, and the ECC findings on the record's lines (R48, R210). -/
structure RestoreEnd where
  ctx : Nat
  found : Findings
  deriving DecidableEq, Repr

/-- The bytes a read of BAR2 asks for, and the ECC findings on their lines (R48, R229). -/
structure Bar2Span where
  len : Nat
  found : Findings
  deriving DecidableEq, Repr

/-- Why a lane leaves service, and the lanes that the peer holds good (R258, R259). -/
structure LaneLoss where
  cause : LaneCause
  peer : BitVec 4
  deriving DecidableEq, Repr

/-- The bytes of a ROUTE_WRITE body beside its fields: the reserved ones and the padding (R269). -/
structure RouteRest where
  resv1 : Byte
  resv6 : Half
  padding : List Byte
  deriving DecidableEq, Repr

/-- What an image verification reads: the image's content, and the ECC findings on its lines (R48, R357). -/
structure ImageFound where
  content : ImageContent
  found : Findings
  deriving DecidableEq, Repr

/-- A waggle on its way, and its KIND (R267, R268). -/
structure WagglePass where
  hdr : WaggleHdr
  kind : Byte
  deriving DecidableEq, Repr

/-- The commands, one per row of spec/opcode_table.json. -/
inductive Instr where
  /-- BEAT_EDGE (R19). -/
  | beatEdge (offset : Int)
  /-- ACQUIRE_EDGE_TIMEOUT (R25). -/
  | acquireEdgeTimeout
  /-- BEAT_BOUNDARY (R28). -/
  | beatBoundary (kat : KatEnd)
  /-- HOLDOVER_EXPIRY (R25). -/
  | holdoverExpiry (kat : KatEnd)
  /-- BEAT_COUNT_OVERFLOW (R24). -/
  | beatCountOverflow (kat : KatEnd)
  /-- MARKER (R23). -/
  | marker (port : PortId) (value : BeatField) (hchkOk : Bool)
  /-- BT_CTL_ENABLE (R25). -/
  | btCtlEnable (path : Path) (value : Word)
  /-- BT_COMMIT (R29). -/
  | btCommit (path : Path) (value : Word)
  /-- LO_HALF_READ_LATCH (R39). -/
  | loHalfReadLatch (path : Path) (r : RegRead)
  /-- SCALAR_ALU (R52). -/
  | scalarAlu (c : CellId) (w : WorkerId) (i : Insn)
  /-- SCALAR_LOAD (R45). -/
  | scalarLoad (c : CellId) (w : WorkerId) (i : Insn) (ecc : Ecc)
  /-- SCALAR_STORE (R45). -/
  | scalarStore (c : CellId) (w : WorkerId) (i : Insn)
  /-- AMOADD (R49). -/
  | amoadd (c : CellId) (w : WorkerId) (i : Insn) (ecc : Ecc)
  /-- AMOCAS (R49). -/
  | amocas (c : CellId) (w : WorkerId) (i : Insn) (ecc : Ecc)
  /-- BRANCH (R51). -/
  | branch (c : CellId) (w : WorkerId) (i : Insn)
  /-- JAL (R51). -/
  | jal (c : CellId) (w : WorkerId) (i : Insn)
  /-- JALR (R51). -/
  | jalr (c : CellId) (w : WorkerId) (i : Insn)
  /-- VECTOR_ALU (R52). -/
  | vectorAlu (c : CellId) (w : WorkerId) (i : Insn)
  /-- VLD (R46). -/
  | vld (c : CellId) (w : WorkerId) (i : Insn) (ecc : Ecc)
  /-- VST (R46). -/
  | vst (c : CellId) (w : WorkerId) (i : Insn)
  /-- VBCAST (R51). -/
  | vbcast (c : CellId) (w : WorkerId) (i : Insn)
  /-- VECTOR_REDUCE (R51). -/
  | vectorReduce (c : CellId) (w : WorkerId) (i : Insn)
  /-- VPERM (R51). -/
  | vperm (c : CellId) (w : WorkerId) (i : Insn)
  /-- VEXT (R51). -/
  | vext (c : CellId) (w : WorkerId) (i : Insn)
  /-- SEND (R54). -/
  | send (c : CellId) (w : WorkerId) (i : Insn)
  /-- RECV (R54). -/
  | recv (c : CellId) (w : WorkerId) (i : Insn)
  /-- PROBE (R51). -/
  | probe (c : CellId) (w : WorkerId) (i : Insn)
  /-- MESSAGE_ARRIVAL (R54). -/
  | messageArrival (src : CellId) (port : Fin 32)
  /-- CREDIT_RETURN (R54). -/
  | creditReturn (c : CellId) (port : Fin 32)
  /-- DMA (R57). -/
  | dma (c : CellId) (w : WorkerId) (i : Insn) (ecc : Ecc)
  /-- DMA_DESCRIPTOR_START (R58). -/
  | dmaDescriptorStart (c : CellId) (n : Nat)
  /-- DMA_COMPLETION (R58). -/
  | dmaCompletion (c : CellId) (n : Nat) (found : Findings)
  /-- BAR (R55). -/
  | bar (c : CellId) (w : WorkerId) (i : Insn)
  /-- BARRIER_RELEASE (R55). -/
  | barrierRelease (barrier : BitVec 8)
  /-- WAITC (R51). -/
  | waitc (c : CellId) (w : WorkerId) (i : Insn)
  /-- NOP (R51). -/
  | nop (c : CellId) (w : WorkerId) (i : Insn)
  /-- SYS_RD (R53). -/
  | sysRd (c : CellId) (w : WorkerId) (i : Insn)
  /-- HALT (R42). -/
  | halt (c : CellId) (w : WorkerId) (i : Insn)
  /-- SEMACQ (R213). -/
  | semacq (c : CellId) (w : WorkerId) (i : Insn)
  /-- SEMREL (R213). -/
  | semrel (c : CellId) (w : WorkerId) (i : Insn)
  /-- SEMTRY (R213). -/
  | semtry (c : CellId) (w : WorkerId) (i : Insn)
  /-- SEMRD (R213). -/
  | semrd (c : CellId) (w : WorkerId) (i : Insn)
  /-- CRIT_ENTER (R213). -/
  | critEnter (c : CellId) (w : WorkerId) (i : Insn)
  /-- CRIT_EXIT (R213). -/
  | critExit (c : CellId) (w : WorkerId) (i : Insn)
  /-- SEMCANCEL (R213). -/
  | semcancel (c : CellId) (w : WorkerId) (i : Insn)
  /-- SEMHELD (R213). -/
  | semheld (c : CellId) (w : WorkerId) (i : Insn)
  /-- PATROL_SCRUB (R48). -/
  | patrolScrub (found : List (CellId × Ecc))
  /-- CL_COMMIT (R65). -/
  | clCommit (path : Path) (value : Word)
  /-- MMA (R73). -/
  | mma (c : CellId) (w : WorkerId) (i : MmaInsn)
  /-- MMA_COMPLETE (R75). -/
  | mmaComplete (c : CellId) (mism : List Mismatch) (found : EngineFound)
  /-- MLDA (R71). -/
  | mlda (c : CellId) (w : WorkerId) (i : Insn)
  /-- MLDA_COMPLETE (R74). -/
  | mldaComplete (c : CellId) (found : EngineFound)
  /-- MST (R79). -/
  | mst (c : CellId) (w : WorkerId) (i : Insn)
  /-- MST_COMPLETE (R76). -/
  | mstComplete (c : CellId) (ecc : List EngineEcc)
  /-- MSTAT (R72). -/
  | mstat (c : CellId) (w : WorkerId) (i : Insn)
  /-- ENGINE_STAGGER_START (R87). -/
  | engineStaggerStart (c : CellId) (count : Nat)
  /-- GOVERNOR_HOLD_RELEASE (R326). -/
  | governorHoldRelease (c : CellId) (fits : Bool)
  /-- HOLD_ROTATION (R327). -/
  | holdRotation (aboveCap : Bool) (unmet : Bool)
  /-- MX_COMMIT (R89). -/
  | mxCommit (path : Path) (value : Word)
  /-- OP_LOAD_CODEBOOK (R96). -/
  | opLoadCodebook (h : CmdHdr) (a : ImageArg) (slot : Byte) (first last : Half)
  /-- CODEBOOK_COPY_COMPLETE (R94). -/
  | codebookCopyComplete (n : Nat)
  /-- OP_RETIRE_CODEBOOK (R97). -/
  | opRetireCodebook (h : CmdHdr) (version : Half) (first last : Half)
  /-- STAGE_SLOT_FILL (R122). -/
  | stageSlotFill (handle : DWord) (layer : Nat) (fill : StageFill)
  /-- COLLECTIVE_COMPLETE (R127). -/
  | collectiveComplete (n : Nat) (inputs : List (List Word))
  /-- OP_PAGE_PIN (R117). -/
  | opPagePin (h : CmdHdr) (page : Word)
  /-- OP_PAGE_UNPIN (R117). -/
  | opPageUnpin (h : CmdHdr) (page : Word)
  /-- KV_COMMIT (R136). -/
  | kvCommit (path : Path) (value : Word)
  /-- OP_SUBMIT_REQUEST (R439). -/
  | opSubmitRequest (h : CmdHdr) (a : SubmitArg)
  /-- OP_CANCEL_REQUEST (R166). -/
  | opCancelRequest (h : CmdHdr) (handle : DWord)
  /-- OP_HANDOFF_OUT (R162). -/
  | opHandoffOut (h : CmdHdr) (handle : DWord) (target : Half)
  /-- HANDOFF_PROPOSE_SEND (R162). -/
  | handoffProposeSend (handle : DWord)
  /-- OP_HANDOFF_IN (R162). -/
  | opHandoffIn (h : CmdHdr) (a : HandoffInArg)
  /-- OP_QUERY_REQUEST (R166). -/
  | opQueryRequest (h : CmdHdr) (handle : DWord) (buf : DWord)
  /-- OP_PREFIX_LOOKUP (R158). -/
  | opPrefixLookup (h : CmdHdr) (home : Half) (count : Word) (tokens : BitVec 48)
  /-- CREATE (R156). -/
  | create (m : FHdr) (client : Byte) (plen maxlen : Word) (parent : DWord) (tokens : List Word) (hashes : List DWord)
  /-- RENEW (R153). -/
  | renew (m : FHdr)
  /-- PROPOSE (R163). -/
  | propose (m : FHdr) (target : Half)
  /-- CLAIM (R163). -/
  | claim (m : FHdr) (expOwner : Half) (expEpoch : Word)
  /-- COMMIT (R160). -/
  | commit (m : FHdr) (block : Word) (hash : DWord) (pages : List PageData)
  /-- TOKENS (R161). -/
  | tokens (m : FHdr) (first count : Word) (ids : List Word)
  /-- FETCH (R162). -/
  | fetch (m : FHdr) (first count : Word)
  /-- PAGES (R162). -/
  | pages (m : FHdr) (part : Byte) (first : Word) (ids : List Word) (pages : List PageData)
  /-- END (R166). -/
  | end_ (m : FHdr) (status : Half)
  /-- QUERY (R158). -/
  | query (m : FHdr) (lookup : Option (Byte × List DWord))
  /-- REPLICATE (R145). -/
  | replicate (m : FHdr) (d : ReplData)
  /-- GRANT (R437). -/
  | grant (m : FHdr) (r : ReqSummary)
  /-- RELEASED (R150). -/
  | released (m : FHdr)
  /-- EXPIRED (R150). -/
  | expired (m : FHdr)
  /-- ADOPT (R155). -/
  | adopt (m : FHdr) (r : ReqSummary)
  /-- JOIN (R142). -/
  | join (m : FHdr)
  /-- PENDING_CLEARED (R150). -/
  | pendingCleared (m : FHdr)
  /-- DIRECT (R162). -/
  | direct (m : FHdr) (first : Word) (pages : List PageData)
  /-- REPLY (R144). -/
  | reply (m : FHdr) (r : ReplyTo)
  /-- LEASE_FENCE (R153). -/
  | leaseFence (handle : DWord)
  /-- LEASE_REASSIGN (R154). -/
  | leaseReassign (handle : DWord)
  /-- RESILVER_COMPLETE (R164). -/
  | resilverComplete (node : NodeId)
  /-- FG_COMMIT (R168). -/
  | fgCommit (path : Path) (value : Word)
  /-- LENS_REQUEST (R173). -/
  | lensRequest (c : CellId) (n : Nat) (ecc : Ecc)
  /-- DRAFT (R178). -/
  | draft (m : LensMeets)
  /-- VERIFY (R179). -/
  | verify (m : LensMeets)
  /-- FIRST (R173). -/
  | first (m : LensMeets)
  /-- OP_LOAD_GRAMMAR (R184). -/
  | opLoadGrammar (h : CmdHdr) (a : ImageArg) (slot : Byte)
  /-- GRAMMAR_COPY_COMPLETE (R185). -/
  | grammarCopyComplete (slot : Fin 8)
  /-- OP_RETIRE_GRAMMAR (R187). -/
  | opRetireGrammar (h : CmdHdr) (id : Half)
  /-- BANK_SEARCHABLE (R189). -/
  | bankSearchable (bank : Fin 64)
  /-- SHADOW_SWEEP (R190). -/
  | shadowSweep (upsets : List (Fin 64 × Fin 32768))
  /-- LN_COMMIT (R196). -/
  | lnCommit (path : Path) (value : Word)
  /-- OP_LOAD_MODEL_IMAGE (R197). -/
  | opLoadModelImage (h : CmdHdr) (a : ImageArg)
  /-- OP_LOAD_SCHEDULE_IMAGE (R198). -/
  | opLoadScheduleImage (h : CmdHdr) (a : ImageArg)
  /-- OP_START_JOB (R404). -/
  | opStartJob (h : CmdHdr)
  /-- OP_STOP_JOB (R406). -/
  | opStopJob (h : CmdHdr) (job : Half)
  /-- OP_CONTEXT_CREATE (R201). -/
  | opContextCreate (h : CmdHdr) (a : ContextArg)
  /-- OP_CONTEXT_DESTROY (R202). -/
  | opContextDestroy (h : CmdHdr) (context : Half)
  /-- OP_SEM_INIT (R212). -/
  | opSemInit (h : CmdHdr) (number count : Half)
  /-- OP_READ_ACCOUNTING (R222). -/
  | opReadAccounting (h : CmdHdr) (client : Byte) (buf : DWord)
  /-- SWAP_DRAIN_COMPLETE (R209). -/
  | swapDrainComplete (ctx : Nat)
  /-- SWAP_SAVE_COMPLETE (R209). -/
  | swapSaveComplete (ctx : Nat)
  /-- SWAP_RESTORE_COMPLETE (R210). -/
  | swapRestoreComplete (e : RestoreEnd)
  /-- SPLIT_EVALUATION (R218). -/
  | splitEvaluation
  /-- SQ_COMMIT (R224). -/
  | sqCommit (path : Path) (value : Word)
  /-- TILE_MOVE_START (R232). -/
  | tileMoveStart
  /-- TILE_MOVE_SWITCH (R232). -/
  | tileMoveSwitch (tile : Nat) (found : Findings)
  /-- OP_MIGRATE_TILES (R235). -/
  | opMigrateTiles (h : CmdHdr) (a : MigrateArg)
  /-- OP_PREFETCH (R235). -/
  | opPrefetch (h : CmdHdr) (a : PrefetchArg)
  /-- BAR2_WRITE (R229). -/
  | bar2Write (fn : FnId) (off : BitVec 38) (bytes : List Byte)
  /-- BAR2_READ (R229). -/
  | bar2Read (fn : FnId) (off : BitVec 38) (r : Bar2Span)
  /-- MEMORY_PATROL_SCRUB (R238). -/
  | memoryPatrolScrub (found : List (Nat × Ecc))
  /-- HBM_STACK_FAIL (R238). -/
  | hbmStackFail (stack : Fin 20)
  /-- DDR_CHANNEL_FAIL (R241). -/
  | ddrChannelFail (ch : Fin 12) (lostTraining : Bool) (found : List (Nat × Ecc))
  /-- NAND_GARBAGE_COLLECT (R243). -/
  | nandGarbageCollect (lun : Nat)
  /-- NAND_RELOCATE (R244). -/
  | nandRelocate (lun block : Nat) (cause : RelocCause)
  /-- NAND_PROGRAM_FAIL (R245). -/
  | nandProgramFail (lun block : Nat)
  /-- MT_COMMIT (R247). -/
  | mtCommit (path : Path) (value : Word)
  /-- CODEWORD_RECEIVE (R251). -/
  | codewordReceive (port : PortId) (w : CodewordIn)
  /-- LINK_REPLAY (R251). -/
  | linkReplay (port : PortId)
  /-- LANE_DROP (R258). -/
  | laneDrop (port : PortId) (lane : Fin 4) (loss : LaneLoss)
  /-- PACKET_FORWARD (R264). -/
  | packetForward (port : Option PortId) (p : Packet)
  /-- PACKET_EXPIRE (R265). -/
  | packetExpire (port : PortId) (vc : BitVec 2)
  /-- CREDIT (R255). -/
  | credit (port : PortId) (counts : List Half)
  /-- CREDIT_RETURN_TIMER (R255). -/
  | creditReturnTimer (port : PortId)
  /-- EG_PORT_ENABLE (R260). -/
  | egPortEnable (path : Path) (port : PortId) (value : Word)
  /-- EG_PORT_RETRAIN (R260). -/
  | egPortRetrain (path : Path) (port : PortId) (value : Word)
  /-- PORT_UP (R260). -/
  | portUp (port : PortId) (t : TrainEnd)
  /-- PORT_DOWN (R261). -/
  | portDown (port : PortId) (cause : DownCause)
  /-- PORT_SILENCE_TIMEOUT (R260). -/
  | portSilenceTimeout (port : PortId)
  /-- PORT_HOLD_EXPIRY (R260). -/
  | portHoldExpiry (port : PortId)
  /-- VC_STALL (R266). -/
  | vcStall (port : PortId) (vc : BitVec 2)
  /-- SPAN_GUARD_OPEN (R273). -/
  | spanGuardOpen (port : PortId)
  /-- PROBE_WAGGLE (R268). -/
  | probeWaggle (w : WaggleHdr)
  /-- ASSIGN (R268). -/
  | assign (w : WaggleHdr) (node : Half) (epoch : Word)
  /-- ROUTE_WRITE (R269). -/
  | routeWrite (w : WaggleHdr) (table : Byte) (first count : Half) (entries : List Half) (rest : RouteRest)
  /-- ROUTE_COMMIT (R270). -/
  | routeCommit (w : WaggleHdr) (beat : BeatField)
  /-- NODE_DOWN (R293). -/
  | nodeDown (w : WaggleHdr) (node : Half)
  /-- NODE_UP (R293). -/
  | nodeUp (w : WaggleHdr) (node : Half) (roleEpoch : Word)
  /-- TEARDOWN (R407). -/
  | teardown (w : WaggleHdr) (job : Half)
  /-- POWER_ALLOC (R330). -/
  | powerAlloc (w : WaggleHdr) (watts : Word) (first : BeatField) (span : BitVec 48)
  /-- EG_COMMIT (R275). -/
  | egCommit (path : Path) (value : Word)
  /-- OP_REGISTER_REGION (R279). -/
  | opRegisterRegion (h : CmdHdr) (a : RegionArg)
  /-- OP_REVOKE_REGION (R280). -/
  | opRevokeRegion (h : CmdHdr) (key : DWord)
  /-- OP_POST_RECV (R287). -/
  | opPostRecv (h : CmdHdr) (a : PostArg)
  /-- OP_SEND (R288). -/
  | opSend (h : CmdHdr) (a : SendArg)
  /-- SEND_TRANSFER_START (R288). -/
  | sendTransferStart
  /-- OP_FLUSH (R291). -/
  | opFlush (h : CmdHdr) (node : Half)
  /-- LINE_OP_ISSUE (R285). -/
  | lineOpIssue
  /-- WRITE (R283). -/
  | write (arr : Option PortId) (p : Packet)
  /-- WRITE_PLACEMENT_COMPLETE (R285). -/
  | writePlacementComplete (n : Nat)
  /-- READ (R283). -/
  | read (arr : Option PortId) (p : Packet)
  /-- READ_RESP (R290). -/
  | readResp (arr : Option PortId) (p : Packet)
  /-- COMPLETION (R290). -/
  | completion (arr : Option PortId) (p : Packet)
  /-- SEND_PIECE (R286). -/
  | sendPiece (arr : Option PortId) (p : Packet)
  /-- FLUSH (R286). -/
  | flush (arr : Option PortId) (p : Packet)
  /-- FLUSH_RESP (R290). -/
  | flushResp (arr : Option PortId) (p : Packet)
  /-- RETURN (R265). -/
  | return_ (arr : Option PortId) (p : Packet)
  /-- ATTEMPT_TIMEOUT (R290). -/
  | attemptTimeout (tag : Word)
  /-- RA_COMMIT (R296). -/
  | raCommit (path : Path) (value : Word)
  /-- HI_DB_SQ (R300). -/
  | hiDbSq (fn : FnId) (ring : Fin 16) (value : Word)
  /-- HI_DB_CQ (R300). -/
  | hiDbCq (fn : FnId) (value : Word)
  /-- COMMAND_FETCH (R301). -/
  | commandFetch (e : FetchEnd)
  /-- IRQ_COALESCE_TIMER (R309). -/
  | irqCoalesceTimer (fn : FnId)
  /-- FUNCTION_LEVEL_RESET (R310). -/
  | functionLevelReset (fn : FnId)
  /-- NUMVFS_CLEAR (R298). -/
  | numvfsClear
  /-- HI_FN_COMMIT (R317). -/
  | hiFnCommit (path : Path) (fn : FnId) (value : Word)
  /-- OP_NOP (R311). -/
  | opNop (h : CmdHdr)
  /-- OP_IDENTIFY (R312). -/
  | opIdentify (h : CmdHdr) (page : DWord)
  /-- OP_SET_ROLE (R402). -/
  | opSetRole (h : CmdHdr) (role : Byte)
  /-- OP_SET_POWER_LIMIT (R329). -/
  | opSetPowerLimit (h : CmdHdr) (mode : Byte) (window : Half) (limit : Word)
  /-- OP_ATTEST (R363). -/
  | opAttest (h : CmdHdr) (buf : DWord) (nonce : BitVec 256)
  /-- OP_SELF_TEST_KAT (R344). -/
  | opSelfTestKat (h : CmdHdr)
  /-- OP_SELF_TEST_STRESS (R345). -/
  | opSelfTestStress (h : CmdHdr)
  /-- STRESS_TEST_END (R345). -/
  | stressTestEnd (failing : List CellId) (cool : Bool)
  /-- OP_DMA_COPY (R313). -/
  | opDmaCopy (h : CmdHdr) (a : DmaCopyArg) (host : HostLines)
  /-- PW_COMMIT (R319). -/
  | pwCommit (path : Path) (value : Word)
  /-- DOMAIN_CLOSURE (R320). -/
  | domainClosure
  /-- DOMAIN_READY (R320). -/
  | domainReady (pd : Fin 50)
  /-- RAIL_READ (R323). -/
  | railRead (readings : List RailReading) (k : Nat)
  /-- ALLOC_LAPSE (R330). -/
  | allocLapse
  /-- SENSOR_READ (R332). -/
  | sensorRead (temps : List Int)
  /-- THERMAL_CAP_STEP (R332). -/
  | thermalCapStep
  /-- WEAR_LOG_APPEND (R333). -/
  | wearLogAppend (hours : Nat)
  /-- WEAR_OUT (R333). -/
  | wearOut
  /-- MARGIN_TRIM (R335). -/
  | marginTrim (slacks : List Nat)
  /-- HEALTH_DECAY (R346). -/
  | healthDecay
  /-- SOFT_REQUEST_RESEND (R347). -/
  | softRequestResend
  /-- GRANT_EXPEL (R349). -/
  | grantExpel (path : Path)
  /-- NO_SPARE (R349). -/
  | noSpare (path : Path)
  /-- COALESCE_WINDOW_CLOSE (R351). -/
  | coalesceWindowClose (source : Byte)
  /-- RL_COMMIT (R353). -/
  | rlCommit (path : Path) (value : Word)
  /-- SUBMIT (R371). -/
  | submit (path : Path) (value : Word)
  /-- GRANT_VERIFY_COMPLETE (R371). -/
  | grantVerifyComplete
  /-- END_DEBUG (R372). -/
  | endDebug (path : Path)
  /-- RNG_FAIL (R364). -/
  | rngFail
  /-- MGMT_READ (R379). -/
  | mgmtRead (f : MgmtFrame)
  /-- MGMT_WRITE (R380). -/
  | mgmtWrite (f : MgmtFrame)
  /-- TELEMETRY (R381). -/
  | telemetry (f : MgmtFrame)
  /-- TELEMETRY_TIMER (R381). -/
  | telemetryTimer
  /-- READ_ACCT (R377). -/
  | readAcct (f : MgmtFrame)
  /-- PULL_EVENTS (R382). -/
  | pullEvents (f : MgmtFrame)
  /-- EVENT_FRAME_SEND (R382). -/
  | eventFrameSend
  /-- SGMII_LINK_CHANGE (R374). -/
  | sgmiiLinkChange (l : SgmiiLink)
  /-- MGMT_FRAME_DROP (R378). -/
  | mgmtFrameDrop
  /-- ENTDAA (R383). -/
  | entdaa (addr : BitVec 7)
  /-- RSTDAA (R383). -/
  | rstdaa
  /-- ENEC (R383). -/
  | enec (int : Bool)
  /-- DISEC (R383). -/
  | disec (int : Bool)
  /-- GETPID (R383). -/
  | getpid
  /-- GETBCR (R383). -/
  | getbcr
  /-- GETDCR (R383). -/
  | getdcr
  /-- GETSTATUS (R383). -/
  | getstatus
  /-- GETMXDS (R383). -/
  | getmxds
  /-- IBI_RETRY (R383). -/
  | ibiRetry
  /-- SET_ENDPOINT_ID (R384). -/
  | setEndpointId (eid : Byte)
  /-- GET_ENDPOINT_ID (R384). -/
  | getEndpointId
  /-- GET_MCTP_VERSION_SUPPORT (R384). -/
  | getMctpVersionSupport
  /-- GET_MESSAGE_TYPE_SUPPORT (R384). -/
  | getMessageTypeSupport
  /-- GET_VENDOR_DEFINED_SUPPORT (R384). -/
  | getVendorDefinedSupport
  /-- MG_TMX_SELECT (R385). -/
  | mgTmxSelect (path : Path) (k : Fin 16) (value : Word)
  /-- MG_COMMIT (R389). -/
  | mgCommit (path : Path) (value : Word)
  /-- BYPASS (R386). -/
  | bypass
  /-- IDCODE (R386). -/
  | idcode
  /-- SAMPLE_PRELOAD (R386). -/
  | samplePreload
  /-- EXTEST (R386). -/
  | extest
  /-- CLAMP (R386). -/
  | clamp
  /-- HIGHZ (R386). -/
  | highz
  /-- REGACC (R387). -/
  | regacc
  /-- REGACC_READ (R387). -/
  | regaccRead (dr : DWord)
  /-- REGACC_WRITE (R387). -/
  | regaccWrite (dr : DWord)
  /-- IJTAG (R388). -/
  | ijtag
  /-- INSTRUMENT_OPERATION (R388). -/
  | instrumentOperation (segment : Fin 8) (changes : Bool)
  /-- TEST_LOGIC_RESET (R386). -/
  | testLogicReset (w : BootWorld)
  /-- POWER_ON_RESET (R394). -/
  | powerOnReset (resetN : Bool) (w : BootWorld)
  /-- GO (R397). -/
  | go (w : BootWorld)
  /-- PWR_OK_FALL (R414). -/
  | pwrOkFall
  /-- WARM_RESET (R400). -/
  | warmReset (cause : WarmCause) (w : BootWorld)
  /-- PERST_BEFORE_READY (R399). -/
  | perstBeforeReady
  /-- BAR0_UNMAPPED_ACCESS (R426). -/
  | bar0UnmappedAccess (fn : FnId) (isWrite : Bool) (off : BitVec 26)
  /-- REGISTER_WRITE (R7). -/
  | registerWrite (path : Path) (off : BitVec 26) (v : RegWrite)
  /-- IMAGE_VERIFY_COMPLETE (R357). -/
  | imageVerifyComplete (n : Nat) (c : ImageFound)
  /-- SELF_TEST_KAT_END (R344). -/
  | selfTestKatEnd (failing transient : List CellId)
  /-- HOST_COMPLETION_TIMEOUT (R315). -/
  | hostCompletionTimeout (fn : FnId)
  /-- PCIE_LINK_CHANGE (R317). -/
  | pcieLinkChange (up : Bool) (width rate : BitVec 4) (flit : Bool)
  /-- RESET_N_RISE (R415). -/
  | resetNRise (w : BootWorld)
  /-- DIRECTED_WAGGLE_FORWARD (R267). -/
  | directedWaggleForward (w : WagglePass)
  /-- REMOTE_READ_COMPLETE (R283). -/
  | remoteReadComplete (n : Nat) (found : Findings)
  /-- PIECE_PLACEMENT_COMPLETE (R286). -/
  | piecePlacementComplete (n : Nat)
  /-- NAND_LUN_FAIL (R245). -/
  | nandLunFail (lun : Nat)
  deriving DecidableEq, Repr

end Sys2Proof
end

