-- ==== Sys2Proof/Decode.lean ====
section
/-!
DEFINITION. The commands that words spell. The table gives no row any bits, so no word spells a command. (The instruction words of the
cells are operands of the cells' commands, and Machine/Operands.lean reads them.)
-/

namespace Sys2Proof

/-- The command that a word of `nbits` bits spells by the table. -/
def decodeTableWord (_nbits _w : Nat) : Option Instr := none

end Sys2Proof
end

