-- ==== Sys2Proof/Machine/State.lean ====
section
/-!
DEFINITION. The state of the block: every register, buffer, queue, mode and pin the spec gives it, as plain data, and the queue of
commands that wait. Words software reads through a register stand in `regs` (by BAR0 offset) unless a typed field below holds
what the register reports; then the read view of Machine/Regs.lean computes the register from the field.
-/

namespace Sys2Proof.Machine

/-! ## Beat time (spec/02_beat_time.md) -/

/-- The lock states of R25. -/
inductive LockState where
  | unlocked | acquiring | locked | holdover | lost
  deriving DecidableEq, Repr

/-- BT_STATUS.LOST_CAUSE (R434). -/
inductive LostCause where
  | none | noEdges | mismatch | overflow
  deriving DecidableEq, Repr

/-- The beat unit (R18–R25). -/
structure BeatUnit where
  state : LockState := .unlocked
  cause : LostCause := .none
  /-- Run count of in-window edges in ACQUIRING, 0 to 16 (R25). -/
  run : Nat := 0
  /-- An edge has set the phase since entry to ACQUIRING (R19, R25). -/
  phased : Bool := false
  /-- Held count, 0 to 256 (R25). -/
  held : Nat := 0
  /-- Consecutive boundaries with accepted edges in HOLDOVER (R25). -/
  good : Nat := 0
  /-- An edge was accepted in the current window (R19). -/
  accepted : Bool := false
  /-- The count: the current beat number, zero outside LOCKED and HOLDOVER (R23, R24). -/
  count : Nat := 0
  /-- Run of reference-port mismatches (R23). -/
  mismatch : Nat := 0
  /-- Markers of the current beat by port, in arrival order; the first of a port stands (R23). -/
  markers : Tab Nat := []
  /-- The reference port fixed for the current beat, 15 when none (R23, BT_STATUS.REF_PORT). -/
  refPort : Nat := 15
  /-- In ACQUIRING: the port and value of the last marker received, and edges accepted since (R25). -/
  acqMarker : Option (Nat × Nat) := none
  acqEdges : Nat := 0
  /-- The unit has locked at the edge 40 hclk before the next boundary, which starts beat `count` itself (R21, R25). -/
  fresh : Bool := false
  /-- A transition that waits for the next boundary: to ACQUIRING after a new PERIOD (`true`), to UNLOCKED after ENABLE = 0 (R25). -/
  leaving : Option Bool := none
  /-- Boundaries placed since the last reset: periods of the committed PERIOD (R260, R351). -/
  periods : Nat := 0
  deriving DecidableEq, Repr

/-! ## Cells (spec/03_cells_and_grid.md) -/

/-- The worker states of R42. -/
inductive WorkerState where
  | idle | ready | waiting | halted | faulted
  deriving DecidableEq, Repr

/-- What a WAITING worker waits for (R42). -/
inductive Wait where
  | none
  | recv (channel dest : Nat)
  | send (port src : Nat)
  | counter (c : Nat) (value : DWord)
  | barrier (b : Nat)
  | dmaSlot (desc : Nat)
  deriving DecidableEq, Repr

/-- A worker (R41). Registers not listed are zero; g0 is never listed. -/
structure Worker where
  g : Tab DWord := []
  v : Tab VReg := []
  pc : DWord := 0
  ctr : Tab Word := []
  state : WorkerState := .idle
  wait : Wait := .none
  crit : Nat := 0
  /-- The model's own: once its cell has issued this many instructions, every result of the worker's is there (R44); none where
  R44 gives one of them no latency. -/
  readyAt : Option Nat := some 0
  deriving DecidableEq, Repr

/-- One context's window on a cell, its workers and engine ownership (R45, R68, R200). -/
structure Win where
  ctx : Nat
  rs : Nat
  base : Nat
  size : Nat
  code : Nat
  workers : BitVec 16
  engine : Bool
  deriving DecidableEq, Repr

/-- A bound send port (R54). -/
structure SendPort where
  ctx : Nat
  dstCell : Nat
  channel : Nat
  credits : Nat
  /-- SENDs that wait for a credit: worker and v register, oldest first. -/
  waiters : List (Nat × Nat) := []
  deriving DecidableEq, Repr

/-- A bound receive channel: its source, at most 8 messages, and the RECVs that wait, oldest first (R54). -/
structure Channel where
  ctx : Nat
  srcCell : Nat
  srcPort : Nat
  queue : List VReg := []
  waiters : List (Nat × Nat) := []
  deriving DecidableEq, Repr

/-- A DMA descriptor that has been issued (R56–R58). -/
structure DmaOp where
  id : Nat
  worker : Nat
  ctx : Nat
  desc : Nat
  src : Nat
  dst : Nat
  len : Nat
  srcSpace : Nat
  dstSpace : Nat
  ctr : Nat
  fence : Bool
  key : DWord
  started : Bool
  resv : Bool := false
  /-- Where STATUS lies in the cell's memory; the two ends as they were resolved at the start: cell and address there (space 2:
  the range offset) (R45, R56). -/
  statusAt : Nat := 0
  srcAt : Nat × Nat := (0, 0)
  dstAt : Nat × Nat := (0, 0)
  /-- The context was aborted or swapped out: no STATUS, no counter (R58); swapped out: the status goes to the swap record (R209). -/
  mute : Bool := false
  saved : Bool := false
  /-- Lines of a space-3 descriptor not yet in the tracker, and not yet left or settled (R285). -/
  linesToIssue : Nat := 0
  linesOpen : Nat := 0
  /-- Lowest failed line and its status (R285). -/
  worst : Option (Nat × Half) := none
  deriving DecidableEq, Repr

/-- A matrix instruction in the queue (R71, R74). -/
inductive MatInsn where
  | mma (tile buf : Nat) (addr : Nat) (mode : DWord) (slot : Option Nat) (fail : Option Half) (desc : List Byte)
  | mlda (buf : Nat) (addr rows kblocks : Nat) (fp4 : Bool) (stride : Nat)
  | mst (tile : Nat) (addr : Nat) (fmt stride rows : Nat)
  deriving DecidableEq, Repr

structure MatOp where
  worker : Nat
  ctx : Nat
  cen : Bool
  ctr : Nat
  insn : MatInsn
  /-- k-blocks already written before a swap-out; the ZERO is then applied (R209, R210). -/
  skip : Nat := 0
  deriving DecidableEq, Repr

/-- An A buffer: bytes at row·256 + byte, scale bytes at row·16 + byte, poisoned rows (R67, R84). -/
structure ABuf where
  data : Mem := []
  scale : Mem := []
  poison : List Nat := []
  deriving DecidableEq, Repr

/-- A B block in the stationary buffer: its 2,048 bytes in the plain order and an FP4 block's 128 scale bytes (R67, R70). -/
structure BBlock where
  data : Mem := []
  scale : Mem := []
  deriving DecidableEq, Repr

/-- An accumulator tile and its descriptor: words at row·64 + column, poisoned and saturated rows (R67). -/
structure Tile where
  isInt : Bool := false
  rows : Nat := 0
  vals : Tab Word := []
  poison : List Nat := []
  sat : List Nat := []
  deriving DecidableEq, Repr

/-- A matrix engine (R67). -/
structure Engine where
  bufs : Tab ABuf := []
  tiles : Tab Tile := []
  /-- The stationary buffer: at most two B blocks, the one loaded last first (R67). -/
  stationary : List BBlock := []
  queue : List MatOp := []
  failed : Bool := false
  /-- Cold until it starts in its stagger slot (R87). -/
  cold : Bool := true
  streaming : Bool := false
  /-- Held by the governor (R88, R326, R327). -/
  held : Bool := false
  deriving DecidableEq, Repr

/-- Codebook slot states (R94). -/
inductive CbState where
  | free | loading | live | retiring
  deriving DecidableEq, Repr

/-- A codebook slot of a cell (R92, R94, R95): `copied` says the copy has completed, `cmd` names the pending load. -/
structure CbSlot where
  state : CbState := .free
  version : Nat := 0
  fmt : Byte := 0
  count : Nat := 0
  refs : Nat := 0
  entries : List Byte := []
  poison : List Nat := []
  cmd : Nat := 0
  copied : Bool := false
  deriving DecidableEq, Repr

/-- A cell (R40). -/
structure Cell where
  mem : Mem := []
  /-- Poisoned 64-byte lines, by line number (R48). -/
  poison : List Nat := []
  windows : List Win := []
  workers : Tab Worker := []
  /-- Last worker to issue (R43). -/
  lastIssued : Nat := 15
  /-- The model's own: instructions issued, one per cclk at most (R43). -/
  issues : Nat := 0
  ports : Tab SendPort := []
  chans : Tab Channel := []
  dma : List DmaOp := []
  engine : Engine := {}
  slots : Tab CbSlot := []
  deriving DecidableEq, Repr

/-- A message in the mesh (R54, R60). -/
structure Msg where
  srcCell : Nat
  port : Nat
  dstCell : Nat
  channel : Nat
  ctx : Nat
  data : VReg
  deriving DecidableEq, Repr

/-- A barrier of the control block (R55). -/
structure Barrier where
  ctx : Nat
  expected : Nat
  arrivals : Nat := 0
  waiting : List (Nat × Nat) := []
  deriving DecidableEq, Repr

/-- The four combs' cells, the mesh, the barriers. -/
structure Grid where
  cells : Tab Cell := []
  msgs : List Msg := []
  /-- Credits on their way back to a send port (R54). -/
  credits : List (Nat × Nat) := []
  barriers : Tab Barrier := []
  nextDma : Nat := 1
  /-- The next line of every cell for the patrol scrubber (R48). -/
  scrub : Nat := 0
  /-- The engine group the governor holds, and whether it rotates (R327). -/
  heldGroup : Nat := 0
  rotating : Bool := false
  /-- Codebook retirements that wait for their slots: command, version, cells with slot (R97). -/
  retires : List (Nat × Nat × List (Nat × Nat)) := []
  deriving DecidableEq, Repr

/-! ## Attention cache (spec/06_attention_cache.md) -/

/-- A page table entry that is not FREE (R114). `cmdPins` are the pins taken by OP_PAGE_PIN, by function (R117, R401). -/
structure Page where
  frame : Nat
  refs : Nat
  pins : Nat
  full : Bool := false
  sumv : Bool := false
  plain : Bool := false
  written : Nat := 0
  kver : Nat := 0
  vver : Nat := 0
  client : Nat := 0
  group : Nat := 0
  layer : Nat := 0
  beat : Nat := 0
  cmdPins : Tab Nat := []
  deriving DecidableEq, Repr

/-- One slot still to be staged (R122, R123): cell, ring, worker and counter, page by block, query tile. -/
structure StageItem where
  cell : Nat
  ring : Nat
  slots : Nat
  worker : Nat
  ctr : Nat
  block : Nat
  group : Nat
  qtile : Nat
  /-- The page its map entry named when the read began; no page for a lost one (R119, R123). -/
  page : Nat
  summary : Bool := false
  deriving DecidableEq, Repr

/-- A layer's stage that has begun (R121–R123); its due beat is a kind-2 deadline (R134). -/
structure Stage where
  handle : DWord
  layer : Nat
  due : Nat
  items : List StageItem
  deriving DecidableEq, Repr

/-- A running collective (R127). -/
structure Coll where
  id : Nat
  ctx : Nat
  lse : Bool
  dh : Nat
  due : Nat
  src : CollBuf
  dst : CollBuf
  /-- This member's buffer as it was read, and whether a line of it was poisoned. -/
  own : List Word := []
  poison : Bool := false
  deriving DecidableEq, Repr

/-- The cache block of the foragers: pages, stages, collectives, pins that wait for HBM (R117). -/
structure Cache where
  pages : Tab Page := []
  stages : List Stage := []
  colls : List Coll := []
  nextColl : Nat := 0
  /-- OP_PAGE_PIN commands waiting for a tile to reach HBM: command, page (R117). -/
  pinWaits : List (Nat × Nat) := []
  deriving DecidableEq, Repr

/-! ## Request state (spec/07_request_state.md) -/

/-- The descriptor states of R150, by their codes 1 to 9. -/
inductive DescState where
  | admitting | receiving | fetching | active | handingOut | passed | adopted | fenced | ending
  deriving DecidableEq, Repr

/-- A request descriptor that is not FREE (R149), and what the foragers remember with it. -/
structure Desc where
  /-- Index in the descriptor table. -/
  idx : Nat := 0
  handle : DWord
  state : DescState
  client : Nat
  ctx : Nat := 0xFFFF
  /-- The context is protected: the layout its map is written in (R135). -/
  prot : Bool := false
  epoch : Nat := 0
  clen : Nat := 0
  slen : Nat := 0
  /-- CLENH as this node knows it: the end of what it has logged, or of what its home reported (R161, R165). -/
  clenh : Nat := 0
  plen : Nat := 0
  maxlen : Nat := 0
  map : Nat := 0
  tbuf : Nat := 0
  lease : Nat := 0
  home : Nat := 0
  partner : Nat := 0
  peer : Option Nat := none
  cb : Nat := 0
  tip : DWord := 0
  parent : DWord := 0
  sample : Nat := 0
  created : Nat := 0
  /-- This node is the group lead for the request (R142). -/
  lead : Bool := true
  /-- Pending host command: submit, handoff, or cancel (R150); zero when none. -/
  cmd : Nat := 0
  /-- Ring and CID that TOKEN and END replies carry (R305). -/
  ring : Nat := 0
  cid : Half := 0
  /-- Place in submission order (R204). -/
  order : Nat := 0
  /-- CREATE refusals in a row (R139), with the CREATE's hashes. -/
  retries : Nat := 0
  hashes : List DWord := []
  /-- Pages and token ids still to arrive in FETCHING (R150, R162); DIRECT awaited. -/
  pagesLeft : Nat := 0
  tokensLeft : Bool := false
  /-- DIRECT as it came: its epoch, first position and rows; summary entries that came before their pages (R162). -/
  direct : Option (Nat × Nat × List PageData) := none
  early : List PageData := []
  /-- The descriptor was ADOPTED before it was handed out; PROPOSE or END has been sent (R162, R166). -/
  wasAdopted : Bool := false
  proposed : Bool := false
  /-- TOKENS sent and unanswered: first position and ids to emit, status of their TOKEN replies, end of the range (R161). -/
  tokensOut : List (Nat × List Word × Half × Nat) := []
  /-- COMMITs outstanding: block, to home, to partner, pages pinned; `retry` lists refused ones (R160). -/
  commits : List (Nat × Bool × Bool) := []
  retry : List (Nat × Bool) := []
  /-- Committed blocks with a page that is not FULL yet: only FULL pages are sent (R116, R160). -/
  unsent : List Nat := []
  /-- END status once ending (R166). -/
  endStatus : Half := 0
  /-- Bytes 0 to 63 of the sampling block as the accepted setup read them; the grammar slot referenced; the grammar replay failed
  (R171, R172, R186, R188). -/
  setup : List Byte := []
  gslot : Option Nat := none
  dead : Bool := false
  /-- POS of the VERIFY that a step left behind when it took the fallback: its result is discarded (R193). -/
  discard : Option Nat := none
  deriving DecidableEq, Repr

/-- A home record or replica that is not FREE (R151), its token log and home-side page map, and the COMMITs placed for
blocks not yet committed: block, then (layer, group, page). -/
structure HomeRec where
  /-- Index in the home-record table. -/
  idx : Nat := 0
  data : RecordData
  replica : Bool := false
  tlog : Tab Word := []
  map : Tab Nat := []
  placed : Tab (List (Nat × Nat × Nat)) := []
  hashes : Tab DWord := []
  /-- Members that have placed their COMMIT: block, node (R160). -/
  from_ : List (Nat × Nat) := []
  /-- Blocks committed beyond the leading run CB (R160). -/
  done : List Nat := []
  deriving DecidableEq, Repr

/-- A valid prefix table entry at its index (R148). -/
structure PfxEntry where
  index : Nat
  hash : DWord
  client : Nat
  mirrored : Bool
  block : Nat
  pages : List Nat
  hit : Nat
  deriving DecidableEq, Repr

/-- The state of a peer (R140). -/
inductive PeerState where
  | up | down | stale
  deriving DecidableEq, Repr

structure Peer where
  entry : PeerEntry
  state : PeerState := .up
  deriving DecidableEq, Repr

/-- A home operation in progress: its handle, the message, whether its REPLICATEs are out and how many the mirror has not
acknowledged (R145). -/
structure HomeOp where
  handle : DWord
  msg : Instr
  /-- The beat it came; a reassignment's is its boundary (R154). -/
  came : Nat := 0
  sent : Bool := false
  acks : Nat := 0
  /-- The record as the REPLICATE carries it. -/
  carried : Option RecordData := none
  deriving DecidableEq, Repr

/-- A message sent whose REPLY has not arrived; `mirror` marks those addressed to a home's partner as such (R145, R160). -/
structure Asked where
  dst : Nat
  handle : DWord
  epoch : Nat
  fork : Bool := false
  mirror : Bool := false
  /-- A REPLICATE that follows a change: nothing waits for its REPLY (R145). -/
  follow : Bool := false
  body : FBody
  deriving DecidableEq, Repr

/-- The forager block's request state (R137–R166). -/
structure Forager where
  descs : List Desc := []
  recs : List HomeRec := []
  pfx : List PfxEntry := []
  peers : List Peer := []
  seq : Nat := 0
  homeOps : List HomeOp := []
  /-- PREFIX_LOOKUP and QUERY commands waiting for an answer: command, handle, node, host buffer. -/
  queries : List (Nat × DWord × Nat × Nat) := []
  /-- Nodes this node is bringing a spare up for (R164), and nodes whose pair is being resilvered here. -/
  resilver : List Nat := []
  spareOf : Bool := false
  acting : List Nat := []
  actingNext : List Nat := []
  /-- Nodes whose resilvering is complete: home duty returns at the next boundary (R164). -/
  resilvered : List Nat := []
  nextOrder : Nat := 0
  asked : List Asked := []
  /-- Messages held for their not-before beat or while the beat is lost (R26, R33). -/
  held : List Instr := []
  /-- Block commits whose acknowledgement waits for this mirror's own pages: handle, block, home (R160). -/
  ackWaits : List (DWord × Nat × Nat) := []
  /-- Next generation of each slot at each peer, at node·1024 + slot (R294). -/
  gens : Tab Nat := []
  deriving DecidableEq, Repr

/-! ## Lens (spec/08_decode_path.md) -/

/-- Grammar slot states (R185). -/
inductive GState where
  | free | loading | live | retiring | failed
  deriving DecidableEq, Repr

/-- A grammar slot (R184–R187). -/
structure GSlot where
  state : GState := .free
  id : Nat := 0
  nstates : Nat := 0
  nranges : Nat := 0
  banks : List Nat := []
  refs : List DWord := []
  copied : Bool := false
  cmd : Nat := 0
  retires : List Nat := []
  poisoned : Bool := false
  deriving DecidableEq, Repr

/-- A queued lens request: its 64 bytes (R173). -/
structure LensReq where
  bytes : VReg
  client : Nat
  /-- The context whose DMA queued it. -/
  ctx : Nat
  deriving DecidableEq, Repr

structure Lens where
  vocab : Nat := 0
  narrow : Nat := 0
  queue : List LensReq := []
  slots : Tab GSlot := []
  /-- The automaton store: entries at bank·32768 + i (R189). -/
  store : Tab DWord := []
  on : BitVec 64 := 0
  searchable : BitVec 64 := 0
  failed : BitVec 64 := 0
  sweep : Nat := 0
  deriving DecidableEq, Repr

/-! ## Scheduler (spec/09_scheduling_contexts.md) -/

/-- Context states (R202). -/
inductive CtxState where
  | swapped | swappingIn | resident | swappingOut | aborted
  deriving DecidableEq, Repr

/-- One cell of a swap record (R208, R209). -/
structure SwapCell where
  cell : Nat
  mem : Mem
  poison : List Nat
  workers : Tab Worker
  engine : Option Engine
  queue : List MatOp
  ports : Tab SendPort
  chans : Tab Channel
  deriving DecidableEq, Repr

/-- A swap record: the slot it was saved from, its cells, the barriers in the image's order, descriptors and semaphore requests. -/
structure SwapRec where
  rs : Nat
  cells : List SwapCell
  barriers : List Barrier
  finished : List (Nat × Nat × Nat × Nat × Half)
  discarded : List (Nat × Nat × Nat)
  sems : List (Nat × Nat × Nat × Nat × Nat)
  deriving DecidableEq, Repr

/-- A context that is not FREE (R201, R202). -/
structure Ctx where
  state : CtxState := .swapped
  client : Nat
  cls : Nat
  prio : Nat
  prot : Bool
  base : Nat
  size : Nat
  /-- Tiles of the swap area reserved for its record, as runs of first tile and count (R208). -/
  swapRuns : List (Nat × Nat) := []
  rs : Option Nat := none
  assigned : Option Nat := none
  runnable : Option Nat := none
  blocked : Option Nat := none
  heldOut : Nat := 0
  evicted : Bool := false
  /-- All workers of the context waited at the last boundary; one has left that state since (R203). -/
  quietAt : Bool := false
  stirred : Bool := false
  /-- Chosen victim whose pre-emption is deferred: the beat of the choice (R207). -/
  chosen : Option Nat := none
  /-- Swapping out: it held units at the entry (R215); the drain is over; the save is (R209). Swapping in: the restore is (R210). -/
  force : Bool := false
  drained : Bool := false
  saved : Bool := false
  restored : Bool := false
  /-- Descriptors finished or discarded during the drain: cell, worker, window offset, counter, status; cell, worker, offset (R209). -/
  finished : List (Nat × Nat × Nat × Nat × Half) := []
  discarded : List (Nat × Nat × Nat) := []
  semsOut : List (Nat × Nat × Nat × Nat × Nat) := []
  queues : Tab (List MatOp) := []
  record : Option SwapRec := none
  /-- Abort due at the next boundary with this status (R206, R216). -/
  abort : Option Half := none
  /-- OP_CONTEXT_DESTROY waiting for its boundary. -/
  destroy : Option Nat := none
  /-- The status the context's last collective on this device gave it: ST_OK, or ST_DEADLINE_MISSED (R127, R34 kind 4). -/
  coll : Option Half := none
  deriving DecidableEq, Repr

/-- A queued semaphore request (R213, R214). -/
structure SemReq where
  cell : Nat
  worker : Nat
  ctx : Nat
  units : Nat
  ctr : Nat
  deriving DecidableEq, Repr

/-- A LIVE semaphore (R212). -/
structure Sem where
  client : Nat
  count : Nat
  queue : List SemReq := []
  held : Tab Nat := []
  deriving DecidableEq, Repr

/-- The job (R404–R406). -/
inductive Job where
  | none
  | held (cmd : Nat) (j0 : Nat)
  | started (j0 : Nat)
  deriving DecidableEq, Repr

/-- A running request step (R128, R170, R204). -/
structure Step where
  handle : DWord
  ctx : Nat
  gen : Bool
  start : Nat
  deadline : Nat
  clen : Nat
  e : Nat
  draftSlots : Nat
  att : List AttEntry
  d : Nat := 0
  lastJ : Nat := 0
  tilde : Option Word := none
  drafts : List Word := []
  /-- Layers whose stage has begun (R121). -/
  staged : List Nat := []
  /-- Status of a failed setup (R172) or append (R126); the step commits nothing. -/
  fail : Option Half := none
  degraded : Bool := false
  /-- The fallback token was emitted at the deadline (R193); the deadline passed without one. -/
  fellBack : Bool := false
  late : Bool := false
  written : List Nat := []
  /-- The accepted count once it is known: the step ends when every layer is written (R129, R193). -/
  accepted : Option Nat := none
  /-- The step recomputes logged positions: it samples and emits nothing (R165). -/
  recompute : Bool := false
  deriving DecidableEq, Repr

/-- A running cell work block (R62). -/
structure Block where
  ctx : Nat
  rs : Nat
  endBeat : Nat
  workers : List (Nat × Nat)
  deriving DecidableEq, Repr

/-- A running migration entry (R236). -/
structure MigEntry where
  ctx : Nat
  first : Nat
  count : Nat
  dest : Nat
  due : Nat
  consumer : Nat
  deriving DecidableEq, Repr

structure Sched where
  model : Option (ModelImage × Nat × BitVec 384) := none
  image : Option (ScheduleImage × BitVec 384) := none
  job : Job := .none
  /-- A stop that acts at the next boundary: its commands, and whether a teardown asked for it; then the replies that wait one boundary
  more, with the job's number (R406, R407). -/
  stops : List Nat := []
  torn : Bool := false
  stopReplies : List (Nat × Nat) := []
  ctxs : Tab Ctx := []
  sems : Tab Sem := []
  steps : List Step := []
  blocks : List Block := []
  migs : List MigEntry := []
  level : Nat := 0
  target : Nat := 0
  ratio : Nat := 0
  /-- Beat of the last evaluation (R218). -/
  evalAt : Nat := 0
  /-- Counters of R221: client·12 + index, as they advance and as last published (R222). -/
  acct : Tab Nat := []
  acctPub : Tab Nat := []
  /-- Fractions of a µJ carried per client (R223). -/
  energyFrac : Tab Nat := []
  pubBeat : Nat := 0
  /-- Contexts whose function was reset: freed at the next boundary (R401). -/
  flrAt : List Nat := []
  deriving DecidableEq, Repr

/-! ## Tiers (spec/10_memory_tiers.md) -/

/-- Where a tile lies: a stack of HBM, a DDR5 channel, a NAND LUN (R226, R227). -/
inductive Place where
  | hbm (stack : Nat) | ddr (ch : Nat) | nand (lun : Nat)
  deriving DecidableEq, Repr

/-- A tile that is not ZERO (R226): its place, the destination of a move, the last access in units of 256 beats. -/
structure TileSt where
  place : Place
  moving : Option Place := none
  access : Nat := 0
  deriving DecidableEq, Repr

/-- A pin of R230: tiles first to first + count − 1 to a tier (0 HBM, 1 DDR5), and what made it. -/
inductive PinOwner where
  | jobTables | swapArea | lensShadow | model | tokenLog (h : DWord)
  deriving DecidableEq, Repr

structure Pin where
  first : Nat
  count : Nat
  tier : Nat
  owner : PinOwner
  deriving DecidableEq, Repr

/-- A mover request (R231, R235), and the client its traffic is charged to, where there is one (R221). -/
structure MoveReq where
  id : Nat
  rank : Nat
  dest : Nat
  comb : Nat
  tiles : List Nat
  client : Option Nat := none
  /-- Tiles in flight or joined to a move, then moved and abandoned. -/
  waiting : List Nat := []
  moved : Nat := 0
  abandoned : Nat := 0
  poisoned : Bool := false
  cmd : Nat := 0
  deriving DecidableEq, Repr

/-- A move in flight: its tile, the queue it left (3 × source tier + destination), and the client it is charged to (R221, R231). -/
structure TileMove where
  tile : Nat
  queue : Nat
  client : Option Nat := none
  deriving DecidableEq, Repr

/-- A good NAND block: its erase count; its valid pages, each a tile and which half of it; the pages programmed and the reads of it
since its erase; the powered hour in which its first page was programmed (R243, R244). -/
structure NandBlock where
  erase : Nat := 0
  pages : List (Nat × Nat) := []
  used : Nat := 0
  reads : Nat := 0
  programmed : Nat := 0
  deriving DecidableEq, Repr

/-- A NAND LUN as the translation layer sees it: its good blocks on its planes, and the two that are open (R243–R245). -/
structure Lun where
  blocks : Tab NandBlock := []
  planes : Nat := 2
  opened : Option (Nat × Nat) := none
  dead : Bool := false
  deriving DecidableEq, Repr

structure Tiers where
  mem : Mem := []
  poison : List Nat := []
  tiles : Tab TileSt := []
  total : Nat := 0
  hbmTiles : Nat := 0
  ddrTiles : Nat := 0
  nandTiles : Nat := 0
  reserve : Nat := 0
  freeHbm : Tab Nat := []
  freeDdr : Tab Nat := []
  freeNand : Nat := 0
  hbmOut : BitVec 20 := 0
  hbmFailed : BitVec 20 := 0
  ddrState : Tab Nat := []
  mrdimm : Bool := false
  /-- Uncorrectable lines of each DDR5 channel in this beat (R241). -/
  ddrLines : Tab Nat := []
  nandChannels : BitVec 8 := 0
  degraded : Bool := false
  spare : Nat := 0
  goodBlocks : Nat := 0
  luns : Tab Lun := []
  /-- Pages of a NAND block (R242). -/
  blockPages : Nat := 0
  nextLun : Nat := 0
  /-- Every channel in service runs NV-LPDDR4 (R242). -/
  lpddr4 : Bool := false
  pins : List Pin := []
  reqs : List MoveReq := []
  moves : List TileMove := []
  nextReq : Nat := 1
  deriving DecidableEq, Repr

/-! ## Emgait fabric (spec/11_emgait_fabric.md) -/

/-- Port states (R260). -/
inductive PortState where
  | disabled | training | up | down | held
  deriving DecidableEq, Repr

/-- What a waggle that this device sends says (R267, R268): beside its packet, since the spec gives a REPLY's and a LINK_EVENT's body no
layout. -/
inductive WaggleForm where
  | reply (status : Half) (body : List Nat)
  | forward (w : WaggleHdr)
  | linkEvent (port old new width cause : Nat)
  deriving DecidableEq, Repr

/-- A packet that waits to start: the input it came by (6 for injection), its virtual channel, the output it was given where one
was, the boundaries it has stood at the head (R256, R264, R266), the residency slot whose reservation it may spend and the client
its bytes are charged to (R257, R221), whether it waits for its span to open (R273), and what a waggle of this device says. -/
structure QPkt where
  /-- The model's own: number of the packet in the order of arrival. -/
  id : Nat := 0
  input : Nat
  vc : Nat
  pkt : Packet
  out : Option Nat := none
  age : Nat := 0
  rs : Option Nat := none
  client : Option Nat := none
  early : Bool := false
  form : Option WaggleForm := none
  deriving DecidableEq, Repr

/-- A codeword as its link layer sends it (R250): SEQ, ACK and 640 bytes of packet stream. -/
structure Codeword where
  seq : Nat
  ack : Nat
  stream : List Byte
  deriving DecidableEq, Repr

structure Port where
  state : PortState := .disabled
  width : Nat := 0
  dropped : BitVec 4 := 0
  locked : BitVec 4 := 0
  peerNode : Option NodeId := none
  peerPort : Nat := 0
  peerIdentity : DWord := 0
  /-- Periods at the last two entries into DOWN, whether the last was made by RETRAIN (R260). -/
  lastDown : Option Nat := none
  holdEnd : Nat := 0
  /-- Credits held for each VC, and credits owed to the peer (R255). -/
  credits : List Nat := [0, 0, 0, 0]
  owed : List Nat := [0, 0, 0, 0]
  timer : Bool := false
  /-- Reserved VC 0 credits by residency slot (R257). -/
  reserved : Tab Nat := []
  /-- SEQ of the codeword being filled, and its bytes so far; SEQ of the last codeword accepted, and of the last one acknowledged (R250,
  R251). -/
  txSeq : Nat := 0
  stream : List Byte := []
  rxSeq : Nat := 1023
  ackSeq : Nat := 1023
  /-- The last 256 transmitted codewords, oldest first, and how often in a row the oldest unacknowledged one was replayed (R251). -/
  replay : List Codeword := []
  replays : Nat := 0
  /-- Input served last by this output, for each virtual channel (R256). -/
  turns : List Nat := [6, 6, 6, 6]
  /-- Packets sent and not yet acknowledged by the link (R261): SEQ of the codeword they left in. -/
  sent : List (Nat × Packet) := []
  corrBeat : List Nat := [0, 0, 0, 0]
  badBeat : List Nat := [0, 0, 0, 0]
  /-- The span guard is up: only VC 2 and the named reservation start (R273). -/
  span : Option Nat := none
  /-- The guard before the next span is open (R273). -/
  guard : Option Nat := none
  deriving DecidableEq, Repr

structure Fabric where
  ports : Tab Port := []
  /-- Routing entries at table·16384 + node, active and shadow (R263). -/
  active : Tab Half := []
  shadow : Tab Half := []
  /-- Spray pointer of each input: the port used last (R264). -/
  rr : Tab Nat := []
  /-- Packets that wait, in order of arrival. -/
  waiting : List QPkt := []
  /-- The model's own: number of the next packet to wait. -/
  nextPkt : Nat := 0
  /-- Beats of the ROUTE_COMMITs that wait, zero for the next boundary (R270). -/
  commitAt : List Nat := []
  node : Option NodeId := none
  mgr : NodeId := 0
  epoch : Nat := 0
  deriving DecidableEq, Repr

/-! ## Remote access (spec/12_remote_access.md) -/

/-- A region that is not FREE (R277). -/
structure Region where
  base : Nat
  length : Nat
  secret : BitVec 44
  revoking : Bool := false
  rd : Bool
  wr : Bool
  queue : Bool
  prot : Bool
  from_ : Option NodeId
  client : Nat
  admitted : Nat := 0
  slot0 : Nat := 0
  slots : Nat := 0
  revokeCmd : Nat := 0
  deriving DecidableEq, Repr

/-- Slot states (R286). -/
inductive SlotState where
  | empty | posted | filling | complete
  deriving DecidableEq, Repr

/-- A slot record that is in use (R286), its coverage, and the post command that waits for it. -/
structure RecvSlot where
  buf : Nat := 0
  size : Nat := 0
  gen : Nat := 0
  state : SlotState := .empty
  tailv : Bool := false
  poison : Bool := false
  src : Nat := 0
  tag : Word := 0
  tlen : Nat := 0
  tcrc : Word := 0
  /-- Offset and bytes of every piece placed in this generation. -/
  placed : List (Nat × Nat) := []
  post : Nat := 0
  deriving DecidableEq, Repr

/-- An admitted operation that has not finished at this node (R283). -/
structure Admitted where
  id : Nat
  region : Nat
  slot : Nat := 0
  /-- Tiered-range offset it reads or writes. -/
  place : Nat := 0
  pkt : Packet
  deriving DecidableEq, Repr

/-- A line operation in the tracker (R285, R290). -/
structure LineOp where
  tag : Nat
  isRead : Bool
  fn : Nat
  ctx : Nat
  cell : Nat
  dma : Nat
  line : Nat
  dest : DWord
  key : DWord
  /-- Cell, space and address of the local side (space 0 to 2). -/
  mem : Nat
  space : Nat
  addr : Nat
  data : VReg
  data2 : VReg
  poison : Bool
  prot : Bool := false
  attempts : Nat := 0
  /-- BEAT of the current attempt, zero for none; the attempt has been sent (R289). -/
  until_ : Nat := 0
  sent : Bool := false
  last : Option Half := none
  left : Bool := false
  deriving DecidableEq, Repr

/-- A send transfer (R288, R290). -/
structure SendTx where
  tag : Nat
  fn : Nat
  cmd : Nat
  node : Nat
  slot : Nat
  key : DWord
  gen : Nat
  src : Nat
  len : Nat
  tcrc : Word := 0
  prot : Bool := false
  flushLeft : Bool := false
  inFlight : Bool := false
  attempts : Nat := 0
  until_ : Nat := 0
  last : Option Half := none
  deadline : Nat := 0
  /-- A forager message's transfer (R294): the message, and how often in a row its check failed. -/
  forager : Bool := false
  msg : Option (FHdr × FBody) := none
  checks : Nat := 0
  /-- The pages it moves: pinned while it lasts (R117). -/
  pages : List Nat := []
  /-- Which of the message's consecutive transfers of 256 KiB this is (R294). -/
  part : Nat := 0
  deriving DecidableEq, Repr

/-- The flush tracker (R291): an operation issued, its function and node, and its outcome once settled. -/
structure FlushItem where
  seq : Nat
  tag : Nat
  isSend : Bool
  fn : Nat
  node : Nat
  outcome : Option Half := none
  deriving DecidableEq, Repr

structure FlushWait where
  cmd : Nat
  fn : Nat
  node : Option Nat
  upto : Nat
  deriving DecidableEq, Repr

structure Remote where
  regions : Tab Region := []
  slots : Tab RecvSlot := []
  admitted : List Admitted := []
  nextAdm : Nat := 0
  lines : List LineOp := []
  sends : List SendTx := []
  flushes : List FlushItem := []
  waits : List FlushWait := []
  nextSeq : Nat := 0
  nextTag : Nat := 1
  down : List Nat := []
  gcm : Nat := 0
  kfab : Option (BitVec 256) := none
  deriving DecidableEq, Repr

/-! ## Host interface (spec/13_host_interface.md) -/

/-- A submission ring (R299–R301). -/
structure SqRing where
  enabled : Bool := false
  size : Nat := 0
  head : Nat := 0
  tail : Nat := 0
  error : Bool := false
  deriving DecidableEq, Repr

/-- A reply before it is written (R305): CID, STATUS, kind, ring, RESULT, and the command it answers with IRQ_NOW. -/
structure Reply where
  cid : Half
  status : Half
  kind : Nat
  ring : Nat
  result : DWord
  irqNow : Bool := false
  /-- A COMMAND reply's place in its ring: the command's (R304). -/
  pos : Nat := 0
  deriving DecidableEq, Repr

structure Fn where
  sq : Tab SqRing := []
  cqEnabled : Bool := false
  cqSize : Nat := 0
  cqHead : Nat := 0
  cqTail : Nat := 0
  phase : Bool := true
  cqError : Bool := false
  queue : List Reply := []
  /-- Replies written since the last vector 0 message (R309). -/
  unsignalled : Nat := 0
  /-- MSI-X mask and pending bits (R309). -/
  mask : BitVec 3 := 0
  pendBits : BitVec 3 := 0
  deriving DecidableEq, Repr

/-- A command that has been parsed and has no reply yet (R303, R304). -/
structure Cmd where
  id : Nat
  hdr : CmdHdr
  op : HostOp
  /-- Position in its ring, in order of parsing. -/
  pos : Nat
  /-- 0 waits behind a FENCE, 1 held for its not-before beat, 2 started, 3 released and waits behind its own FENCE. -/
  phase : Nat
  late : Bool := false
  /-- Its reply is discarded: its function was reset after it was parsed (R310). -/
  discard : Bool := false
  /-- The flush tracker's next number when it was parsed: an OP_FLUSH covers what came before (R291). -/
  upto : Nat := 0
  deriving DecidableEq, Repr

structure HostIf where
  fns : Tab Fn := []
  cmds : List Cmd := []
  nextCmd : Nat := 1
  /-- Doorbell order: function, ring, tail (R301). -/
  doorbells : List (Nat × Nat × Nat) := []
  numVfs : Nat := 0
  /-- BAR2 of PF0 and of the virtual functions spans 16 GiB × 2 to this power (R229). -/
  barPf : Nat := 0
  barVf : Nat := 0
  linkUp : Bool := false
  linkWidth : BitVec 4 := 0
  linkRate : BitVec 4 := 0
  linkFlit : Bool := false
  /-- AER errors logged: function, error (R315). -/
  aer : List (Nat × Nat) := []
  deriving DecidableEq, Repr

/-! ## Power (spec/14_power_thermal.md) -/

structure Alloc where
  watts : Nat
  first : Nat
  last : Nat
  deriving DecidableEq, Repr

structure Power where
  on : BitVec 50 := 0
  ready : BitVec 50 := 0
  closing : List Nat := []
  mode : Nat := 0
  window : Nat := 50
  limit : Nat := 2200
  /-- OP_SET_POWER_LIMIT commands that wait for the boundary: command, mode, window, limit (R329). -/
  setting : List (Nat × Nat × Nat × Nat) := []
  alloc : Option Alloc := none
  /-- Allocations recorded and not yet in force, in order of arrival (R330). -/
  allocNext : List Alloc := []
  cap : Nat := 0
  capCause : Nat := 0
  thermal : Option Nat := none
  thermalAge : Nat := 0
  temps : List Int := []
  slacks : List Nat := []
  /-- Requests of the five rails in mV (R335). -/
  vreq : List Nat := []
  trimNext : List Nat := []
  /-- Time charged in µs (R333). -/
  wear : Nat := 0
  wearHours : Nat := 0
  wearBudget : Nat := 3600000
  worn : Bool := false
  /-- Modelled power of past beats, newest first, in W (R328, R331). -/
  history : List Nat := []
  measured : Nat := 0
  k : Nat := 1000
  kFrozen : Bool := false
  holdAll : Bool := false
  thermtrip : Bool := false
  deriving DecidableEq, Repr

/-! ## Reliability (spec/15_reliability.md) -/

/-- Health states (R347). -/
inductive Health where
  | healthy | softPending | suspect | expelling | expelled
  deriving DecidableEq, Repr

/-- A running self-test: the known-answer pass or the stress test (R344, R345). -/
inductive SelfTest where
  | none | kat (cmd : Nat) | stress (cmd : Nat)
  deriving DecidableEq, Repr

structure Reliab where
  score : Nat := 0
  health : Health := .healthy
  cause : Nat := 0
  /-- Boundaries since the soft request was last sent (R347), a margin-out since the last boundary, the sampled phase (R349). -/
  softAge : Nat := 0
  marginOut : Bool := false
  phase : Nat := 0
  seq : Nat := 0
  log : Tab (List Byte) := []
  /-- Open coalescing windows by SOURCE and the events counted (R351). -/
  windows : Tab Nat := []
  test : SelfTest := .none
  katNext : Nat := 0
  /-- Boundaries placed when each cell last passed (R353, RL_KAT_AGE). -/
  katBeat : Tab Nat := []
  /-- Beat of the last decay (R346). -/
  decayAt : Nat := 0
  deriving DecidableEq, Repr

/-! ## Security (spec/16_security.md) -/

/-- Why an image is being verified. -/
inductive VerifyFor where
  | model | schedule
  | codebook (slot : Byte) (first last : Half)
  | grammar (slot : Byte)
  deriving DecidableEq, Repr

structure Verify where
  id : Nat
  cmd : Nat
  fn : Nat
  base : Nat
  length : Nat
  what : VerifyFor
  deriving DecidableEq, Repr

/-- A seal on a byte range (R360); `cmd` names the load command while it runs. -/
structure Seal where
  lo : Nat
  hi : Nat
  cmd : Nat
  what : VerifyFor
  deriving DecidableEq, Repr

structure Security where
  seed : Option (BitVec 256) := none
  idkeys : Option (BitVec 384) := none
  owner : Option (List Byte × List Byte) := none
  rngOk : Bool := false
  rngCount : Nat := 0
  meas : List (BitVec 384) := []
  debug : Nat := 0
  challenge : BitVec 256 := 0
  grant : Option Nat := none
  /-- The taking of random bits that drew client 0's XTS key, the other clients' following it (R365); none where the generator had failed. -/
  xtsFrom : Option Nat := none
  seals : List Seal := []
  verifs : List Verify := []
  deriving DecidableEq, Repr

/-! ## Management and debug (spec/17_management_debug.md) -/

/-- TAP instructions (R386). -/
inductive TapInsn where
  | bypass | idcode | samplePreload | extest | clamp | highz | regacc | ijtag
  deriving DecidableEq, Repr

structure Mgmt where
  link : SgmiiLink := .down
  serving : Bool := false
  mac : Option (BitVec 48) := none
  boot : DWord := 0
  mkey : Option (List Byte) := none
  rxSeq : Nat := 0
  sent : Nat := 0
  daddr : Option (BitVec 7) := none
  i3cOn : Bool := false
  ibiOn : Bool := false
  /-- An IBI was raised less than 1 ms ago (R383). -/
  ibiHold : Bool := false
  /-- Bits [31:0] of the provisional ID (R383). -/
  pid : Word := 0
  eid : Byte := 0
  tap : TapInsn := .idcode
  scanned : Bool := false
  regData : Word := 0
  regResult : BitVec 2 := 0
  regOff : BitVec 24 := 0
  segments : BitVec 8 := 0
  deriving DecidableEq, Repr

/-! ## Start-up, pins and the boot window (spec/18_startup_reset.md, spec/19_pins_electrical.md) -/

structure Boot where
  phase : Nat := 0
  status : Half := 0
  source : Nat := 0
  pwrOk : Bool := false
  resetN : Bool := false
  window : Bool := true
  staging : Mem := []
  flash : Mem := []
  stress : Bool := false
  role : Nat := 0
  roleEpoch : Word := 0
  deriving DecidableEq, Repr

/-! ## What the device sends -/

/-- What leaves the device (State.tx). -/
inductive Tx where
  | marker (port : Nat) (beat : Nat)
  | credit (port : Nat) (counts : List Nat)
  /-- Codewords sent again from ACK + 1 (R251); first sendings stand in the port's replay buffer. -/
  | replay (port : Nat) (words : List Codeword)
  | packet (port : Nat) (p : Packet)
  | localPacket (p : Packet)
  | collective (resid : Nat) (words : List Word)
  | forager (dst : Nat) (head : List Byte) (h : FHdr) (b : FBody)
  | waggleReply (port : Nat) (status : Half) (body : List Nat)
  | waggleForward (port : Nat) (w : WaggleHdr)
  | linkEvent (port old new width cause : Nat)
  | hostWrite (fn : Nat) (addr : Nat) (bytes : List Byte)
  | hostPoison (fn : Nat) (addr : Nat)
  | msix (fn vector : Nat)
  | completion (fn : Nat) (bytes : List Byte) (poisoned : Bool)
  | unsupported (fn : Nat)
  /-- The octets of an SGMII frame from its destination address to its padding (R375, R376). -/
  | mgmtFrame (octets : List Byte)
  | mctp (kind : Byte) (status : Half) (seq : DWord) (body : List Byte)
  /-- An MCTP control response: the request's command code and the response's bytes (R384). -/
  | mctpControl (code : Byte) (body : List Byte)
  | i3c (bytes : List Byte)
  | ibi
  | tap (data : DWord)
  | avs (rail : Nat) (millivolts : Nat)
  | pin (name : Nat) (value : Nat)
  | instrument (segment : Nat) (ok : Bool)
  deriving DecidableEq, Repr

/-- The state of the machine. -/
structure State where
  beat : BeatUnit := {}
  grid : Grid := {}
  cache : Cache := {}
  forager : Forager := {}
  lens : Lens := {}
  sched : Sched := {}
  tiers : Tiers := {}
  fabric : Fabric := {}
  remote : Remote := {}
  host : HostIf := {}
  power : Power := {}
  reliab : Reliab := {}
  sec : Security := {}
  mgmt : Mgmt := {}
  boot : Boot := {}
  /-- Registers held as words, by BAR0 offset; an unlisted register holds its reset value (R7, R424). -/
  regs : Tab Word := []
  /-- Committed words of registers with SH fields, by BAR0 offset; unlisted: the reset value (R8). -/
  committed : Tab Word := []
  /-- High halves latched by a low-half read: path·2^26 + offset of the high half (R39, R379). -/
  latches : Tab Word := []
  /-- The model's own: how many free values have been taken. -/
  freeCtr : Nat := 0
  /-- What has left the device, newest first. -/
  tx : List Tx := []
  /-- The commands that wait, first in, first out. -/
  pending : List Instr := []
  deriving DecidableEq, Repr

/-- Why the machine stops with a fault. -/
inductive Fault where
  /-- Raised by the meaning of a cell instruction when the instruction word handed to it is of another row of the table: no
  machine event is such a command. Safe: the model stops where the hardware has nothing to do. -/
  | wordOfAnotherRow
  deriving DecidableEq, Repr

/-- Why a command has no meaning. -/
inductive Refusal where
  /-- Raised by an arm of `exec` whose command the model gives no meaning, by the command's mnemonic. Safe. -/
  | notModelled (mnemonic : String)
  deriving DecidableEq, Repr

/-- The machine right after reset: every register at its Reset value (an unlisted word reads so), no command waiting, the
power-up sequence not yet begun (R394, R400). -/
def State.reset : State := {}

end Sys2Proof.Machine
end

