-- ==== Sys2Proof/Machine/Tab.lean ====
section
/-!
DEFINITION. Sparse tables and byte memories in one canonical form: numbers strictly rising, and in a byte memory no entry
equal to what an unlisted address reads as, which is zero. Every table of State is read and written through these.
-/

namespace Sys2Proof.Machine

/-- The entry of number `k`, if it is listed. -/
def tget {α : Type} : Tab α → Nat → Option α
  | [], _ => none
  | (a, v) :: t, k => if a = k then some v else tget t k

/-- The entry of number `k`, or the table's default. -/
def tgetD {α : Type} (t : Tab α) (k : Nat) (d : α) : α := (tget t k).getD d

/-- Lists `v` under number `k`, in rising order. -/
def tset {α : Type} : Tab α → Nat → α → Tab α
  | [], k, v => [(k, v)]
  | (a, w) :: t, k, v =>
    if k < a then (k, v) :: (a, w) :: t
    else if a = k then (k, v) :: t
    else (a, w) :: tset t k v

/-- Unlists number `k`. -/
def terase {α : Type} : Tab α → Nat → Tab α
  | [], _ => []
  | (a, w) :: t, k => if a = k then t else (a, w) :: terase t k

/-- Lists `v` under `k` unless it is the default `d`, which an unlisted number reads as. -/
def tsetD {α : Type} [DecidableEq α] (t : Tab α) (k : Nat) (v d : α) : Tab α :=
  if v = d then terase t k else tset t k v

/-- Changes the listed entry of number `k`. -/
def tmod {α : Type} (t : Tab α) (k : Nat) (f : α → α) : Tab α :=
  t.map fun e => if e.1 = k then (e.1, f e.2) else e

/-- The numbers of a table strictly rise. -/
def tsorted {α : Type} : Tab α → Bool
  | [] => true
  | [_] => true
  | (a, _) :: (b, w) :: t => decide (a < b) && tsorted ((b, w) :: t)

/-- The canonical form of a byte memory: strictly rising addresses and no entry of zero, which unlisted bytes read as. -/
def Memory.wf (m : Mem) : Bool := tsorted m && m.all fun e => e.2 ≠ 0

/-- One byte: a byte nothing has written reads as zero. -/
def mget (m : Mem) (a : Nat) : Byte := tgetD m a 0

/-- Writes one byte, keeping the canonical form. -/
def mset (m : Mem) (a : Nat) (b : Byte) : Mem := tsetD m a b 0

/-- `n` bytes from `a`, lowest address first. -/
def mread (m : Mem) (a n : Nat) : List Byte := (List.range n).map fun i => mget m (a + i)

/-- Bytes to `a` and upward. -/
def mwrite : Mem → Nat → List Byte → Mem
  | m, _, [] => m
  | m, a, b :: bs => mwrite (mset m a b) (a + 1) bs

/-- Zeroes bytes `a` to `a + n − 1`. -/
def mclear (m : Mem) (a n : Nat) : Mem := m.filter fun e => decide (e.1 < a) || decide (a + n ≤ e.1)

/-! ## Numbers in bytes: little-endian throughout (R5) -/

/-- The unsigned number in bytes, byte 0 least significant. -/
def leNat : List Byte → Nat
  | [] => 0
  | b :: bs => b.toNat + 256 * leNat bs

/-- `n` bytes of a number, byte 0 least significant. -/
def leBytes : Nat → Nat → List Byte
  | 0, _ => []
  | n + 1, v => BitVec.ofNat 8 v :: leBytes n (v / 256)

def mreadNat (m : Mem) (a n : Nat) : Nat := leNat (mread m a n)
def mwriteNat (m : Mem) (a n v : Nat) : Mem := mwrite m a (leBytes n v)

/-- Bits `hi` to `lo` of a number. -/
def bits (v hi lo : Nat) : Nat := v / 2 ^ lo % 2 ^ (hi - lo + 1)
/-- Bit `i` of a number. -/
def bit (v i : Nat) : Nat := v / 2 ^ i % 2
/-- A truth value as a bit. -/
def b2n (b : Bool) : Nat := if b then 1 else 0

/-- A 64-byte line as bytes, and back. -/
def vregBytes (v : VReg) : List Byte := leBytes 64 v.toNat
def bytesVReg (bs : List Byte) : VReg := BitVec.ofNat 512 (leNat bs)

/-- Lane `i` of `w` bits. -/
def lane (v : VReg) (w i : Nat) : Nat := v.toNat / 2 ^ (w * i) % 2 ^ w

/-- A vector register from lanes of `w` bits, lane 0 first. -/
def ofLanes (w : Nat) (ls : List Nat) : VReg :=
  BitVec.ofNat 512 (ls.foldr (fun l acc => l % 2 ^ w + 2 ^ w * acc) 0)

/-- The two's complement value of `n` bits. -/
def sInt (n v : Nat) : Int := if v % 2 ^ n < 2 ^ (n - 1) then (v % 2 ^ n : Int) else (v % 2 ^ n : Int) - 2 ^ n
/-- The low `n` bits of an integer. -/
def ofInt (n : Nat) (i : Int) : Nat := (i % (2 ^ n : Int)).toNat

/-- Replaces the first element that meets `p`. -/
def replaceFirst {α : Type} (p : α → Bool) (f : α → α) : List α → List α
  | [] => []
  | x :: xs => if p x then f x :: xs else x :: replaceFirst p f xs

/-- Removes the first element that meets `p`. -/
def removeFirst {α : Type} (p : α → Bool) : List α → List α
  | [] => []
  | x :: xs => if p x then xs else x :: removeFirst p xs

/-- Sorted insertion of a number without repeats. -/
def insertNat (n : Nat) : List Nat → List Nat
  | [] => [n]
  | x :: xs => if n < x then n :: x :: xs else if n = x then x :: xs else x :: insertNat n xs

/-- Insertion sort by a key, stable. -/
def insertBy {α : Type} (key : α → Nat) (a : α) : List α → List α
  | [] => [a]
  | x :: xs => if key a ≤ key x then a :: x :: xs else x :: insertBy key a xs
def sortBy {α : Type} (key : α → Nat) : List α → List α
  | [] => []
  | x :: xs => insertBy key x (sortBy key xs)

end Sys2Proof.Machine
end

