-- ==== Sys2Proof/Machine/Float.lean ====
section
/-!
DEFINITION. Floating-point numbers as exact dyadic values: decoding a format, exact sums and products, and one rounding to
nearest-even back into a format (R52, R75, R79, R176).
-/

namespace Sys2Proof.Machine

/-- A floating-point format: exponent bits, fraction bits, bias, and whether the top exponent holds infinity and NaN. Formats
without it hold numbers there, with `nanCode` the one magnitude that is NaN (zero where there is none). -/
structure Fmt where
  eb : Nat
  mb : Nat
  bias : Nat
  ieee : Bool := true
  nanCode : Nat := 0
  deriving DecidableEq, Repr

def fp64 : Fmt := { eb := 11, mb := 52, bias := 1023 }
def fp32 : Fmt := { eb := 8, mb := 23, bias := 127 }
def bf16 : Fmt := { eb := 8, mb := 7, bias := 127 }
def fp16 : Fmt := { eb := 5, mb := 10, bias := 15 }
def e5m2 : Fmt := { eb := 5, mb := 2, bias := 15 }
def e4m3 : Fmt := { eb := 4, mb := 3, bias := 7, ieee := false, nanCode := 0x7F }
def e2m1 : Fmt := { eb := 2, mb := 1, bias := 1, ieee := false }

/-- A value: NaN, an infinity, or (−1)^neg · m · 2^e. -/
inductive Fp where
  | nan
  | inf (neg : Bool)
  | fin (neg : Bool) (m : Nat) (e : Int)
  deriving DecidableEq, Repr

/-- Total width of a format. -/
def Fmt.width (f : Fmt) : Nat := 1 + f.eb + f.mb

/-- The magnitude code of infinity: the first code past the largest finite number. -/
def Fmt.infCode (f : Fmt) : Nat :=
  if f.ieee then (2 ^ f.eb - 1) * 2 ^ f.mb else if f.nanCode = 0 then 2 ^ (f.eb + f.mb) else f.nanCode

/-- The canonical quiet NaN (R52). -/
def Fmt.nan (f : Fmt) : Nat := if f.ieee then (2 ^ f.eb - 1) * 2 ^ f.mb + 2 ^ (f.mb - 1) else f.nanCode

/-- The value a bit pattern holds. -/
def Fmt.decode (f : Fmt) (w : Nat) : Fp :=
  let neg := bit w (f.eb + f.mb) == 1
  let mag := w % 2 ^ (f.eb + f.mb)
  let ex := mag / 2 ^ f.mb
  let fr := mag % 2 ^ f.mb
  if f.ieee && ex == 2 ^ f.eb - 1 then (if fr = 0 then .inf neg else .nan)
  else if !f.ieee && f.nanCode != 0 && mag == f.nanCode then .nan
  else if ex = 0 then .fin neg fr (1 - (f.bias : Int) - f.mb)
  else .fin neg (2 ^ f.mb + fr) ((ex : Int) - f.bias - f.mb)

/-- m / 2^q rounded to nearest, ties to even. -/
def shiftRne (m q : Nat) : Nat :=
  let t := m / 2 ^ q
  let r := m % 2 ^ q
  if q = 0 then m
  else if 2 ^ (q - 1) < r || (r == 2 ^ (q - 1) && t % 2 == 1) then t + 1 else t

/-- m·2^e rounded to nearest-even as a magnitude code; `none` where it overflows the format's finite numbers. -/
def Fmt.roundMag (f : Fmt) (m : Nat) (e : Int) : Option Nat :=
  if m = 0 then some 0
  else
    let top := e + (Nat.log2 m : Int)
    let emin : Int := 1 - f.bias
    let lsb : Int := (if top < emin then emin else top) - f.mb
    let r := if lsb ≤ e then m * 2 ^ (e - lsb).toNat else shiftRne m (lsb - e).toNat
    let code : Nat := if top < emin then r else ((top + f.bias).toNat * 2 ^ f.mb + r) - 2 ^ f.mb
    if f.infCode ≤ code then none else some code

/-- The bit pattern of a value, rounded to nearest-even; an overflow gives infinity where the format has one, else its largest
number. -/
def Fmt.encode (f : Fmt) : Fp → Nat
  | .nan => f.nan
  | .inf neg => b2n neg * 2 ^ (f.eb + f.mb) + (if f.ieee then f.infCode else f.infCode - 1)
  | .fin neg m e =>
    b2n neg * 2 ^ (f.eb + f.mb) + (f.roundMag m e).getD (if f.ieee then f.infCode else f.infCode - 1)

/-- The signed integer m·2^(e − lo) of a finite value, for a common exponent lo no greater than e. -/
def Fp.scaled (neg : Bool) (m : Nat) (e lo : Int) : Int :=
  let v : Int := (m * 2 ^ (e - lo).toNat : Nat)
  if neg then -v else v

def Fp.ofScaled (v : Int) (lo : Int) (zeroNeg : Bool) : Fp :=
  if v = 0 then .fin zeroNeg 0 lo else .fin (decide (v < 0)) v.natAbs lo

/-- Exact sum. A zero sum of opposite signs is +0, of two negative zeros −0. -/
def Fp.add : Fp → Fp → Fp
  | .nan, _ => .nan
  | _, .nan => .nan
  | .inf a, .inf b => if a == b then .inf a else .nan
  | .inf a, _ => .inf a
  | _, .inf b => .inf b
  | .fin a m e, .fin b n g =>
    let lo := min e g
    Fp.ofScaled (Fp.scaled a m e lo + Fp.scaled b n g lo) lo (a && b)

/-- Exact product. -/
def Fp.mul : Fp → Fp → Fp
  | .nan, _ => .nan
  | _, .nan => .nan
  | .inf a, .inf b => .inf (a != b)
  | .inf a, .fin b n _ => if n = 0 then .nan else .inf (a != b)
  | .fin a m _, .inf b => if m = 0 then .nan else .inf (a != b)
  | .fin a m e, .fin b n g => .fin (a != b) (m * n) (e + g)

def Fp.neg : Fp → Fp
  | .nan => .nan
  | .inf a => .inf (!a)
  | .fin a m e => .fin (!a) m e

def Fp.isNan : Fp → Bool
  | .nan => true
  | _ => false

/-- a < b for values that are not NaN. -/
def Fp.lt : Fp → Fp → Bool
  | .nan, _ => false
  | _, .nan => false
  | .inf a, .inf b => a && !b
  | .inf a, _ => a
  | _, .inf b => !b
  | .fin a m e, .fin b n g =>
    let lo := min e g
    decide (Fp.scaled a m e lo < Fp.scaled b n g lo)

def Fp.isZero : Fp → Bool
  | .fin _ 0 _ => true
  | _ => false

/-- The value of a signed integer. -/
def Fp.ofInt (i : Int) : Fp := .fin (decide (i < 0)) i.natAbs 0

/-- The integer a finite value is, where it is one. -/
def Fp.exactInt : Fp → Option Int
  | .fin a m e =>
    if 0 ≤ e then some (Fp.scaled a m e 0)
    else if m % 2 ^ (-e).toNat = 0 then some (if a then -(m / 2 ^ (-e).toNat : Nat) else (m / 2 ^ (-e).toNat : Nat))
    else none
  | _ => none

end Sys2Proof.Machine
end

