-- ==== Sys2Proof/Config.lean ====
section
/-!
DEFINITION. What the spec leaves open or fixes per part, as constants with no body: nothing in Lean can evaluate one, so a
theorem about the model holds whatever their values are. Each is named in a log entry under notes/assumptions.
-/

namespace Sys2Proof.Config

/-! ## Values the spec leaves free -/

/-- A free value, by the counter `State.freeCtr` that numbers the takings: BT_PHASE and PHASE (R38, R53), CYCLE (R53) and the
other values the spec leaves open. -/
opaque freeBits : Nat → Nat
/-- A bit the random-bit generator delivers (R364), by the number of the taking. -/
opaque randomBits : Nat → Nat
/-- The modelled power P of a beat in W, by the number of the taking (R325: the sum is known only to the power controller). -/
opaque modelledPower : Nat → Nat

/-! ## What Harnudel fixes per part (R386, R384, R383) -/

/-- Manufacturer identity of the IDCODE register. -/
opaque idcodeManuf : BitVec 11
/-- IANA enterprise number, the low 17 bits that MG_PEN holds. -/
opaque pen : BitVec 17
/-- MIPI manufacturer ID. -/
opaque mipiId : BitVec 15
/-- The two SHA-384 digests in the metal layers: of Harnudel's Ed25519 key and of its ML-DSA-65 key (R354). -/
opaque metalEd : BitVec 384
opaque metalMldsa : BitVec 384
/-- Where the forager allocates a request's token log and home-side page map, by handle, and the page lists of a prefix entry, by
index (R151, R148: allocated by the device, the place not stated). -/
opaque tokenLogAt : BitVec 64 → BitVec 48
opaque homeMapAt : BitVec 64 → BitVec 48
opaque pfxListAt : Nat → BitVec 48
/-- What JOIN leaves unsaid of the descriptor that a group's member makes, by handle: its context, and where its page map, token buffer
and sampling block lie (R142, R149, R150: JOIN carries no payload). -/
opaque memberContext : BitVec 64 → BitVec 12
opaque memberMapAt : BitVec 64 → BitVec 48
opaque memberBufferAt : BitVec 64 → BitVec 48
opaque memberSampleAt : BitVec 64 → BitVec 48
/-- Bytes 32 to 47 of a forager message's header: R144 names the arguments of a type and gives them no places (R143). -/
opaque messageArgs : Nat → List Nat → BitVec 128
/-- The bytes after a forager message's header: R144 names what a payload holds and lays nothing out (R143, R144). -/
opaque messagePayload : FBody → List (BitVec 8)
/-- The bytes of a REPLY's and a LINK_EVENT's body, by kind and values: R268 names the values and lays nothing out. -/
opaque waggleBody : Nat → List Nat → List (BitVec 8)
/-- The five octets after 0x02 of the MAC address formed from bits [39:0] of the identity: their order is not stated (R375). -/
opaque macTail : BitVec 40 → BitVec 40

/-! ## Algorithms the model keeps uninterpreted -/

/-- Whether an Ed25519 signature verifies: public key, message, signature (R356). -/
opaque ed25519Ok : List (BitVec 8) → List (BitVec 8) → List (BitVec 8) → Bool
/-- Whether an ML-DSA-65 signature verifies: public key, message, signature (R356). -/
opaque mldsaOk : List (BitVec 8) → List (BitVec 8) → List (BitVec 8) → Bool
/-- A signature by the device's identity keys (R363): key seed, message. -/
opaque ed25519Sign : List (BitVec 8) → List (BitVec 8) → List (BitVec 8)
opaque mldsaSign : List (BitVec 8) → List (BitVec 8) → List (BitVec 8)
/-- `idkeys`, the SHA-384 of the two public keys that the key generation of R362 makes from its two seeds. -/
opaque keyDigest : List (BitVec 8) → List (BitVec 8) → BitVec 384
/-- XTS-AES-256 encryption of a data unit: key, tweak, plaintext (R365). -/
opaque xtsSeal : BitVec 512 → BitVec 128 → List (BitVec 8) → List (BitVec 8)
/-- AES-256-GCM encryption with its tag: key, nonce, additional data, plaintext (R368). -/
opaque gcmSeal : BitVec 256 → List (BitVec 8) → List (BitVec 8) → List (BitVec 8) → List (BitVec 8)
/-- AES-256-GCM opening: key, nonce, additional data, ciphertext, tag (R369). -/
opaque gcmOpen : BitVec 256 → List (BitVec 8) → List (BitVec 8) → List (BitVec 8) → List (BitVec 8) → Option (List (BitVec 8))

end Sys2Proof.Config
end

