-- ==== Sys2Proof/Machine/Crypto.lean ====
section
/-!
DEFINITION. Checks and digests by the published algorithms the spec names: CRC-32C (R101, R252), the CRC-16 of the packet header
(R252), SipHash-2-4 (R158), SHA-384 and HMAC with it (R357, R376). PRESUMED where the spec gives only the algorithm's name.
-/

namespace Sys2Proof.Machine

/-! ## Cyclic redundancy checks -/

/-- One bit of a reflected 32-bit CRC with polynomial `poly`. -/
def crc32Bit (poly c : BitVec 32) : BitVec 32 := if c.getLsbD 0 then (c >>> 1) ^^^ poly else c >>> 1

/-- One byte of CRC-32C (reflected polynomial 0x82F63B78). -/
def crc32cByte (c : BitVec 32) (b : Byte) : BitVec 32 :=
  (List.range 8).foldl (fun c _ => crc32Bit 0x82F63B78 c) (c ^^^ b.setWidth 32)

/-- CRC-32C of bytes: initial and final XOR all ones. -/
def crc32c (bs : List Byte) : Word := bs.foldl crc32cByte 0xFFFFFFFF ^^^ 0xFFFFFFFF

/-- One byte of the 16-bit CRC with polynomial 0x1021, most significant bit first. -/
def crc16Byte (c : BitVec 16) (b : Byte) : BitVec 16 :=
  (List.range 8).foldl (fun c _ => if c.getLsbD 15 then (c <<< 1) ^^^ 0x1021 else c <<< 1) (c ^^^ (b.setWidth 16 <<< 8))

/-- CRC-16 of bytes from initial value 0xFFFF. -/
def crc16 (bs : List Byte) : Half := bs.foldl crc16Byte 0xFFFF

/-! ## SipHash-2-4 -/

structure Sip where
  v0 : BitVec 64
  v1 : BitVec 64
  v2 : BitVec 64
  v3 : BitVec 64

def sipRound (s : Sip) : Sip :=
  let a0 := s.v0 + s.v1
  let a1 := (s.v1.rotateLeft 13) ^^^ a0
  let a0' := a0.rotateLeft 32
  let a2 := s.v2 + s.v3
  let a3 := (s.v3.rotateLeft 16) ^^^ a2
  let b0 := a0' + a3
  let b3 := (a3.rotateLeft 21) ^^^ b0
  let b2 := a2 + a1
  let b1 := (a1.rotateLeft 17) ^^^ b2
  ⟨b0, b1, b2.rotateLeft 32, b3⟩

def sipWord (s : Sip) (m : BitVec 64) : Sip :=
  let t := sipRound (sipRound { s with v3 := s.v3 ^^^ m })
  { t with v0 := t.v0 ^^^ m }

/-- The 64-bit words of a message, the last one carrying the length in its top byte. -/
def sipWords : Nat → List Byte → List (BitVec 64)
  | 0, _ => []
  | n + 1, bs => BitVec.ofNat 64 (leNat (bs.take 8)) :: sipWords n (bs.drop 8)

/-- SipHash-2-4 of bytes under a 128-bit key. -/
def sipHash (key : BitVec 128) (bs : List Byte) : DWord :=
  let k0 : BitVec 64 := key.setWidth 64
  let k1 : BitVec 64 := (key >>> 64).setWidth 64
  let s0 : Sip := ⟨k0 ^^^ 0x736f6d6570736575, k1 ^^^ 0x646f72616e646f6d, k0 ^^^ 0x6c7967656e657261, k1 ^^^ 0x7465646279746573⟩
  let full := bs.length / 8
  let last := BitVec.ofNat 64 (leNat (bs.drop (8 * full)) + bs.length % 256 * 2 ^ 56)
  let s1 := sipWord ((sipWords full bs).foldl sipWord s0) last
  let s2 := (List.range 4).foldl (fun s _ => sipRound s) { s1 with v2 := s1.v2 ^^^ 0xFF }
  s2.v0 ^^^ s2.v1 ^^^ s2.v2 ^^^ s2.v3

/-! ## SHA-384 -/

/-- The first `n` primes from `k` upward, by trial division; `fuel` bounds the numbers tried. -/
def primesFrom : Nat → Nat → Nat → List Nat
  | 0, _, _ => []
  | fuel + 1, n, k =>
    if n = 0 then []
    else if (List.range (k - 2)).all fun i => k % (i + 2) != 0 then k :: primesFrom fuel (n - 1) (k + 1)
    else primesFrom fuel n (k + 1)

/-- The greatest number, built from bit `i` - 1 down over `r`, whose power of exponent `e` is at most `n`. -/
def rootBits (e n : Nat) : Nat → Nat → Nat
  | 0, r => r
  | i + 1, r => rootBits e n i (if (r + 2 ^ i) ^ e ≤ n then r + 2 ^ i else r)

/-- The first 64 bits of the fractional part of the `e`-th root of `p`. -/
def rootFraction (e p : Nat) : BitVec 64 := BitVec.ofNat 64 (rootBits e (p * 2 ^ (64 * e)) 69 0)

/-- The round constants: the fractions of the cube roots of the first 80 primes (FIPS 180-4). -/
def shaConstants : List (BitVec 64) := (primesFrom 410 80 2).map (rootFraction 3)

/-- The initial hash value of SHA-384: the fractions of the square roots of the ninth to sixteenth primes (FIPS 180-4). -/
def shaStart : List (BitVec 64) := ((primesFrom 60 16 2).drop 8).map (rootFraction 2)

/-- Big-endian 64-bit words of a 128-byte block. -/
def beWord (bs : List Byte) : BitVec 64 := BitVec.ofNat 64 (leNat bs.reverse)
def beWords : Nat → List Byte → List (BitVec 64)
  | 0, _ => []
  | n + 1, bs => beWord (bs.take 8) :: beWords n (bs.drop 8)
def beBytes (n v : Nat) : List Byte := (leBytes n v).reverse

/-- The next word of the message schedule, from the last sixteen words, newest first. -/
def shaNextW (w : List (BitVec 64)) : BitVec 64 :=
  let w15 := w.getD 14 0
  let w2 := w.getD 1 0
  let s0 := w15.rotateRight 1 ^^^ w15.rotateRight 8 ^^^ (w15 >>> 7)
  let s1 := w2.rotateRight 19 ^^^ w2.rotateRight 61 ^^^ (w2 >>> 6)
  w.getD 15 0 + s0 + w.getD 6 0 + s1

structure Sha where
  a : BitVec 64
  b : BitVec 64
  c : BitVec 64
  d : BitVec 64
  e : BitVec 64
  f : BitVec 64
  g : BitVec 64
  h : BitVec 64

def shaRound (s : Sha) (k w : BitVec 64) : Sha :=
  let s1 := s.e.rotateRight 14 ^^^ s.e.rotateRight 18 ^^^ s.e.rotateRight 41
  let ch := (s.e &&& s.f) ^^^ ((~~~ s.e) &&& s.g)
  let t1 := s.h + s1 + ch + k + w
  let s0 := s.a.rotateRight 28 ^^^ s.a.rotateRight 34 ^^^ s.a.rotateRight 39
  let maj := (s.a &&& s.b) ^^^ (s.a &&& s.c) ^^^ (s.b &&& s.c)
  ⟨t1 + (s0 + maj), s.a, s.b, s.c, s.d + t1, s.e, s.f, s.g⟩

/-- The rounds of one block: the schedule's last sixteen words, newest first, move along with the rounds. -/
def shaRounds : List (BitVec 64) → Nat → List (BitVec 64) → Sha → Sha
  | [], _, _, s => s
  | k :: ks, i, w, s =>
    if i < 16 then shaRounds ks (i + 1) w (shaRound s k (w.getD (15 - i) 0))
    else
      let x := shaNextW w
      shaRounds ks (i + 1) (x :: w.take 15) (shaRound s k x)

def shaBlock (h : List (BitVec 64)) (block : List Byte) : List (BitVec 64) :=
  let g := fun i => h.getD i 0
  let s := shaRounds shaConstants 0 (beWords 16 block).reverse ⟨g 0, g 1, g 2, g 3, g 4, g 5, g 6, g 7⟩
  [g 0 + s.a, g 1 + s.b, g 2 + s.c, g 3 + s.d, g 4 + s.e, g 5 + s.f, g 6 + s.g, g 7 + s.h]

def shaBlocks : Nat → List Byte → List (BitVec 64) → List (BitVec 64)
  | 0, _, h => h
  | n + 1, bs, h => shaBlocks n (bs.drop 128) (shaBlock h (bs.take 128))

/-- SHA-384 of bytes: 48 bytes. -/
def sha384 (bs : List Byte) : List Byte :=
  let padded := bs ++ [0x80] ++ List.replicate ((239 - bs.length % 128) % 128) 0 ++ beBytes 16 (8 * bs.length)
  ((shaBlocks (padded.length / 128) padded shaStart).take 6).flatMap fun w => beBytes 8 w.toNat

/-- HMAC with SHA-384. -/
def hmac384 (key msg : List Byte) : List Byte :=
  let k0 := if key.length > 128 then sha384 key else key
  let k := k0 ++ List.replicate (128 - k0.length) 0
  sha384 ((k.map (· ^^^ 0x5c)) ++ sha384 ((k.map (· ^^^ 0x36)) ++ msg))

/-- A digest or key as a number, first byte least significant. -/
def digest384 (bs : List Byte) : BitVec 384 := BitVec.ofNat 384 (leNat (sha384 bs))

end Sys2Proof.Machine
end

