-- ==== Sys2Proof/Machine/RegTable.lean ====
section
/-!
DEFINITION. The registers of the register space, from the register tables of the blocks (R38, R65, R89, R108, R136, R168, R196,
R224, R247, R275, R296, R317, R337, R353, R373, R389, R430): BAR0 offsets by name, and for each register which bits are
RW, SH and W1C and what it reads as after reset (R7, R425). The other bits are RO, WO or reserved.
-/

namespace Sys2Proof.Machine

/-- One register, or one array of registers. `dims` gives a stride and a count for each index, the outer first. -/
structure RegRow where
  base : Nat
  dims : List (Nat × Nat)
  rw : Nat
  sh : Nat
  w1c : Nat
  reset : Nat
  deriving DecidableEq, Repr

/-! ### Beat time (R38) -/

def rBtCtl : Nat := 0x0
def rBtCfg : Nat := 0x8
def rBtSeedLo : Nat := 0x10
def rBtSeedHi : Nat := 0x14
def rBtCommit : Nat := 0x18
def rBtStatus : Nat := 0x20
def rBtNowLo : Nat := 0x28
def rBtNowHi : Nat := 0x2c
def rBtPhase : Nat := 0x30
def rBtEdgeErr : Nat := 0x34
def rBtEvent : Nat := 0x38
def rBtErrCount : Nat := 0x3c
def rBtOriginLo : Nat := 0x40
def rBtOriginHi : Nat := 0x44
def rBtFrame : Nat := 0x48
def rBtMissCount : Nat := 0x50
def rBtMissLogLo : Nat := 0x58
def rBtMissLogHi : Nat := 0x5c

def regRows02 : List RegRow :=
  [⟨0x0, [], 0x1, 0x0, 0x0, 0x0⟩,
   ⟨0x8, [], 0x0, 0x1ff7f, 0x0, 0xa08⟩,
   ⟨0x10, [], 0x0, 0xffffffff, 0x0, 0x1⟩,
   ⟨0x14, [], 0x0, 0xffff, 0x0, 0x0⟩,
   ⟨0x18, [], 0x0, 0x0, 0x0, 0x0⟩,
   ⟨0x20, [], 0x0, 0x0, 0x0, 0xf00⟩,
   ⟨0x28, [], 0x0, 0x0, 0x0, 0x0⟩,
   ⟨0x2c, [], 0x0, 0x0, 0x0, 0x0⟩,
   ⟨0x30, [], 0x0, 0x0, 0x0, 0x0⟩,
   ⟨0x34, [], 0x0, 0x0, 0x0, 0x0⟩,
   ⟨0x38, [], 0x0, 0x0, 0x7f, 0x0⟩,
   ⟨0x3c, [], 0x0, 0x0, 0x0, 0x0⟩,
   ⟨0x40, [], 0x0, 0x0, 0x0, 0x0⟩,
   ⟨0x44, [], 0x0, 0x0, 0x0, 0x0⟩,
   ⟨0x48, [], 0x0, 0x0, 0x0, 0x0⟩,
   ⟨0x50, [], 0x0, 0x0, 0x0, 0x0⟩,
   ⟨0x58, [], 0x0, 0x0, 0x0, 0x0⟩,
   ⟨0x5c, [], 0x0, 0x0, 0x0, 0x0⟩]

/-! ### Cells (R65) -/

def rClCfg : Nat := 0x100000
def rClCommit : Nat := 0x100004
def rClFaultMap (n : Nat) : Nat := 0x100100 + 4 * n
def rClCellStatus (n : Nat) : Nat := 0x110000 + 256 * n
def rClWorkerLo (n : Nat) : Nat := 0x110004 + 256 * n
def rClWorkerHi (n : Nat) : Nat := 0x110008 + 256 * n
def rClFault (n : Nat) : Nat := 0x11000c + 256 * n
def rClFaultPc (n : Nat) : Nat := 0x110010 + 256 * n
def rClFaultAddr (n : Nat) : Nat := 0x110014 + 256 * n
def rClEvent (n : Nat) : Nat := 0x110018 + 256 * n
def rClMsgDrop (n : Nat) : Nat := 0x11001c + 256 * n
def rClEccCount (n : Nat) : Nat := 0x110020 + 256 * n

def regRows03 : List RegRow :=
  [⟨0x100000, [], 0x0, 0xf, 0x0, 0x4⟩,
   ⟨0x100004, [], 0x0, 0x0, 0x0, 0x0⟩,
   ⟨0x100100, [(4, 32)], 0x0, 0x0, 0x0, 0x0⟩,
   ⟨0x110000, [(256, 1024)], 0x0, 0x0, 0x0, 0x0⟩,
   ⟨0x110004, [(256, 1024)], 0x0, 0x0, 0x0, 0x0⟩,
   ⟨0x110008, [(256, 1024)], 0x0, 0x0, 0x0, 0x0⟩,
   ⟨0x11000c, [(256, 1024)], 0x0, 0x0, 0x80000000, 0x0⟩,
   ⟨0x110010, [(256, 1024)], 0x0, 0x0, 0x0, 0x0⟩,
   ⟨0x110014, [(256, 1024)], 0x0, 0x0, 0x0, 0x0⟩,
   ⟨0x110018, [(256, 1024)], 0x0, 0x0, 0xf, 0x0⟩,
   ⟨0x11001c, [(256, 1024)], 0x0, 0x0, 0x0, 0x0⟩,
   ⟨0x110020, [(256, 1024)], 0x0, 0x0, 0x0, 0x0⟩]

/-! ### Matrix engine (R89) -/

def rMxCfg : Nat := 0x200000
def rMxCommit : Nat := 0x200004
def rMxTransientTotal : Nat := 0x200008
def rMxFailMap (n : Nat) : Nat := 0x200100 + 4 * n
def rMxStatus (n : Nat) : Nat := 0x210000 + 64 * n
def rMxCheckCount (n : Nat) : Nat := 0x210004 + 64 * n
def rMxEvent (n : Nat) : Nat := 0x210008 + 64 * n
def rMxFailInfo (n : Nat) : Nat := 0x21000c + 64 * n
def rMxBusy (n : Nat) : Nat := 0x210010 + 64 * n

def regRows04 : List RegRow :=
  [⟨0x200000, [], 0x0, 0x107, 0x0, 0x0⟩,
   ⟨0x200004, [], 0x0, 0x0, 0x0, 0x0⟩,
   ⟨0x200008, [], 0x0, 0x0, 0x0, 0x0⟩,
   ⟨0x200100, [(4, 32)], 0x0, 0x0, 0x0, 0x0⟩,
   ⟨0x210000, [(64, 1024)], 0x0, 0x0, 0x0, 0x0⟩,
   ⟨0x210004, [(64, 1024)], 0x0, 0x0, 0x0, 0x0⟩,
   ⟨0x210008, [(64, 1024)], 0x0, 0x0, 0x1f, 0x0⟩,
   ⟨0x21000c, [(64, 1024)], 0x0, 0x0, 0x0, 0x0⟩,
   ⟨0x210010, [(64, 1024)], 0x0, 0x0, 0x0, 0x0⟩]

/-! ### Prism (R108) -/

def rPzDecodeTotal : Nat := 0x300000
def rPzErrMap (n : Nat) : Nat := 0x300100 + 4 * n
def rPzSlotVer (n k : Nat) : Nat := 0x310000 + 64 * n + 8 * k
def rPzSlotFmt (n k : Nat) : Nat := 0x310004 + 64 * n + 8 * k
def rPzErr (n : Nat) : Nat := 0x310020 + 64 * n
def rPzErrAddr (n : Nat) : Nat := 0x310024 + 64 * n
def rPzErrVer (n : Nat) : Nat := 0x310028 + 64 * n
def rPzErrIndex (n : Nat) : Nat := 0x31002c + 64 * n
def rPzEvent (n : Nat) : Nat := 0x310030 + 64 * n
def rPzCount (n : Nat) : Nat := 0x310034 + 64 * n
def rPzCodes (n : Nat) : Nat := 0x310038 + 64 * n

def regRows05 : List RegRow :=
  [⟨0x300000, [], 0x0, 0x0, 0x0, 0x0⟩,
   ⟨0x300100, [(4, 32)], 0x0, 0x0, 0x0, 0x0⟩,
   ⟨0x310000, [(64, 1024), (8, 4)], 0x0, 0x0, 0x0, 0x0⟩,
   ⟨0x310004, [(64, 1024), (8, 4)], 0x0, 0x0, 0x0, 0x0⟩,
   ⟨0x310020, [(64, 1024)], 0x0, 0x0, 0x80000000, 0x0⟩,
   ⟨0x310024, [(64, 1024)], 0x0, 0x0, 0x0, 0x0⟩,
   ⟨0x310028, [(64, 1024)], 0x0, 0x0, 0x0, 0x0⟩,
   ⟨0x31002c, [(64, 1024)], 0x0, 0x0, 0x0, 0x0⟩,
   ⟨0x310030, [(64, 1024)], 0x0, 0x0, 0x1f, 0x0⟩,
   ⟨0x310034, [(64, 1024)], 0x0, 0x0, 0x0, 0x0⟩,
   ⟨0x310038, [(64, 1024)], 0x0, 0x0, 0x0, 0x0⟩]

/-! ### Attention cache (R136) -/

def rKvCfg : Nat := 0x400000
def rKvCommit : Nat := 0x400004
def rKvPtBaseLo : Nat := 0x400008
def rKvPtBaseHi : Nat := 0x40000c
def rKvPtCount : Nat := 0x400010
def rKvSumBaseLo : Nat := 0x400018
def rKvSumBaseHi : Nat := 0x40001c
def rKvPoolBaseLo : Nat := 0x400020
def rKvPoolBaseHi : Nat := 0x400024
def rKvPoolTiles : Nat := 0x400028
def rKvHbmLow : Nat := 0x400030
def rKvHbmHigh : Nat := 0x400034
def rKvDdrLow : Nat := 0x400038
def rKvDdrHigh : Nat := 0x40003c
def rKvFreeHbm : Nat := 0x400040
def rKvFreeDdr : Nat := 0x400044
def rKvPages : Nat := 0x400048
def rKvEvent : Nat := 0x400050
def rKvCowCount : Nat := 0x400054
def rKvSummaryCount : Nat := 0x400058
def rKvSkipCount : Nat := 0x40005c
def rKvSpillCount : Nat := 0x400060
def rKvPrefetchCount : Nat := 0x400064
def rKvErr : Nat := 0x400070
def rKvErrPage : Nat := 0x400074

def regRows06a : List RegRow :=
  [⟨0x400000, [], 0x0, 0xfff01, 0x0, 0x20001⟩,
   ⟨0x400004, [], 0x0, 0x0, 0x0, 0x0⟩,
   ⟨0x400008, [], 0x0, 0xffffffff, 0x0, 0x0⟩,
   ⟨0x40000c, [], 0x0, 0xffff, 0x0, 0x0⟩,
   ⟨0x400010, [], 0x0, 0xffffffff, 0x0, 0x0⟩,
   ⟨0x400018, [], 0x0, 0xffffffff, 0x0, 0x0⟩,
   ⟨0x40001c, [], 0x0, 0xffff, 0x0, 0x0⟩,
   ⟨0x400020, [], 0x0, 0xffffffff, 0x0, 0x0⟩,
   ⟨0x400024, [], 0x0, 0xffff, 0x0, 0x0⟩,
   ⟨0x400028, [], 0x0, 0xffffffff, 0x0, 0x0⟩,
   ⟨0x400030, [], 0x0, 0xffffffff, 0x0, 0x0⟩,
   ⟨0x400034, [], 0x0, 0xffffffff, 0x0, 0x0⟩,
   ⟨0x400038, [], 0x0, 0xffffffff, 0x0, 0x0⟩,
   ⟨0x40003c, [], 0x0, 0xffffffff, 0x0, 0x0⟩,
   ⟨0x400040, [], 0x0, 0x0, 0x0, 0x0⟩,
   ⟨0x400044, [], 0x0, 0x0, 0x0, 0x0⟩,
   ⟨0x400048, [], 0x0, 0x0, 0x0, 0x0⟩,
   ⟨0x400050, [], 0x0, 0x0, 0x7f, 0x0⟩,
   ⟨0x400054, [], 0x0, 0x0, 0x0, 0x0⟩,
   ⟨0x400058, [], 0x0, 0x0, 0x0, 0x0⟩]

def regRows06b : List RegRow :=
  [⟨0x40005c, [], 0x0, 0x0, 0x0, 0x0⟩,
   ⟨0x400060, [], 0x0, 0x0, 0x0, 0x0⟩,
   ⟨0x400064, [], 0x0, 0x0, 0x0, 0x0⟩,
   ⟨0x400070, [], 0x0, 0x0, 0x80000000, 0x0⟩,
   ⟨0x400074, [], 0x0, 0x0, 0x0, 0x0⟩]

/-! ### Forager (R168) -/

def rFgCfg : Nat := 0x500000
def rFgCommit : Nat := 0x500004
def rFgDescBaseLo : Nat := 0x500008
def rFgDescBaseHi : Nat := 0x50000c
def rFgDescCount : Nat := 0x500010
def rFgHomeBaseLo : Nat := 0x500018
def rFgHomeBaseHi : Nat := 0x50001c
def rFgHomeCount : Nat := 0x500020
def rFgPfxBaseLo : Nat := 0x500028
def rFgPfxBaseHi : Nat := 0x50002c
def rFgPfxCount : Nat := 0x500030
def rFgRoleEpoch : Nat := 0x500038
def rFgRequests : Nat := 0x500040
def rFgRecords : Nat := 0x500044
def rFgPfxUsed : Nat := 0x500048
def rFgEvent : Nat := 0x500050
def rFgHandoffCount : Nat := 0x500054
def rFgExpireCount : Nat := 0x500058
def rFgRefuseCount : Nat := 0x50005c
def rFgErr : Nat := 0x500060
def rFgErrHandleLo : Nat := 0x500064
def rFgErrHandleHi : Nat := 0x500068

def regRows07a : List RegRow :=
  [⟨0x500000, [], 0x0, 0xf0fff, 0x0, 0x20040⟩,
   ⟨0x500004, [], 0x0, 0x0, 0x0, 0x0⟩,
   ⟨0x500008, [], 0x0, 0xffffffff, 0x0, 0x0⟩,
   ⟨0x50000c, [], 0x0, 0xffff, 0x0, 0x0⟩,
   ⟨0x500010, [], 0x0, 0xffffffff, 0x0, 0x0⟩,
   ⟨0x500018, [], 0x0, 0xffffffff, 0x0, 0x0⟩,
   ⟨0x50001c, [], 0x0, 0xffff, 0x0, 0x0⟩,
   ⟨0x500020, [], 0x0, 0xffffffff, 0x0, 0x0⟩,
   ⟨0x500028, [], 0x0, 0xffffffff, 0x0, 0x0⟩,
   ⟨0x50002c, [], 0x0, 0xffff, 0x0, 0x0⟩,
   ⟨0x500030, [], 0x0, 0xffffffff, 0x0, 0x0⟩,
   ⟨0x500038, [], 0x0, 0x0, 0x0, 0x0⟩,
   ⟨0x500040, [], 0x0, 0x0, 0x0, 0x0⟩,
   ⟨0x500044, [], 0x0, 0x0, 0x0, 0x0⟩,
   ⟨0x500048, [], 0x0, 0x0, 0x0, 0x0⟩,
   ⟨0x500050, [], 0x0, 0x0, 0xff, 0x0⟩,
   ⟨0x500054, [], 0x0, 0x0, 0x0, 0x0⟩,
   ⟨0x500058, [], 0x0, 0x0, 0x0, 0x0⟩,
   ⟨0x50005c, [], 0x0, 0x0, 0x0, 0x0⟩,
   ⟨0x500060, [], 0x0, 0x0, 0x80000000, 0x0⟩]

def regRows07b : List RegRow :=
  [⟨0x500064, [], 0x0, 0x0, 0x0, 0x0⟩,
   ⟨0x500068, [], 0x0, 0x0, 0x0, 0x0⟩]

/-! ### Lens (R196) -/

def rLnCfg : Nat := 0x600000
def rLnCommit : Nat := 0x600004
def rLnShadowBaseLo : Nat := 0x600008
def rLnShadowBaseHi : Nat := 0x60000c
def rLnModel : Nat := 0x600010
def rLnReqPortLo : Nat := 0x600014
def rLnReqPortHi : Nat := 0x600018
def rLnSlot (n : Nat) : Nat := 0x600020 + 8 * n
def rLnSlotRef (n : Nat) : Nat := 0x600024 + 8 * n
def rLnBankOnLo : Nat := 0x600060
def rLnBankOnHi : Nat := 0x600064
def rLnBankFailLo : Nat := 0x600068
def rLnBankFailHi : Nat := 0x60006c
def rLnQueue : Nat := 0x600070
def rLnEvent : Nat := 0x600074
def rLnShadowCount : Nat := 0x600078
def rLnSamples : Nat := 0x600080
def rLnDrafts : Nat := 0x600084
def rLnAccepted : Nat := 0x600088
def rLnFallbacks : Nat := 0x60008c
def rLnErr : Nat := 0x600090
def rLnErrHandleLo : Nat := 0x600094
def rLnErrHandleHi : Nat := 0x600098

def regRows08a : List RegRow :=
  [⟨0x600000, [], 0x0, 0x1, 0x0, 0x1⟩,
   ⟨0x600004, [], 0x0, 0x0, 0x0, 0x0⟩,
   ⟨0x600008, [], 0x0, 0xffffffff, 0x0, 0x0⟩,
   ⟨0x60000c, [], 0x0, 0xffff, 0x0, 0x0⟩,
   ⟨0x600010, [], 0x0, 0x0, 0x0, 0x0⟩,
   ⟨0x600014, [], 0x0, 0x0, 0x0, 0x0⟩,
   ⟨0x600018, [], 0x0, 0x0, 0x0, 0x0⟩,
   ⟨0x600020, [(8, 8)], 0x0, 0x0, 0x0, 0x0⟩,
   ⟨0x600024, [(8, 8)], 0x0, 0x0, 0x0, 0x0⟩,
   ⟨0x600060, [], 0x0, 0x0, 0x0, 0x0⟩,
   ⟨0x600064, [], 0x0, 0x0, 0x0, 0x0⟩,
   ⟨0x600068, [], 0x0, 0x0, 0x0, 0x0⟩,
   ⟨0x60006c, [], 0x0, 0x0, 0x0, 0x0⟩,
   ⟨0x600070, [], 0x0, 0x0, 0x0, 0x0⟩,
   ⟨0x600074, [], 0x0, 0x0, 0x7f, 0x0⟩,
   ⟨0x600078, [], 0x0, 0x0, 0x0, 0x0⟩,
   ⟨0x600080, [], 0x0, 0x0, 0x0, 0x0⟩,
   ⟨0x600084, [], 0x0, 0x0, 0x0, 0x0⟩,
   ⟨0x600088, [], 0x0, 0x0, 0x0, 0x0⟩,
   ⟨0x60008c, [], 0x0, 0x0, 0x0, 0x0⟩]

def regRows08b : List RegRow :=
  [⟨0x600090, [], 0x0, 0x0, 0x80000000, 0x0⟩,
   ⟨0x600094, [], 0x0, 0x0, 0x0, 0x0⟩,
   ⟨0x600098, [], 0x0, 0x0, 0x0, 0x0⟩]

/-! ### Scheduler (R224) -/

def rSqCfg : Nat := 0x700000
def rSqCommit : Nat := 0x700004
def rSqSwapBaseLo : Nat := 0x700008
def rSqSwapBaseHi : Nat := 0x70000c
def rSqSwapTiles : Nat := 0x700010
def rSqContexts : Nat := 0x700014
def rSqMixed : Nat := 0x700018
def rSqEvent : Nat := 0x70001c
def rSqSwapCount : Nat := 0x700020
def rSqPreemptCount : Nat := 0x700024
def rSqAbortCount : Nat := 0x700028
def rSqErr : Nat := 0x70002c
def rSqRs (n : Nat) : Nat := 0x700100 + 4 * n
def rSqSem (n : Nat) : Nat := 0x700800 + 4 * n
def rSqEcoef (n : Nat) : Nat := 0x701800 + 4 * n
def rSqAcctLo (n k : Nat) : Nat := 0x710000 + 128 * n + 8 * k
def rSqAcctHi (n k : Nat) : Nat := 0x710004 + 128 * n + 8 * k

def regRows09 : List RegRow :=
  [⟨0x700000, [], 0x0, 0x1700ff, 0x0, 0x40⟩,
   ⟨0x700004, [], 0x0, 0x0, 0x0, 0x0⟩,
   ⟨0x700008, [], 0x0, 0xffffffff, 0x0, 0x0⟩,
   ⟨0x70000c, [], 0x0, 0xffff, 0x0, 0x0⟩,
   ⟨0x700010, [], 0x0, 0xffffffff, 0x0, 0x0⟩,
   ⟨0x700014, [], 0x0, 0x0, 0x0, 0x0⟩,
   ⟨0x700018, [], 0x0, 0x0, 0x0, 0x0⟩,
   ⟨0x70001c, [], 0x0, 0x0, 0x1f, 0x0⟩,
   ⟨0x700020, [], 0x0, 0x0, 0x0, 0x0⟩,
   ⟨0x700024, [], 0x0, 0x0, 0x0, 0x0⟩,
   ⟨0x700028, [], 0x0, 0x0, 0x0, 0x0⟩,
   ⟨0x70002c, [], 0x0, 0x0, 0x80000000, 0x0⟩,
   ⟨0x700100, [(4, 32)], 0x0, 0x0, 0x0, 0x0⟩,
   ⟨0x700800, [(4, 1024)], 0x0, 0x0, 0x0, 0x0⟩,
   ⟨0x701800, [(4, 14)], 0x0, 0x0, 0x0, 0x0⟩,
   ⟨0x710000, [(128, 256), (8, 12)], 0x0, 0x0, 0x0, 0x0⟩,
   ⟨0x710004, [(128, 256), (8, 12)], 0x0, 0x0, 0x0, 0x0⟩]

/-! ### Tiers (R247) -/

def rMtCfg : Nat := 0x800000
def rMtCommit : Nat := 0x800004
def rMtHbmLow : Nat := 0x800008
def rMtHbmHigh : Nat := 0x80000c
def rMtDdrLow : Nat := 0x800010
def rMtDdrHigh : Nat := 0x800014
def rMtNandCfg : Nat := 0x800018
def rMtRangeTiles : Nat := 0x800020
def rMtFreeHbm : Nat := 0x800024
def rMtFreeDdr : Nat := 0x800028
def rMtFreeNand : Nat := 0x80002c
def rMtDdrStatus : Nat := 0x800030
def rMtNandStatus : Nat := 0x800034
def rMtNandSpare : Nat := 0x800038
def rMtNandWear : Nat := 0x80003c
def rMtQueue : Nat := 0x800040
def rMtEvent : Nat := 0x800044
def rMtEccCount : Nat := 0x800048
def rMtMoved : Nat := 0x80004c
def rMtTileSel : Nat := 0x800050
def rMtTileInfo : Nat := 0x800054
def rMtWinLo (n : Nat) : Nat := 0x800100 + 8 * n
def rMtWinHi (n : Nat) : Nat := 0x800104 + 8 * n

def regRows10a : List RegRow :=
  [⟨0x800000, [], 0x0, 0x1, 0x0, 0x1⟩,
   ⟨0x800004, [], 0x0, 0x0, 0x0, 0x0⟩,
   ⟨0x800008, [], 0x0, 0xffffffff, 0x0, 0x8000⟩,
   ⟨0x80000c, [], 0x0, 0xffffffff, 0x0, 0x10000⟩,
   ⟨0x800010, [], 0x0, 0xffffffff, 0x0, 0x8000⟩,
   ⟨0x800014, [], 0x0, 0xffffffff, 0x0, 0x10000⟩,
   ⟨0x800018, [], 0x0, 0xfffff3f, 0x0, 0x2004008⟩,
   ⟨0x800020, [], 0x0, 0x0, 0x0, 0x0⟩,
   ⟨0x800024, [], 0x0, 0x0, 0x0, 0x0⟩,
   ⟨0x800028, [], 0x0, 0x0, 0x0, 0x0⟩,
   ⟨0x80002c, [], 0x0, 0x0, 0x0, 0x0⟩,
   ⟨0x800030, [], 0x0, 0x0, 0x0, 0x0⟩,
   ⟨0x800034, [], 0x0, 0x0, 0x0, 0x0⟩,
   ⟨0x800038, [], 0x0, 0x0, 0x0, 0x0⟩,
   ⟨0x80003c, [], 0x0, 0x0, 0x0, 0x0⟩,
   ⟨0x800040, [], 0x0, 0x0, 0x0, 0x0⟩,
   ⟨0x800044, [], 0x0, 0x0, 0xff, 0x0⟩,
   ⟨0x800048, [], 0x0, 0x0, 0x0, 0x0⟩,
   ⟨0x80004c, [], 0x0, 0x0, 0x0, 0x0⟩,
   ⟨0x800050, [], 0xffffffff, 0x0, 0x0, 0x0⟩]

def regRows10b : List RegRow :=
  [⟨0x800054, [], 0x0, 0x0, 0x0, 0x0⟩,
   ⟨0x800100, [(8, 256)], 0x0, 0xffffffff, 0x0, 0x0⟩,
   ⟨0x800104, [(8, 256)], 0x0, 0xffff, 0x0, 0x0⟩]

/-! ### Emgait (R275) -/

def rEgCfg : Nat := 0x900000
def rEgFlap : Nat := 0x900004
def rEgCommit : Nat := 0x900008
def rEgNode : Nat := 0x900010
def rEgFabricEpoch : Nat := 0x900014
def rEgRouteSel : Nat := 0x900018
def rEgRouteData : Nat := 0x90001c
def rEgEvent : Nat := 0x900020
def rEgReturnCount : Nat := 0x900024
def rEgDiscard : Nat := 0x900028
def rEgPortCtl (n : Nat) : Nat := 0x900100 + 64 * n
def rEgPortStatus (n : Nat) : Nat := 0x900104 + 64 * n
def rEgPortPeer (n : Nat) : Nat := 0x900108 + 64 * n
def rEgPortLink (n : Nat) : Nat := 0x90010c + 64 * n
def rEgPortFlaps (n : Nat) : Nat := 0x900110 + 64 * n
def rEgPortLost (n : Nat) : Nat := 0x900114 + 64 * n
def rEgLaneCorr (n k : Nat) : Nat := 0x900120 + 64 * n + 4 * k

def regRows11 : List RegRow :=
  [⟨0x900000, [], 0x0, 0x1fff00ff, 0x0, 0x1010000c⟩,
   ⟨0x900004, [], 0x0, 0xffffffff, 0x0, 0x10000400⟩,
   ⟨0x900008, [], 0x0, 0x0, 0x0, 0x0⟩,
   ⟨0x900010, [], 0x0, 0x0, 0x0, 0x0⟩,
   ⟨0x900014, [], 0x0, 0x0, 0x0, 0x0⟩,
   ⟨0x900018, [], 0x80073fff, 0x0, 0x0, 0x0⟩,
   ⟨0x90001c, [], 0x0, 0x0, 0x0, 0x0⟩,
   ⟨0x900020, [], 0x0, 0x0, 0xff, 0x0⟩,
   ⟨0x900024, [], 0x0, 0x0, 0x0, 0x0⟩,
   ⟨0x900028, [], 0x0, 0x0, 0x0, 0x0⟩,
   ⟨0x900100, [(64, 6)], 0x1, 0x0, 0x0, 0x1⟩,
   ⟨0x900104, [(64, 6)], 0x0, 0x0, 0x0, 0x0⟩,
   ⟨0x900108, [(64, 6)], 0x0, 0x0, 0x0, 0x0⟩,
   ⟨0x90010c, [(64, 6)], 0x0, 0x0, 0x0, 0x0⟩,
   ⟨0x900110, [(64, 6)], 0x0, 0x0, 0x0, 0x0⟩,
   ⟨0x900114, [(64, 6)], 0x0, 0x0, 0x0, 0x0⟩,
   ⟨0x900120, [(64, 6), (4, 4)], 0x0, 0x0, 0x0, 0x0⟩]

/-! ### Remote access (R296) -/

def rRaCfg : Nat := 0xa00000
def rRaCommit : Nat := 0xa00004
def rRaRegBaseLo : Nat := 0xa00008
def rRaRegBaseHi : Nat := 0xa0000c
def rRaRegCount : Nat := 0xa00010
def rRaSlotBaseLo : Nat := 0xa00018
def rRaSlotBaseHi : Nat := 0xa0001c
def rRaSlotCount : Nat := 0xa00020
def rRaFqBaseLo : Nat := 0xa00028
def rRaFqBaseHi : Nat := 0xa0002c
def rRaRegions : Nat := 0xa00030
def rRaOutstanding : Nat := 0xa00034
def rRaEvent : Nat := 0xa00038
def rRaRefuseCount : Nat := 0xa0003c
def rRaResendCount : Nat := 0xa00040
def rRaLostCount : Nat := 0xa00044
def rRaDownCount : Nat := 0xa00048
def rRaViol : Nat := 0xa00050
def rRaViolRegion : Nat := 0xa00054

def regRows12 : List RegRow :=
  [⟨0xa00000, [], 0x0, 0xfff, 0x0, 0x310⟩,
   ⟨0xa00004, [], 0x0, 0x0, 0x0, 0x0⟩,
   ⟨0xa00008, [], 0x0, 0xffffffff, 0x0, 0x0⟩,
   ⟨0xa0000c, [], 0x0, 0xffff, 0x0, 0x0⟩,
   ⟨0xa00010, [], 0x0, 0xffffffff, 0x0, 0x0⟩,
   ⟨0xa00018, [], 0x0, 0xffffffff, 0x0, 0x0⟩,
   ⟨0xa0001c, [], 0x0, 0xffff, 0x0, 0x0⟩,
   ⟨0xa00020, [], 0x0, 0xffffffff, 0x0, 0x0⟩,
   ⟨0xa00028, [], 0x0, 0xffffffff, 0x0, 0x0⟩,
   ⟨0xa0002c, [], 0x0, 0xffff, 0x0, 0x0⟩,
   ⟨0xa00030, [], 0x0, 0x0, 0x0, 0x0⟩,
   ⟨0xa00034, [], 0x0, 0x0, 0x0, 0x0⟩,
   ⟨0xa00038, [], 0x0, 0x0, 0x3f, 0x0⟩,
   ⟨0xa0003c, [], 0x0, 0x0, 0x0, 0x0⟩,
   ⟨0xa00040, [], 0x0, 0x0, 0x0, 0x0⟩,
   ⟨0xa00044, [], 0x0, 0x0, 0x0, 0x0⟩,
   ⟨0xa00048, [], 0x0, 0x0, 0x0, 0x0⟩,
   ⟨0xa00050, [], 0x0, 0x0, 0x80000000, 0x0⟩,
   ⟨0xa00054, [], 0x0, 0x0, 0x0, 0x0⟩]

/-! ### Host interface (R317) -/

def rHiStatus : Nat := 0xb00000
def rHiEvent : Nat := 0xb00004
def rHiCmdCount : Nat := 0xb00008
def rHiFnErrMap (n : Nat) : Nat := 0xb00010 + 4 * n
def rHiFnCommit (n : Nat) : Nat := 0xb10004 + 1024 * n
def rHiFnStatus (n : Nat) : Nat := 0xb10008 + 1024 * n
def rHiFnErr (n : Nat) : Nat := 0xb1000c + 1024 * n
def rHiCqBaseLo (n : Nat) : Nat := 0xb10010 + 1024 * n
def rHiCqBaseHi (n : Nat) : Nat := 0xb10014 + 1024 * n
def rHiCqCfg (n : Nat) : Nat := 0xb10018 + 1024 * n
def rHiCqTail (n : Nat) : Nat := 0xb1001c + 1024 * n
def rHiIrq (n : Nat) : Nat := 0xb10020 + 1024 * n
def rHiFnDropped (n : Nat) : Nat := 0xb10024 + 1024 * n
def rHiSqBaseLo (n k : Nat) : Nat := 0xb10100 + 1024 * n + 16 * k
def rHiSqBaseHi (n k : Nat) : Nat := 0xb10104 + 1024 * n + 16 * k
def rHiSqCfg (n k : Nat) : Nat := 0xb10108 + 1024 * n + 16 * k
def rHiSqHead (n k : Nat) : Nat := 0xb1010c + 1024 * n + 16 * k

def regRows13 : List RegRow :=
  [⟨0xb00000, [], 0x0, 0x0, 0x0, 0x0⟩,
   ⟨0xb00004, [], 0x0, 0x0, 0xf, 0x0⟩,
   ⟨0xb00008, [], 0x0, 0x0, 0x0, 0x0⟩,
   ⟨0xb00010, [(4, 8)], 0x0, 0x0, 0x0, 0x0⟩,
   ⟨0xb10004, [(1024, 256)], 0x0, 0x0, 0x0, 0x0⟩,
   ⟨0xb10008, [(1024, 256)], 0x0, 0x0, 0x0, 0x0⟩,
   ⟨0xb1000c, [(1024, 256)], 0x0, 0x0, 0x80000000, 0x0⟩,
   ⟨0xb10010, [(1024, 256)], 0x0, 0xffffffff, 0x0, 0x0⟩,
   ⟨0xb10014, [(1024, 256)], 0x0, 0xffffffff, 0x0, 0x0⟩,
   ⟨0xb10018, [(1024, 256)], 0x0, 0x801f0000, 0x0, 0x40000⟩,
   ⟨0xb1001c, [(1024, 256)], 0x0, 0x0, 0x0, 0x10000⟩,
   ⟨0xb10020, [(1024, 256)], 0x0, 0xffff, 0x0, 0x1⟩,
   ⟨0xb10024, [(1024, 256)], 0x0, 0x0, 0x0, 0x0⟩,
   ⟨0xb10100, [(1024, 256), (16, 16)], 0x0, 0xffffffff, 0x0, 0x0⟩,
   ⟨0xb10104, [(1024, 256), (16, 16)], 0x0, 0xffffffff, 0x0, 0x0⟩,
   ⟨0xb10108, [(1024, 256), (16, 16)], 0x0, 0x801f0000, 0x0, 0x40000⟩,
   ⟨0xb1010c, [(1024, 256), (16, 16)], 0x0, 0x0, 0x0, 0x0⟩]

/-! ### Power (R337) -/

def rPwCfg : Nat := 0xc00000
def rPwCommit : Nat := 0xc00004
def rPwDomainLo : Nat := 0xc00008
def rPwDomainHi : Nat := 0xc0000c
def rPwDomainStLo : Nat := 0xc00010
def rPwDomainStHi : Nat := 0xc00014
def rPwLimit : Nat := 0xc00018
def rPwAlloc : Nat := 0xc0001c
def rPwAllocEndLo : Nat := 0xc00020
def rPwAllocEndHi : Nat := 0xc00024
def rPwCap : Nat := 0xc00028
def rPwPower : Nat := 0xc0002c
def rPwPeak : Nat := 0xc00030
def rPwTemp : Nat := 0xc00034
def rPwTempSel : Nat := 0xc00038
def rPwTempData : Nat := 0xc0003c
def rPwAge : Nat := 0xc00040
def rPwVreqLo : Nat := 0xc00044
def rPwVreqHi : Nat := 0xc00048
def rPwWear : Nat := 0xc00050
def rPwWearBudget : Nat := 0xc00054
def rPwEvent : Nat := 0xc00060
def rPwHoldCount : Nat := 0xc00064
def rPwWeight (n : Nat) : Nat := 0xc00070 + 4 * n
def rPwRailV (n : Nat) : Nat := 0xc00100 + 8 * n
def rPwRailI (n : Nat) : Nat := 0xc00104 + 8 * n

def regRows14a : List RegRow :=
  [⟨0xc00000, [], 0x0, 0x1ff0001, 0x0, 0x1a00001⟩,
   ⟨0xc00004, [], 0x0, 0x0, 0x0, 0x0⟩,
   ⟨0xc00008, [], 0x0, 0xffffffff, 0x0, 0xffffffff⟩,
   ⟨0xc0000c, [], 0x0, 0x5ff0, 0x0, 0x3ffff⟩,
   ⟨0xc00010, [], 0x0, 0x0, 0x0, 0x0⟩,
   ⟨0xc00014, [], 0x0, 0x0, 0x0, 0x0⟩,
   ⟨0xc00018, [], 0x0, 0x0, 0x0, 0x320898⟩,
   ⟨0xc0001c, [], 0x0, 0x0, 0x0, 0x0⟩,
   ⟨0xc00020, [], 0x0, 0x0, 0x0, 0x0⟩,
   ⟨0xc00024, [], 0x0, 0x0, 0x0, 0x0⟩,
   ⟨0xc00028, [], 0x0, 0x0, 0x0, 0x0⟩,
   ⟨0xc0002c, [], 0x0, 0x0, 0x0, 0x0⟩,
   ⟨0xc00030, [], 0x0, 0x0, 0x0, 0x1388⟩,
   ⟨0xc00034, [], 0x0, 0x0, 0x0, 0x0⟩,
   ⟨0xc00038, [], 0x7f, 0x0, 0x0, 0x0⟩,
   ⟨0xc0003c, [], 0x0, 0x0, 0x0, 0x0⟩,
   ⟨0xc00040, [], 0x0, 0x0, 0x0, 0x0⟩,
   ⟨0xc00044, [], 0x0, 0x0, 0x0, 0x0⟩,
   ⟨0xc00048, [], 0x0, 0x0, 0x0, 0x0⟩,
   ⟨0xc00050, [], 0x0, 0x0, 0x0, 0x0⟩]

def regRows14b : List RegRow :=
  [⟨0xc00054, [], 0x0, 0x0, 0x0, 0x36ee80⟩,
   ⟨0xc00060, [], 0x0, 0x0, 0x1ff, 0x0⟩,
   ⟨0xc00064, [], 0x0, 0x0, 0x0, 0x0⟩,
   ⟨0xc00070, [(4, 8)], 0x0, 0x0, 0x0, 0x0⟩,
   ⟨0xc00100, [(8, 16)], 0x0, 0x0, 0x0, 0x0⟩,
   ⟨0xc00104, [(8, 16)], 0x0, 0x0, 0x0, 0x0⟩]

/-! ### Reliability (R353) -/

def rRlCfg : Nat := 0xd00000
def rRlCommit : Nat := 0xd00004
def rRlHealth : Nat := 0xd00008
def rRlExpel : Nat := 0xd0000c
def rRlEvent : Nat := 0xd00010
def rRlKatPtr : Nat := 0xd00014
def rRlKatCount : Nat := 0xd00018
def rRlKatSkip : Nat := 0xd0001c
def rRlKatAge : Nat := 0xd00020
def rRlStress : Nat := 0xd00024
def rRlLogSeq : Nat := 0xd00028
def rRlLogLost : Nat := 0xd0002c
def rRlCellFail (n : Nat) : Nat := 0xd00100 + 4 * n
def rRlLog (n k : Nat) : Nat := 0xd04000 + 64 * n + 4 * k

def regRows15 : List RegRow :=
  [⟨0xd00000, [], 0x0, 0xffff0001, 0x0, 0x4000001⟩,
   ⟨0xd00004, [], 0x0, 0x0, 0x0, 0x0⟩,
   ⟨0xd00008, [], 0x0, 0x0, 0x0, 0x0⟩,
   ⟨0xd0000c, [], 0x0, 0x0, 0x0, 0x0⟩,
   ⟨0xd00010, [], 0x0, 0x0, 0xff, 0x0⟩,
   ⟨0xd00014, [], 0x0, 0x0, 0x0, 0x0⟩,
   ⟨0xd00018, [], 0x0, 0x0, 0x0, 0x0⟩,
   ⟨0xd0001c, [], 0x0, 0x0, 0x0, 0x0⟩,
   ⟨0xd00020, [], 0x0, 0x0, 0x0, 0x0⟩,
   ⟨0xd00024, [], 0x0, 0x0, 0x0, 0x0⟩,
   ⟨0xd00028, [], 0x0, 0x0, 0x0, 0x0⟩,
   ⟨0xd0002c, [], 0x0, 0x0, 0x0, 0x0⟩,
   ⟨0xd00100, [(4, 32)], 0x0, 0x0, 0x0, 0x0⟩,
   ⟨0xd04000, [(64, 256), (4, 16)], 0x0, 0x0, 0x0, 0x0⟩]

/-! ### Security (R373) -/

def rScStatus : Nat := 0xe00000
def rScEvent : Nat := 0xe00004
def rScIdentLo : Nat := 0xe00008
def rScIdentHi : Nat := 0xe0000c
def rScVerifyCount : Nat := 0xe00010
def rScErr : Nat := 0xe00014
def rScGrantCtl : Nat := 0xe00018
def rScGrantStatus : Nat := 0xe0001c
def rScChallenge (n : Nat) : Nat := 0xe00040 + 4 * n
def rScMeas (n k : Nat) : Nat := 0xe00100 + 64 * n + 4 * k
def rScGrantBuf (n : Nat) : Nat := 0xe02000 + 4 * n

def regRows16 : List RegRow :=
  [⟨0xe00000, [], 0x0, 0x0, 0x0, 0x0⟩,
   ⟨0xe00004, [], 0x0, 0x0, 0x3f, 0x0⟩,
   ⟨0xe00008, [], 0x0, 0x0, 0x0, 0x0⟩,
   ⟨0xe0000c, [], 0x0, 0x0, 0x0, 0x0⟩,
   ⟨0xe00010, [], 0x0, 0x0, 0x0, 0x0⟩,
   ⟨0xe00014, [], 0x0, 0x0, 0x80000000, 0x0⟩,
   ⟨0xe00018, [], 0x3fff0000, 0x0, 0x0, 0x0⟩,
   ⟨0xe0001c, [], 0x0, 0x0, 0x0, 0x0⟩,
   ⟨0xe00040, [(4, 8)], 0x0, 0x0, 0x0, 0x0⟩,
   ⟨0xe00100, [(64, 8), (4, 12)], 0x0, 0x0, 0x0, 0x0⟩,
   ⟨0xe02000, [(4, 2048)], 0x0, 0x0, 0x0, 0x0⟩]

/-! ### Management (R389) -/

def rMgCfg : Nat := 0xf00000
def rMgCommit : Nat := 0xf00004
def rMgCollectorLo : Nat := 0xf00008
def rMgCollectorHi : Nat := 0xf0000c
def rMgMacLo : Nat := 0xf00010
def rMgMacHi : Nat := 0xf00014
def rMgBootLo : Nat := 0xf00018
def rMgBootHi : Nat := 0xf0001c
def rMgRxSeqLo : Nat := 0xf00020
def rMgRxSeqHi : Nat := 0xf00024
def rMgSentSeq : Nat := 0xf00028
def rMgStatus : Nat := 0xf0002c
def rMgEvent : Nat := 0xf00030
def rMgCount : Nat := 0xf00034
def rMgIdcode : Nat := 0xf00038
def rMgPen : Nat := 0xf0003c
def rMgTmxk (n : Nat) : Nat := 0xf00040 + 4 * n

def regRows17 : List RegRow :=
  [⟨0xf00000, [], 0x0, 0xffffff01, 0x0, 0x88b50a00⟩,
   ⟨0xf00004, [], 0x0, 0x0, 0x0, 0x0⟩,
   ⟨0xf00008, [], 0x0, 0xffffffff, 0x0, 0x0⟩,
   ⟨0xf0000c, [], 0x0, 0xffff, 0x0, 0x0⟩,
   ⟨0xf00010, [], 0x0, 0x0, 0x0, 0x0⟩,
   ⟨0xf00014, [], 0x0, 0x0, 0x0, 0x0⟩,
   ⟨0xf00018, [], 0x0, 0x0, 0x0, 0x0⟩,
   ⟨0xf0001c, [], 0x0, 0x0, 0x0, 0x0⟩,
   ⟨0xf00020, [], 0x0, 0x0, 0x0, 0x0⟩,
   ⟨0xf00024, [], 0x0, 0x0, 0x0, 0x0⟩,
   ⟨0xf00028, [], 0x0, 0x0, 0x0, 0x0⟩,
   ⟨0xf0002c, [], 0x0, 0x0, 0x0, 0x0⟩,
   ⟨0xf00030, [], 0x0, 0x0, 0x1f, 0x0⟩,
   ⟨0xf00034, [], 0x0, 0x0, 0x0, 0x0⟩,
   ⟨0xf00038, [], 0x0, 0x0, 0x0, 0x2720001⟩,
   ⟨0xf0003c, [], 0x0, 0x0, 0x0, 0x0⟩,
   ⟨0xf00040, [(4, 16)], 0xffff, 0x0, 0x0, 0x0⟩]

/-! ### Commit reports (R430) -/

def rHiCommitSt (n : Nat) : Nat := 0xb00030 + 8 * n
def rHiCommitReg (n : Nat) : Nat := 0xb00034 + 8 * n
def rHiFnCommitSt (n : Nat) : Nat := 0xb10000 + 1024 * n

def regRows20 : List RegRow :=
  [⟨0xb00030, [(8, 4)], 0x0, 0x0, 0x0, 0x0⟩,
   ⟨0xb00034, [(8, 4)], 0x0, 0x0, 0x0, 0x0⟩,
   ⟨0xb10000, [(1024, 256)], 0x0, 0x0, 0x0, 0x0⟩]

/-- The registers of each block, by block number (R425). -/
def blockRegs : Nat → List RegRow
  | 0 => regRows02
  | 1 => regRows03
  | 2 => regRows04
  | 3 => regRows05
  | 4 => regRows06a ++ regRows06b
  | 5 => regRows07a ++ regRows07b
  | 6 => regRows08a ++ regRows08b
  | 7 => regRows09
  | 8 => regRows10a ++ regRows10b
  | 9 => regRows11
  | 10 => regRows12
  | 11 => regRows13 ++ regRows20
  | 12 => regRows14a ++ regRows14b
  | 13 => regRows15
  | 14 => regRows16
  | 15 => regRows17
  | _ => []

/-- Whether `off` is a register of the row. -/
def RegRow.has (r : RegRow) (off : Nat) : Bool :=
  decide (r.base ≤ off) &&
    match r.dims with
    | [] => off == r.base
    | [(s, c)] => (off - r.base) % s == 0 && decide ((off - r.base) / s < c)
    | (s, c) :: (s', c') :: _ =>
      decide ((off - r.base) / s < c) && (off - r.base) % s % s' == 0 && decide ((off - r.base) % s / s' < c')

/-- The row of the register at BAR0 offset `off`, if one lies there (R426). -/
def regRow? (off : Nat) : Option RegRow := (blockRegs (off / 2 ^ 20)).find? fun r => r.has off

/-- What the register at `off` holds after reset (R7). -/
def regReset (off : Nat) : Nat := ((regRow? off).map fun r => r.reset).getD 0

end Sys2Proof.Machine
end

