-- ==== Sys2Proof/Machine/Status.lean ====
section
/-!
DEFINITION. The status codes of R431.
-/

namespace Sys2Proof.Machine

/-- ST_OK. -/
def stOk : Half := 0x0000
/-- ST_OK_DEGRADED. -/
def stOkDegraded : Half := 0x0001
/-- ST_OK_NOOP. -/
def stOkNoop : Half := 0x0002
/-- ST_BAD_OPCODE. -/
def stBadOpcode : Half := 0x0101
/-- ST_BAD_LENGTH. -/
def stBadLength : Half := 0x0102
/-- ST_BAD_FIELD. -/
def stBadField : Half := 0x0103
/-- ST_CFG_MISMATCH. -/
def stCfgMismatch : Half := 0x0104
/-- ST_HOST_FAULT. -/
def stHostFault : Half := 0x0105
/-- ST_NO_RESOURCE. -/
def stNoResource : Half := 0x0201
/-- ST_BUSY_REFERENCED. -/
def stBusyReferenced : Half := 0x0202
/-- ST_KEY_INVALID. -/
def stKeyInvalid : Half := 0x0301
/-- ST_KEY_REVOKED. -/
def stKeyRevoked : Half := 0x0302
/-- ST_BOUNDS. -/
def stBounds : Half := 0x0303
/-- ST_RIGHTS. -/
def stRights : Half := 0x0304
/-- ST_CLIENT_MISMATCH. -/
def stClientMismatch : Half := 0x0305
/-- ST_SIGNATURE. -/
def stSignature : Half := 0x0306
/-- ST_CERT_INVALID. -/
def stCertInvalid : Half := 0x0307
/-- ST_WRONG_DEVICE. -/
def stWrongDevice : Half := 0x0308
/-- ST_AUTH_FAILED. -/
def stAuthFailed : Half := 0x0309
/-- ST_NO_IDENTITY. -/
def stNoIdentity : Half := 0x030A
/-- ST_POISONED. -/
def stPoisoned : Half := 0x0401
/-- ST_DECODE_LONG. -/
def stDecodeLong : Half := 0x0402
/-- ST_DECODE_SHORT. -/
def stDecodeShort : Half := 0x0403
/-- ST_CHECK_MISMATCH. -/
def stCheckMismatch : Half := 0x0404
/-- ST_CODEBOOK_ABSENT. -/
def stCodebookAbsent : Half := 0x0405
/-- ST_CODE_RANGE. -/
def stCodeRange : Half := 0x0406
/-- ST_DESCRIPTOR_INVALID. -/
def stDescriptorInvalid : Half := 0x0407
/-- ST_LENS_MISMATCH. -/
def stLensMismatch : Half := 0x0408
/-- ST_LOGITS_INVALID. -/
def stLogitsInvalid : Half := 0x0409
/-- ST_GRAMMAR_ABSENT. -/
def stGrammarAbsent : Half := 0x040A
/-- ST_DEVICE_EXPELLED. -/
def stDeviceExpelled : Half := 0x040B
/-- ST_TARGET_LOST. -/
def stTargetLost : Half := 0x0501
/-- ST_LINK_DOWN. -/
def stLinkDown : Half := 0x0502
/-- ST_DUPLICATE_DROPPED. -/
def stDuplicateDropped : Half := 0x0503
/-- ST_STALE_GENERATION. -/
def stStaleGeneration : Half := 0x0504
/-- ST_NO_ROUTE. -/
def stNoRoute : Half := 0x0505
/-- ST_FABRIC_EPOCH. -/
def stFabricEpoch : Half := 0x0506
/-- ST_SLOT_BUSY. -/
def stSlotBusy : Half := 0x0507
/-- ST_NO_BUFFER. -/
def stNoBuffer : Half := 0x0508
/-- ST_ROLE_STALE. -/
def stRoleStale : Half := 0x0601
/-- ST_NOT_OWNER. -/
def stNotOwner : Half := 0x0602
/-- ST_OWNER_CONFLICT. -/
def stOwnerConflict : Half := 0x0603
/-- ST_REQUEST_LOST. -/
def stRequestLost : Half := 0x0604
/-- ST_LEASE_EXPIRED. -/
def stLeaseExpired : Half := 0x0605
/-- ST_HANDLE_IN_USE. -/
def stHandleInUse : Half := 0x0606
/-- ST_NOT_HOME. -/
def stNotHome : Half := 0x0607
/-- ST_WRONG_ROLE. -/
def stWrongRole : Half := 0x0608
/-- ST_DEADLINE_MISSED. -/
def stDeadlineMissed : Half := 0x0701
/-- ST_BEAT_LOST. -/
def stBeatLost : Half := 0x0702
/-- ST_BEAT_MISMATCH. -/
def stBeatMismatch : Half := 0x0703
/-- ST_BEAT_PASSED. -/
def stBeatPassed : Half := 0x0704
/-- ST_JOB_TORN_DOWN. -/
def stJobTornDown : Half := 0x0F01
/-- ST_CONTEXT_ABORTED. -/
def stContextAborted : Half := 0x0F02

end Sys2Proof.Machine
end

