-- ==== Sys2Proof/Machine/Ops.lean ====
section
/-!
DEFINITION. The operations every block shares: reading and setting register words, free and random values, what leaves the device,
event records with their coalescing (R350, R351), the health score and the health state (R346–R349).
-/

namespace Sys2Proof.Machine

/-! ## Register words (R7, R8) -/

/-- The word a register holds: what was last set, else its reset value. -/
def rget (s : State) (off : Nat) : Nat :=
  match tget s.regs off with
  | some w => w.toNat
  | none => regReset off

/-- Sets a register's word. -/
def rset (s : State) (off v : Nat) : State := { s with regs := tset s.regs off (BitVec.ofNat 32 v) }

/-- Field [hi:lo] of a register's word. -/
def rfld (s : State) (off hi lo : Nat) : Nat := bits (rget s off) hi lo

/-- Replaces field [hi:lo] of a word. -/
def putBits (w hi lo v : Nat) : Nat := w - bits w hi lo * 2 ^ lo + v % 2 ^ (hi - lo + 1) * 2 ^ lo

/-- Sets field [hi:lo] of a register. -/
def rput (s : State) (off hi lo v : Nat) : State := rset s off (putBits (rget s off) hi lo v)

/-- Adds to a saturating counter held in field [hi:lo]. -/
def satAdd (s : State) (off hi lo n : Nat) : State :=
  rput s off hi lo (min (rfld s off hi lo + n) (2 ^ (hi - lo + 1) - 1))

/-- Adds to a 32-bit counter that wraps to zero. -/
def wrapAdd (s : State) (off n : Nat) : State := rset s off ((rget s off + n) % 2 ^ 32)

/-- The committed word of a register with SH fields (R8). -/
def cget (s : State) (off : Nat) : Nat :=
  match tget s.committed off with
  | some w => w.toNat
  | none => regReset off

/-- Committed field [hi:lo]. -/
def cfld (s : State) (off hi lo : Nat) : Nat := bits (cget s off) hi lo

/-- A committed 48-bit base spread over a _LO and _HI pair (R432). -/
def cbase (s : State) (lo hi : Nat) : Nat := cget s lo + 2 ^ 32 * cfld s hi 15 0

/-! ## What leaves the device -/

/-- Sends something: the list of what left is newest first. -/
def emit (s : State) (t : Tx) : State := { s with tx := t :: s.tx }

/-! ## Values the spec leaves open, and the random-bit generator -/

/-- A free value below 2^n, and the state that has taken it. -/
def takeFree (s : State) (n : Nat) : Nat × State :=
  (Config.freeBits s.freeCtr % 2 ^ n, { s with freeCtr := s.freeCtr + 1 })

/-- What the ECC finds on `n` lines that a command without findings of its own reads: two free bits a line (R48). DESIGN CHOICE (log 100). -/
def takeFindings (s : State) (n : Nat) : Findings × State :=
  let (v, s) := takeFree s (2 * n)
  ((List.range n).map fun i =>
    (i, match v / 4 ^ i % 4 with
        | 1 => Ecc.corrected
        | 2 => .uncorrectable
        | _ => .clean), s)

/-- `k` requests of the generator (R364). -/
def drawRandom (s : State) (k : Nat) : State :=
  { s with freeCtr := s.freeCtr + k, sec := { s.sec with rngCount := s.sec.rngCount + k } }

/-- `n` random bits, and the state that has taken them; one request of the generator. -/
def takeRandom (s : State) (n : Nat) : Nat × State :=
  (Config.randomBits s.freeCtr % 2 ^ n, drawRandom s 1)

/-! ## Beat and job -/

/-- The device has beat numbers: LOCKED or HOLDOVER (R25). -/
def hasBeat (s : State) : Bool := s.beat.state == .locked || s.beat.state == .holdover

/-- The current beat number; zero outside LOCKED and HOLDOVER. -/
def now (s : State) : Nat := s.beat.count

/-- J0 of the started job (R30). -/
def jobOrigin (s : State) : Option Nat :=
  match s.sched.job with
  | .started j0 => some j0
  | _ => none

def jobStarted (s : State) : Bool := (jobOrigin s).isSome

/-- The job number of the loaded schedule image, zero when none (R198). -/
def imageJob (s : State) : Nat := (s.sched.image.map fun p => p.1.job).getD 0

/-- This node's number with its valid bit [15] (R262). -/
def nodeWord (s : State) : Nat :=
  match s.fabric.node with
  | some n => 0x8000 + n.toNat
  | none => 0

/-- This node's number, zero when none is assigned. -/
def nodeNum (s : State) : Nat := (s.fabric.node.map fun n => n.toNat).getD 0

/-! ## What a command's meaning answers -/

/-- The effect of a command that is no event of the lock table (R25: an event not listed causes no transition) and no reset: the
beat unit stands, and so does the queue of waiting commands, which is not exec's. Before the power-up sequence has begun nothing
runs (R394, R414). -/
def quiet (s s' : State) : State :=
  if s.boot.phase = 0 then s else { s' with beat := s.beat, pending := s.pending }

/-- An effect on everything but the beat unit. -/
def keepBeat (s s' : State) : State := { s' with beat := s.beat }

/-- The effect of a command that may move the beat unit; the queue stands. -/
def keepQueue (s s' : State) : State := { s' with pending := s.pending }

/-! ## Accounting (R221, R223) -/

/-- Adds energy events of a class to a client: coefficients are in 1/256 pJ, fractions of a µJ carry. -/
def chargeEnergy (s : State) (client cls n : Nat) : State :=
  let total := tgetD s.sched.energyFrac client 0 + n * rget s (rSqEcoef cls)
  let k := client * 12 + 10
  { s with sched := { s.sched with
      energyFrac := tset s.sched.energyFrac client (total % 256000000)
      acct := tset s.sched.acct k (min (tgetD s.sched.acct k 0 + total / 256000000) (2 ^ 64 - 1)) } }

/-- Advances counter `idx` of a client by `n`, saturating, with the energy of its class. -/
def charge (s : State) (client idx cls n : Nat) : State :=
  let k := client * 12 + idx
  chargeEnergy { s with sched := { s.sched with acct := tset s.sched.acct k (min (tgetD s.sched.acct k 0 + n) (2 ^ 64 - 1)) } }
    client cls n

/-! ## MSI-X messages (R309) -/

def fnGet (s : State) (f : Nat) : Fn := tgetD s.host.fns f {}
def fnSet (s : State) (f : Nat) (x : Fn) : State := { s with host := { s.host with fns := tset s.host.fns f x } }

/-- Function `f` exists: PF0, or a virtual function SR-IOV has enabled (R298). -/
def fnEnabled (s : State) (f : Nat) : Bool := f == 0 || decide (f ≤ s.host.numVfs)

/-- Raises vector `v` of function `f`: a masked vector sets its pending bit. -/
def raiseVector (s : State) (f v : Nat) : State :=
  if fnEnabled s f then
    let x := fnGet s f
    if x.mask.getLsbD v then fnSet s f { x with pendBits := x.pendBits ||| BitVec.ofNat 3 (2 ^ v) }
    else emit s (.msix f v)
  else s

/-- Sets bit `i` of an event register; a flag of HI_EVENT that becomes 1 raises vector 2 of PF0 (R309). -/
def setEvent (s : State) (off i : Nat) : State :=
  let was := bit (rget s off) i
  let s := rput s off i i 1
  if off == rHiEvent && was == 0 then raiseVector s 0 2 else s

/-! ## Error records (R433) -/

/-- Writes an error record: `fields` and the companion registers when VALID is 0, else sets MORE only. The answer says
whether VALID became 1. -/
def errRecord (s : State) (off fields : Nat) (companions : List (Nat × Nat)) : State × Bool :=
  if bit (rget s off) 31 == 1 then (rput s off 30 30 1, false)
  else
    let s := rset s off (2 ^ 31 + fields)
    (companions.foldl (fun s c => rset s c.1 c.2) s, true)

/-! ## Event records (R350, R351) -/

/-- What an event record says, apart from what the device fills in. -/
structure Ev where
  sev : Nat
  src : Nat
  status : Half := 0
  client : Option Nat := none
  flags : Nat := 0
  count : Nat := 1
  loc : Nat := 0xFFFF
  obj : Nat := 0
  detail : List Nat := []
  /-- The record names the started job (R293 leaves it out for WRITEs and sends). -/
  job : Bool := true
  deriving DecidableEq, Repr

def sevNotice : Nat := 0
def sevCorrected : Nat := 1
def sevDegraded : Nat := 2
def sevError : Nat := 3
def sevFault : Nat := 4
def sevFatal : Nat := 5

def srcBeat : Nat := 1
def srcCell : Nat := 2
def srcMatrix : Nat := 3
def srcPrism : Nat := 4
def srcCache : Nat := 5
def srcForager : Nat := 6
def srcLens : Nat := 7
def srcSched : Nat := 8
def srcTiers : Nat := 9
def srcEmgait : Nat := 10
def srcRemote : Nat := 11
def srcHost : Nat := 12
def srcPower : Nat := 13
def srcReliab : Nat := 14
def srcSecurity : Nat := 15

/-- Codes of RL_HEALTH.STATE. -/
def healthCode : Health → Nat
  | .healthy => 0 | .softPending => 1 | .suspect => 2 | .expelling => 3 | .expelled => 4

/-- The error-record registers (R433) of the block an event comes from, in offset order: those of the cell it names, where each cell
has its own. -/
def errorRegs (src loc : Nat) : List Nat :=
  if src = srcCell then [rClFault loc, rClFaultPc loc, rClFaultAddr loc]
  else if src = srcPrism then [rPzErr loc, rPzErrAddr loc, rPzErrVer loc, rPzErrIndex loc]
  else if src = srcCache then [rKvErr, rKvErrPage]
  else if src = srcForager then [rFgErr, rFgErrHandleLo, rFgErrHandleHi]
  else if src = srcLens then [rLnErr, rLnErrHandleLo, rLnErrHandleHi]
  else if src = srcSched then [rSqErr]
  else if src = srcRemote then [rRaViol, rRaViolRegion]
  else if src = srcSecurity then [rScErr]
  else []

/-- The DETAIL words of a record: what the event names, else its block's error-record registers (R350). -/
def detailOf (s : State) (e : Ev) : List Nat := if e.detail.isEmpty then (errorRegs e.src e.loc).map (rget s) else e.detail

/-- The health state after an event: every FAULT record is that of a hard event, which R347 sends to EXPELLING, and on to EXPELLED at once
with no job started (R346, R350). -/
def healthAfter (s : State) (e : Ev) : Health :=
  let h := s.reliab.health
  if e.sev == sevFault && h != .expelling && h != .expelled then (if jobStarted s then .expelling else .expelled) else h

/-- The 64 bytes of an event record (R350). -/
def recordBytes (s : State) (seq : Nat) (e : Ev) : List Byte :=
  leBytes 4 seq ++ leBytes 1 e.sev ++ leBytes 1 e.src ++ leBytes 2 e.status.toNat ++ leBytes 6 (now s) ++
  leBytes 2 (if e.job && jobStarted s then imageJob s else 0) ++ leBytes 2 (nodeWord s) ++ leBytes 1 (e.client.getD 0) ++
  leBytes 1 (e.flags + b2n e.client.isSome) ++ leBytes 2 (min e.count 0xFFFF) ++ leBytes 2 e.loc ++ leBytes 8 e.obj ++
  ((List.range 4).flatMap fun i => leBytes 4 ((detailOf s e).getD i 0)) ++ leBytes 2 s.reliab.score ++ leBytes 1 (healthCode (healthAfter s e)) ++ leBytes 13 0

/-- EXTEST, CLAMP or HIGHZ is in force: boundary scan owns the pins, and what uses them fails as they fail (R386). -/
def scanOwnsPins (s : State) : Bool := s.mgmt.tap == .extest || s.mgmt.tap == .clamp || s.mgmt.tap == .highz

/-- An In-Band Interrupt may be raised: the records go by I3C, one is unsent, and the controller has enabled interrupts (R383). -/
def ibiDue (s : State) : Bool :=
  s.mgmt.i3cOn && s.mgmt.daddr.isSome && s.mgmt.ibiOn && cfld s rMgCfg 0 0 == 1 && decide (s.mgmt.sent < s.reliab.seq) && !scanOwnsPins s

/-- Raises an In-Band Interrupt unless one was raised within the last ms. -/
def raiseIbi (s : State) : State :=
  if ibiDue s && !s.mgmt.ibiHold then emit { s with mgmt := { s.mgmt with ibiHold := true } } .ibi else s

/-- Writes a record into the log ring, counting one it overwrites unsent (R351). -/
def writeRecord (s : State) (e : Ev) : State :=
  let seq := s.reliab.seq + 1
  let i := seq % 256
  let lost := decide (256 < seq) && decide (s.mgmt.sent < seq - 256)
  let s1 := if lost then setEvent (satAdd s rRlLogLost 31 0 1) rRlEvent 7 else s
  raiseIbi { s1 with reliab := { s1.reliab with seq := seq, log := tset s1.reliab.log i (recordBytes s seq e) } }

/-- Demerits (R346), saturating at 65,535. -/
def addScore (s : State) (n : Nat) : State :=
  { s with reliab := { s.reliab with score := min 65535 (s.reliab.score + n) } }

/-- An event with its demerits: a CORRECTED event in an open window of its source is counted and not recorded, and a CORRECTED
record opens the window; every other severity is recorded at once (R346, R351). -/
def event (s : State) (e : Ev) (demerits : Nat := 0) : State :=
  let s := addScore s demerits
  if e.sev == sevCorrected then
    match tget s.reliab.windows e.src with
    | some n => { s with reliab := { s.reliab with windows := tset s.reliab.windows e.src (n + 1) } }
    | none =>
      let s := writeRecord s e
      { s with reliab := { s.reliab with windows := tset s.reliab.windows e.src 0 } }
  else writeRecord s e

/-- A coalescing window closes: the counted events go out as one record, which opens a new window (R351). -/
def closeWindow (s : State) (src : Nat) : State :=
  match tget s.reliab.windows src with
  | none => s
  | some 0 => { s with reliab := { s.reliab with windows := terase s.reliab.windows src } }
  | some (n + 1) =>
    let s := writeRecord s { sev := sevCorrected, src := src, flags := 2, count := n + 1 }
    { s with reliab := { s.reliab with windows := tset s.reliab.windows src 0 } }

/-! ## Health (R347, R348) -/

/-- Moves the health state and sends the NOTICE record of the transition. -/
def healthMove (s : State) (h : Health) (soft : Bool := false) : State :=
  let s := { s with reliab := { s.reliab with health := h, cause := if h == .healthy then 0 else s.reliab.cause } }
  let s := if h == .suspect then setEvent s rRlEvent 2 else s
  let s := if h == .expelled then setEvent s rRlEvent 3 else s
  let s := if soft then setEvent s rRlEvent 1 else s
  event s { sev := sevNotice, src := srcReliab, flags := 4 + 8 * b2n soft }

/-- Entry to EXPELLING, and on to EXPELLED at once with no job started. -/
def expel (s : State) : State :=
  let s := healthMove s .expelling
  if jobStarted s then s else healthMove s .expelled

/-- A hard event with its cause (2 margin is not hard): 3 matrix, 4 lens bank, 5 test failure, 6 HBM stack (R347). -/
def hardEvent (s : State) (cause : Nat) : State :=
  let s := setEvent s rRlEvent 0
  if s.reliab.health == .expelling || s.reliab.health == .expelled then
    if s.reliab.cause == 1 || s.reliab.cause == 2 then
      event { s with reliab := { s.reliab with cause := cause } } { sev := sevNotice, src := srcReliab, flags := 4 }
    else s
  else expel { s with reliab := { s.reliab with cause := cause } }

/-- The completion of OP_STOP_JOB or of a teardown is a job boundary (R347). -/
def jobBoundary (s : State) : State := if s.reliab.health == .expelling then healthMove s .expelled else s

/-- Decay at a boundary whose beat is a multiple of 2^24 (R346). -/
def decayScore (s : State) : State :=
  if hasBeat s && now s % 2 ^ 24 == 0 && s.reliab.decayAt != now s then
    { s with reliab := { s.reliab with score := s.reliab.score * 7 / 8, decayAt := now s } }
  else s

/-- The soft request is sent again once 4,096 beats have passed without an answer (R347). -/
def resendSoft (s : State) : State :=
  if s.reliab.health == .softPending && decide (4096 ≤ s.reliab.softAge) && decide (cfld s rRlCfg 31 16 ≤ s.reliab.score) then
    event (setEvent { s with reliab := { s.reliab with softAge := 0 } } rRlEvent 1) { sev := sevNotice, src := srcReliab, flags := 12 }
  else s

/-- The tests of R347 at a boundary, after any decay. -/
def healthTests (s : State) : State :=
  let soft := cfld s rRlCfg 31 16
  let r := s.reliab
  let s :=
    match r.health with
    | .healthy =>
      if soft ≤ r.score then
        healthMove { s with reliab := { r with cause := if r.marginOut then 2 else 1, softAge := 0 } } .softPending true
      else s
    | .softPending =>
      if 2 * r.score < soft then healthMove s .healthy
      else resendSoft { s with reliab := { r with softAge := r.softAge + 1 } }
    | .suspect => if 2 * r.score < soft then healthMove s .healthy else s
    | _ => s
  { s with reliab := { s.reliab with
      marginOut := false, phase := if s.reliab.health == .suspect then now s / 4096 % 8 else 0 } }

end Sys2Proof.Machine
end

