-- ==== Sys2Proof/Machine/Operands.lean ====
section
/-!
DEFINITION. The cell instruction word: its fields (R50), which words are legal (R51, R53, R71, R213) and which row of the table a word
belongs to; scalar and vector arithmetic as functions of the operands (R52). A result the spec does not state is `either` of two
readings or `any`.
-/

namespace Sys2Proof.Machine

/-! ## Fields (R50) -/

def iClass (i : Insn) : Nat := bits i.word.toNat 63 60
def iOp (i : Insn) : Nat := bits i.word.toNat 59 54
def iD (i : Insn) : Nat := bits i.word.toNat 53 48
def iA (i : Insn) : Nat := bits i.word.toNat 47 42
def iB (i : Insn) : Nat := bits i.word.toNat 41 36
def iC (i : Insn) : Nat := bits i.word.toNat 35 30
/-- OP[5] selects the immediate form. -/
def iImmForm (i : Insn) : Bool := iOp i ≥ 32
/-- The operation number without the form bit. -/
def iOpNum (i : Insn) : Nat := iOp i % 32
def iW (i : Insn) : Nat := if iImmForm i then bits i.word.toNat 41 40 else bits i.word.toNat 29 28
def iImm (i : Insn) : Nat := bits i.word.toNat 31 0
/-- IMM as a signed value. -/
def iImmS (i : Insn) : Int := sInt 32 (iImm i)
/-- The reserved bits of the word's form are zero. -/
def iReservedOk (i : Insn) : Bool :=
  if iImmForm i then bits i.word.toNat 39 32 == 0 else bits i.word.toNat 27 0 == 0

/-- The rows of the table that are cell instructions. -/
inductive Row where
  | scalarAlu | scalarLoad | scalarStore | amoadd | amocas | branch | jal | jalr | vectorAlu | vld | vst | vbcast
  | vectorReduce | vperm | vext | send | recv | probe | dma | bar | waitc | nop | sysRd | halt
  | semacq | semrel | semtry | semrd | critEnter | critExit | semcancel | semheld | mma | mlda | mst | mstat
  deriving DecidableEq, Repr

/-- The row of a class and operation, where the class lists the operation (R51, R71, R213). -/
def rowOfOp (cls op : Nat) : Option Row :=
  match cls with
  | 0x0 => if op % 32 < 16 then some .scalarAlu else none
  | 0x1 =>
    if op < 0x20 then none
    else if op ≤ 0x26 then some .scalarLoad
    else if op ≤ 0x2A then some .scalarStore
    else if op = 0x2B then some .amoadd
    else if op = 0x2C then some .amocas
    else none
  | 0x2 =>
    if op % 32 < 6 then some .branch
    else if op % 32 = 6 then some .jal
    else if op % 32 = 7 then some .jalr
    else none
  | 0x3 => if op % 32 ≤ 0x13 then some .vectorAlu else none
  | 0x4 =>
    match op % 32 with
    | 0 => some .vld
    | 1 => some .vst
    | 2 => some .vbcast
    | _ => none
  | 0x5 =>
    match op % 32 with
    | 0 | 1 => some .vectorReduce
    | 2 => some .vperm
    | 3 => some .vext
    | _ => none
  | 0x6 =>
    match op with
    | 0x00 => some .mma
    | 0x01 => some .mstat
    | 0x20 => some .mlda
    | 0x21 => some .mst
    | _ => none
  | 0x7 =>
    match op with
    | 0x20 => some .send
    | 0x21 => some .recv
    | 0x22 => some .probe
    | _ => none
  | 0x8 => if op = 0x20 then some .dma else none
  | 0x9 =>
    match op with
    | 0x20 => some .bar
    | 0x21 => some .waitc
    | 0x30 => some .semacq
    | 0x31 => some .semrel
    | 0x32 => some .semtry
    | 0x33 => some .semrd
    | 0x34 => some .critEnter
    | 0x35 => some .critExit
    | 0x36 => some .semcancel
    | 0x37 => some .semheld
    | _ => none
  | 0xA =>
    match op with
    | 0x00 => some .nop
    | 0x20 => some .sysRd
    | 0x21 => some .halt
    | _ => none
  | _ => none

/-- Lane width of W in bits (R50). -/
def laneBits (w : Nat) : Nat := 8 * 2 ^ w

/-- The floating-point format of a lane width: FP32 or BF16 (R51). -/
def laneFmt (w : Nat) : Option Fmt := if w = 2 then some fp32 else if w = 1 then some bf16 else none

/-- The fields a row gives a fixed value or range, beside the reserved bits of R50: v registers up to 31, W zero outside the vector
classes, IMM zero or in range, floating point on FP32 or BF16 lanes. In a vector-class word every D, A, B and C field that the form has
is at most v31, whether or not the operation reads it, but for the fields that R51 makes g registers: A of class 0x4, D of VEXT (log
entry 15). -/
def rowFieldsOk (r : Row) (i : Insn) : Bool :=
  let v := fun n => decide (n < 32)
  let bc := iImmForm i || (v (iB i) && v (iC i))
  let scalar := iW i == 0
  match r with
  | .vectorAlu => v (iD i) && v (iA i) && bc && (decide (iOpNum i < 0x0B) || (laneFmt (iW i)).isSome)
  | .vld | .vst | .vbcast => v (iD i) && bc
  | .vectorReduce | .vperm => v (iD i) && v (iA i) && bc
  | .vext => v (iA i) && bc
  | .send => scalar && v (iA i)
  | .recv => scalar && v (iD i)
  | .waitc | .halt | .critEnter | .critExit => scalar && iImm i == 0
  | .sysRd => scalar && decide (iImm i < 10)
  | .semacq | .semrel | .semtry | .semrd | .semcancel | .semheld => scalar && decide (iImm i < 1024)
  | .mma => scalar && iC i == 0
  | .mstat => scalar && iA i == 0 && iB i == 0 && iC i == 0
  | .mlda => scalar && bits (iD i) 2 1 == 0 && bits (iImm i) 15 10 == 0
  | .mst => scalar && bit (iD i) 2 == 0 && bits (iImm i) 15 4 == 0
  | _ => scalar

/-- The row of a legal word; `none` for a word that faults with ILLEGAL under R51. -/
def rowOf (i : Insn) : Option Row :=
  match rowOfOp (iClass i) (iOp i) with
  | some r => if iReservedOk i && rowFieldsOk r i then some r else none
  | none => none

/-! ## Results, and what the spec leaves open of them -/

/-- A result: stated, one of two where readings differ, or not stated at all. -/
inductive Res where
  | is (v : Nat)
  | either (a b : Nat)
  | any
  deriving DecidableEq, Repr

/-- Both readings, as one stated result where they agree. -/
def Res.both (a b : Nat) : Res := if a = b then .is a else .either a b

/-- The result with a free value in place of what is open. -/
def Res.pick (free : Nat) : Res → Nat
  | .is v => v
  | .either a b => if free % 2 = 0 then a else b
  | .any => free

def Res.isOpen : Res → Bool
  | .is _ => false
  | _ => true

/-- One result of `n` bits, taking a free value only where it is open. -/
def resolve (s : State) (n : Nat) (r : Res) : Nat × State :=
  if r.isOpen then
    let (f, s) := takeFree s 64
    (r.pick f % 2 ^ n, s)
  else (r.pick 0 % 2 ^ n, s)

/-- The lanes of a vector result, taking one free value where any lane is open. -/
def resolveLanes (s : State) (w : Nat) (rs : List Res) : VReg × State :=
  if rs.any Res.isOpen then
    let (f, s) := takeFree s 512
    (ofLanes w (rs.mapIdx fun i r => r.pick (f / 2 ^ (w * i) % 2 ^ w)), s)
  else (ofLanes w (rs.map fun r => r.pick 0), s)

/-! ## Integer arithmetic on n bits (R51, R52) -/

/-- A shift count of n or more is not stated. -/
def shiftRes (n b v : Nat) : Res := if b < n then .is v else .any

/-- Signed quotient: the corners of R52; an inexact negative quotient may round either way. -/
def divS (n : Nat) (a b : Int) : Res :=
  if b = 0 then .is (2 ^ n - 1)
  else
    let q := ofInt n (Int.tdiv a b)
    Res.both q (ofInt n (Int.fdiv a b))

/-- The scalar operations 0x0 to 0xF of class 0x0 on 64-bit operands. -/
def scalarOp (op a b : Nat) : Res :=
  let n := 64
  let sa := sInt n a
  let sb := sInt n b
  match op with
  | 0x0 => .is ((a + b) % 2 ^ n)
  | 0x1 => .is ((a + 2 ^ n - b) % 2 ^ n)
  | 0x2 => .is (a * b % 2 ^ n)
  | 0x3 => Res.both (a * b / 2 ^ n) (ofInt n (Int.fdiv (sa * sb) (2 ^ n)))
  | 0x4 => .is (if b = 0 then 2 ^ n - 1 else a / b)
  | 0x5 => divS n sa sb
  | 0x6 => .is (a &&& b)
  | 0x7 => .is (a ||| b)
  | 0x8 => .is (a ^^^ b)
  | 0x9 => shiftRes n b (a * 2 ^ (b % n) % 2 ^ n)
  | 0xA => shiftRes n b (a / 2 ^ (b % n))
  | 0xB => shiftRes n b (ofInt n (Int.fdiv sa (2 ^ (b % n))))
  | 0xC => Res.both (min a b) (ofInt n (min sa sb))
  | 0xD => Res.both (max a b) (ofInt n (max sa sb))
  | 0xE => .is (b2n (decide (sa < sb)))
  | _ => .is (b2n (decide (a < b)))

/-- The integer vector operations 0x00 to 0x0A on one lane of n bits. -/
def laneOp (n op a b : Nat) : Res :=
  let sa := sInt n a
  let sb := sInt n b
  match op with
  | 0x00 => .is ((a + b) % 2 ^ n)
  | 0x01 => .is ((a + 2 ^ n - b) % 2 ^ n)
  | 0x02 => .is (a * b % 2 ^ n)
  | 0x03 => Res.both (min a b) (ofInt n (min sa sb))
  | 0x04 => Res.both (max a b) (ofInt n (max sa sb))
  | 0x05 => .is (a &&& b)
  | 0x06 => .is (a ||| b)
  | 0x07 => .is (a ^^^ b)
  | 0x08 => shiftRes n b (a * 2 ^ (b % n) % 2 ^ n)
  | 0x09 => shiftRes n b (a / 2 ^ (b % n))
  | _ => shiftRes n b (ofInt n (Int.fdiv sa (2 ^ (b % n))))

/-! ## Floating point on one lane (R51, R52) -/

/-- The smaller (`small`) or larger of two values; equal zeros of opposite signs may answer either. -/
def fpPick (f : Fmt) (small : Bool) (a b : Nat) : Res :=
  let x := f.decode a
  let y := f.decode b
  if x.isNan || y.isNan then .is f.nan
  else if x.lt y then .is (if small then a else b)
  else if y.lt x then .is (if small then b else a)
  else Res.both a b

/-- FADD, FMUL, FFMA, FMIN, FMAX (0x0B to 0x0F). The immediate form names no C, so the addend of its FFMA is open. -/
def floatOp (f : Fmt) (op a b : Nat) (c : Option Nat) : Res :=
  let x := f.decode a
  let y := f.decode b
  match op with
  | 0x0B => .is (f.encode (x.add y))
  | 0x0C => .is (f.encode (x.mul y))
  | 0x0D =>
    match c with
    | some c => .is (f.encode ((x.mul y).add (f.decode c)))
    | none => .any
  | 0x0E => fpPick f true a b
  | _ => fpPick f false a b

/-- CVT.I2F: a lane whose top bit is set reads as negative or as large, which the spec does not say. -/
def cvtI2F (n : Nat) (f : Fmt) (a : Nat) : Res :=
  Res.both (f.encode (Fp.ofInt (sInt n a))) (f.encode (Fp.ofInt a))

/-- CVT.F2I: stated for a non-negative integer that every reading of the lane can hold. -/
def cvtF2I (n : Nat) (f : Fmt) (a : Nat) : Res :=
  match (f.decode a).exactInt with
  | some i => if 0 ≤ i ∧ i < 2 ^ (n - 1) then .is i.toNat else .any
  | none => .any

/-- Where the sixteen BF16 lanes stand in a register beside sixteen FP32 lanes, which the spec does not state: packed in the low or the
high half, or in the low or the high half of each 32-bit lane. -/
def bfAt (place k : Nat) : Nat :=
  match place % 4 with
  | 0 => 16 * k
  | 1 => 256 + 16 * k
  | 2 => 32 * k
  | _ => 32 * k + 16

/-- CVT.F32BF: each FP32 lane rounded to BF16, a NaN as the canonical one (R52). Where the results stand, and the other bits, are open:
free bits of `free`. -/
def cvtF32Bf (a : VReg) (free : Nat) : VReg :=
  BitVec.ofNat 512 ((List.range 16).foldl (fun n k =>
    let at_ := bfAt free k
    n - n / 2 ^ at_ % 2 ^ 16 * 2 ^ at_ + bf16.encode (fp32.decode (lane a 32 k)) * 2 ^ at_) (free / 4 % 2 ^ 512))

/-- CVT.BF32: sixteen BF16 lanes as FP32, a NaN as the canonical one (R52). Where the operands stand is open: a free choice. -/
def cvtBf32 (a : VReg) (free : Nat) : VReg :=
  ofLanes 32 ((List.range 16).map fun k => fp32.encode (bf16.decode (a.toNat / 2 ^ bfAt free k % 2 ^ 16)))

/-- One lane of a vector operation that keeps the lane width. -/
def vectorLane (w op a b : Nat) (c : Option Nat) : Res :=
  let n := laneBits w
  if op < 0x0B then laneOp n op a b
  else
    match laneFmt w with
    | none => .any
    | some f =>
      if op < 0x10 then floatOp f op a b c
      else if op = 0x10 then cvtI2F n f a
      else cvtF2I n f a

/-- VSUM and VMAXR on the lanes of a register: lane 0 of the result. -/
def reduceLanes (n op : Nat) (ls : List Nat) : Res :=
  if op = 0 then .is (ls.foldl (· + ·) 0 % 2 ^ n)
  else Res.both (ls.foldl max 0) (ofInt n (ls.foldl (fun m l => max m (sInt n l)) (-(2 ^ (n - 1)))))

end Sys2Proof.Machine
end

