-- ==== Sys2Proof/Machine/Reply.lean ====
section
/-!
DEFINITION. Replies: the completion rings, the reply queues, vector 0 with its coalescing (R299, R305–R309), and the end of a host
command.
-/

namespace Sys2Proof.Machine

/-- Records an error of function `f`; vector 1 when VALID becomes 1 (R309). -/
def fnError (s : State) (f ring cause : Nat) : State :=
  let (s, fresh) := errRecord s (rHiFnErr f) (ring * 256 + cause) []
  if fresh then setEvent (raiseVector s f 1) rHiEvent 1 else s

/-- Entries of function `f`'s completion ring (R299). -/
def cqSize (s : State) (f : Nat) : Nat := 2 ^ cfld s (rHiCqCfg f) 20 16

/-- The completion ring takes one more entry: enabled and below 2^SIZE − 1 live entries. -/
def cqRoom (s : State) (f : Nat) : Bool :=
  let x := fnGet s f
  x.cqEnabled && (x.cqTail + 1) % cqSize s f != x.cqHead

/-- The 16 bytes of a reply (R305). -/
def replyBytes (r : Reply) (phase : Bool) : List Byte :=
  leBytes 2 r.cid.toNat ++ leBytes 2 r.status.toNat ++ leBytes 1 (128 * b2n phase + 32 * r.kind + r.ring) ++
  leBytes 3 0 ++ leBytes 8 r.result.toNat

/-- Vector 0 after a reply has been written (R309). -/
def signalReply (s : State) (f : Nat) (irqNow : Bool) : State :=
  let x := fnGet s f
  let n := x.unsignalled + 1
  if irqNow || decide (cfld s (rHiIrq f) 7 0 ≤ n) then raiseVector (fnSet s f { x with unsignalled := 0 }) f 0
  else fnSet s f { x with unsignalled := n }

/-- Writes one reply into the completion ring as one 16-byte write; the phase inverts at the wrap (R305). -/
def writeReply (s : State) (f : Nat) (r : Reply) : State :=
  let x := fnGet s f
  let addr := cget s (rHiCqBaseLo f) + 2 ^ 32 * cget s (rHiCqBaseHi f) + 16 * x.cqTail
  let s := emit s (.hostWrite f addr (replyBytes r x.phase))
  let wrap := x.cqTail + 1 == cqSize s f
  let s := fnSet s f { x with cqTail := if wrap then 0 else x.cqTail + 1, phase := x.phase != wrap }
  signalReply s f r.irqNow

/-- Posts a reply: written, queued where the ring is full or not enabled, or dropped where the queue of 4,096 is full (R308). A
function that is not enabled sends nothing (R298). -/
def postReply (s : State) (f : Nat) (r : Reply) : State :=
  if !fnEnabled s f then s
  else
    let x := fnGet s f
    if x.queue.isEmpty && cqRoom s f then writeReply s f r
    else if x.queue.length < 4096 then fnSet s f { x with queue := x.queue ++ [r] }
    else setEvent (fnError (satAdd s (rHiFnDropped f) 31 0 1) f r.ring 5) rHiEvent 0

/-- Writes waiting replies while the ring takes them (R308). -/
def drainReplies (f : Nat) : Nat → State → State
  | 0, s => s
  | n + 1, s =>
    match (fnGet s f).queue with
    | [] => s
    | r :: rest =>
      if cqRoom s f then
        drainReplies f n (writeReply (fnSet s f { fnGet s f with queue := rest }) f r)
      else s

/-! ## Host commands in progress -/

def cmdGet (s : State) (id : Nat) : Option Cmd := s.host.cmds.find? fun c => c.id == id
def cmdMod (s : State) (id : Nat) (g : Cmd → Cmd) : State :=
  { s with host := { s.host with cmds := s.host.cmds.map fun c => if c.id == id then g c else c } }

/-- The function that issued a command; zero for none. -/
def cmdFn (s : State) (id : Nat) : Nat := ((cmdGet s id).map fun c => c.hdr.fn.val).getD 0

/-- Ends a host command with its COMMAND reply, and with it the seal it holds (R360). A command whose deadline passed answers
ST_DEADLINE_MISSED with its result, whatever its status would have been (R34 kind 0). -/
def finishCmd (s : State) (id : Nat) (st : Half) (result : Nat) : State :=
  match cmdGet s id with
  | none => s
  | some c =>
    let st := if c.late then stDeadlineMissed else st
    let s := { s with
      host := { s.host with cmds := s.host.cmds.filter fun x => x.id != id }
      sec := { s.sec with seals := s.sec.seals.filter fun x => x.cmd != id } }
    if c.discard then s
    else postReply s c.hdr.fn.val
      { cid := c.hdr.cid, status := st, kind := 0, ring := c.hdr.ring.val, result := BitVec.ofNat 64 result, irqNow := c.hdr.irqNow
        pos := c.pos }

/-- Ends a command with a refusal. -/
def refuseCmd (s : State) (id : Nat) (st : Half) : State := finishCmd s id st 0

end Sys2Proof.Machine
end

