-- ==== Sys2Proof/Machine/Tables.lean ====
section
/-!
DEFINITION. The tables the device keeps in the tiered range, as the bytes software reads there: page table (R114), prefix table
(R148), descriptors (R149), home records (R151), regions (R277) and slot records (R286). State holds them as structures; a read of
the range at a table's committed base returns the entry's bytes.
-/

namespace Sys2Proof.Machine

/-- A node field with its valid bit [15]. -/
def nodeField (n : Option Nat) : Nat :=
  match n with
  | some k => 0x8000 + k
  | none => 0

/-- A page table entry (R114): state 0 FREE, 1 OPEN, 2 FULL. -/
def pageBytes (p : Page) : List Byte :=
  leBytes 8 p.frame ++ leBytes 2 p.refs ++ leBytes 2 p.pins ++
  leBytes 1 ((if p.full then 2 else 1) + 4 * b2n p.sumv + 8 * b2n p.plain) ++ leBytes 1 p.written ++
  leBytes 2 p.kver ++ leBytes 2 p.vver ++ leBytes 1 p.client ++ leBytes 1 p.group ++ leBytes 2 p.layer ++ leBytes 2 0 ++
  leBytes 6 p.beat ++ leBytes 2 0

/-- Codes of the descriptor states (R150). -/
def descCode : DescState → Nat
  | .admitting => 1 | .receiving => 2 | .fetching => 3 | .active => 4 | .handingOut => 5 | .passed => 6 | .adopted => 7
  | .fenced => 8 | .ending => 9

/-- A request descriptor (R149). -/
def descBytes (d : Desc) : List Byte :=
  leBytes 8 d.handle.toNat ++ leBytes 1 (descCode d.state) ++ leBytes 1 d.client ++ leBytes 2 d.ctx ++ leBytes 4 d.epoch ++
  leBytes 4 d.clen ++ leBytes 4 d.slen ++ leBytes 4 d.plen ++ leBytes 4 d.maxlen ++ leBytes 8 d.map ++ leBytes 8 d.tbuf ++
  leBytes 6 d.lease ++ leBytes 2 d.home ++ leBytes 2 d.partner ++ leBytes 2 (nodeField d.peer) ++ leBytes 4 d.cb ++
  leBytes 8 d.tip.toNat ++ leBytes 8 d.parent.toNat ++ leBytes 8 d.sample ++ leBytes 6 d.created ++ leBytes 34 0

/-- A home record (R151). -/
def recBytes (r : HomeRec) : List Byte :=
  let d := r.data
  leBytes 8 d.handle.toNat ++
  leBytes 1 (d.state + 8 * b2n d.proposed + 16 * b2n d.claimed + 32 * b2n d.primaryOk + 64 * b2n d.mirrorOk + 128 * b2n d.acting) ++
  leBytes 1 d.client ++ leBytes 2 (nodeField d.owner) ++ leBytes 4 d.epoch ++ leBytes 6 d.lease ++ leBytes 2 (nodeField d.pending) ++
  leBytes 2 (nodeField d.lastc) ++ leBytes 2 d.partner ++ leBytes 4 d.cb ++ leBytes 4 d.clenh ++ leBytes 4 d.plen ++
  leBytes 4 d.maxlen ++ leBytes 1 (b2n d.ownerCommitted) ++ leBytes 3 0 ++
  leBytes 8 (Config.homeMapAt d.handle).toNat ++ leBytes 8 (Config.tokenLogAt d.handle).toNat

/-- A prefix table entry (R148). -/
def pfxBytes (e : PfxEntry) : List Byte :=
  leBytes 8 e.hash.toNat ++ leBytes 1 e.client ++ leBytes 1 (1 + 2 * b2n e.mirrored) ++ leBytes 2 0 ++ leBytes 4 e.block ++
  leBytes 8 (Config.pfxListAt e.index).toNat ++ leBytes 6 e.hit ++ leBytes 2 0

/-- A region table entry (R277). -/
def regionBytes (r : Region) : List Byte :=
  leBytes 8 r.base ++ leBytes 8 r.length ++ leBytes 6 r.secret.toNat ++ leBytes 1 (if r.revoking then 2 else 1) ++
  leBytes 1 (b2n r.rd + 2 * b2n r.wr + 4 * b2n r.queue + 8 * b2n r.prot + 16 * b2n r.from_.isSome) ++ leBytes 1 r.client ++
  leBytes 1 0 ++ leBytes 2 ((r.from_.map fun n => n.toNat).getD 0) ++ leBytes 4 r.admitted ++ leBytes 4 r.slot0 ++
  leBytes 2 r.slots ++ leBytes 26 0

/-- Codes of the slot states (R286). -/
def slotCode : SlotState → Nat
  | .empty => 0 | .posted => 1 | .filling => 2 | .complete => 3

/-- A slot record (R286). -/
def slotBytes (r : RecvSlot) : List Byte :=
  leBytes 8 r.buf ++ leBytes 4 r.size ++ leBytes 4 r.gen ++ leBytes 1 (slotCode r.state) ++
  leBytes 1 (b2n r.tailv + 2 * b2n r.poison) ++ leBytes 2 r.src ++ leBytes 4 r.tag.toNat ++ leBytes 4 r.tlen ++
  leBytes 4 r.tcrc.toNat ++ leBytes 32 0

/-- Entry and byte of a table of `count` entries of `size` bytes at `base` that address `a` falls on. -/
def inTable (base count size a : Nat) : Option (Nat × Nat) :=
  if base ≤ a ∧ a < base + count * size then some ((a - base) / size, (a - base) % size) else none

/-- Entries of a home-side page map: the layout of R115 with every group held (R151). -/
def homeMapSize (s : State) : Nat :=
  (s.sched.image.map fun p => (p.1.main.maxpos + 63) / 64 * p.1.main.layers * (p.1.main.hkv / p.1.main.hg)).getD 0

/-- The byte of a record's token log or page map (R151). -/
def recordByte (s : State) (r : HomeRec) (a : Nat) : Option Byte :=
  match inTable (Config.tokenLogAt r.data.handle).toNat r.data.maxlen 4 a with
  | some (i, o) => some ((leBytes 4 (tgetD r.tlog i 0).toNat).getD o 0)
  | none => (inTable (Config.homeMapAt r.data.handle).toNat (homeMapSize s) 4 a).map fun p =>
      (leBytes 4 ((tget r.map p.1).getD 0xFFFFFFFF)).getD p.2 0

/-- The byte of a prefix entry's page list (R148). -/
def listByte (e : PfxEntry) (a : Nat) : Option Byte :=
  (inTable (Config.pfxListAt e.index).toNat e.pages.length 4 a).map fun p => (leBytes 4 (e.pages.getD p.1 0)).getD p.2 0

/-- The byte a table of the device shows at range offset `a`, where one lies there. -/
def tableByte (s : State) (a : Nat) : Option Byte :=
  match inTable (cbase s rKvPtBaseLo rKvPtBaseHi) (cget s rKvPtCount) 32 a with
  | some (i, o) => some (((tget s.cache.pages i).map fun p => (pageBytes p).getD o 0).getD 0)
  | none =>
  match inTable (cbase s rFgDescBaseLo rFgDescBaseHi) (cget s rFgDescCount) 128 a with
  | some (i, o) => some (((s.forager.descs.find? fun d => d.idx == i).map fun d => (descBytes d).getD o 0).getD 0)
  | none =>
  match inTable (cbase s rFgHomeBaseLo rFgHomeBaseHi) (cget s rFgHomeCount) 64 a with
  | some (i, o) => some (((s.forager.recs.find? fun d => d.idx == i).map fun d => (recBytes d).getD o 0).getD 0)
  | none =>
  match inTable (cbase s rFgPfxBaseLo rFgPfxBaseHi) (cget s rFgPfxCount) 32 a with
  | some (i, o) => some (((s.forager.pfx.find? fun d => d.index == i).map fun d => (pfxBytes d).getD o 0).getD 0)
  | none =>
  match inTable (cbase s rRaRegBaseLo rRaRegBaseHi) (cget s rRaRegCount) 64 a with
  | some (i, o) => some (((tget s.remote.regions i).map fun r => (regionBytes r).getD o 0).getD 0)
  | none =>
  match inTable (cbase s rRaSlotBaseLo rRaSlotBaseHi) (cget s rRaSlotCount) 64 a with
  | some (i, o) => some (((tget s.remote.slots i).map fun r => (slotBytes r).getD o 0).getD 0)
  | none => (s.forager.recs.findSome? fun r => recordByte s r a).or (s.forager.pfx.findSome? fun e => listByte e a)

end Sys2Proof.Machine
end

