-- ==== Sys2Proof/Machine/Tiers.lean ====
section
/-!
DEFINITION. The tiered range (spec/10_memory_tiers.md): reading and writing it, placement (R227), pins (R230), the mover
(R231–R233), automatic demotion (R234), failures of stacks, channels and LUNs (R238, R241, R245).
-/

namespace Sys2Proof.Machine

def tileSize : Nat := 32768
/-- The tile that range offset `a` falls in. -/
def tileOf (a : Nat) : Nat := a / tileSize
/-- Lines are 64 bytes. -/
def lineOf (a : Nat) : Nat := a / 64

/-- [a, a+n) lies in the range's T tiles (R225). -/
def inRange (s : State) (a n : Nat) : Bool := decide (a + n ≤ s.tiers.total * tileSize)
/-- Range offset of the lens request port (R225, R173). -/
def lensPort (s : State) : Nat := s.tiers.total * tileSize

/-- Tier code of a place: 0 HBM, 1 DDR5, 2 NAND (R235). -/
def tierOf : Place → Nat
  | .hbm _ => 0 | .ddr _ => 1 | .nand _ => 2

/-- Every line at the place reads as poisoned: a failed stack, channel or LUN (R238, R241, R245). -/
def placeFailed (s : State) : Place → Bool
  | .hbm n => s.tiers.hbmFailed.getLsbD n
  | .ddr c => tgetD s.tiers.ddrState c 0 == 3
  | .nand l => ((tget s.tiers.luns l).map fun x => x.dead).getD false

def tileGet (s : State) (t : Nat) : Option TileSt := tget s.tiers.tiles t
def tileSet (s : State) (t : Nat) (x : TileSt) : State := { s with tiers := { s.tiers with tiles := tset s.tiers.tiles t x } }

/-- A line of the range is poisoned. -/
def linePoisoned (s : State) (line : Nat) : Bool :=
  s.tiers.poison.contains line || ((tileGet s (line / 512)).map fun x => placeFailed s x.place).getD false

/-- The byte at range offset `a`. -/
def rangeByte (s : State) (a : Nat) : Byte := (tableByte s a).getD (mget s.tiers.mem a)
/-- `n` bytes from `a`. -/
def rangeRead (s : State) (a n : Nat) : List Byte := (List.range n).map fun i => rangeByte s (a + i)
def rangeNat (s : State) (a n : Nat) : Nat := leNat (rangeRead s a n)

/-- The lines that [a, a+n) touches. -/
def linesOf (a n : Nat) : List Nat :=
  if n = 0 then [] else (List.range (lineOf (a + n - 1) - lineOf a + 1)).map (lineOf a + ·)
/-- The tiles that [a, a+n) touches. -/
def tilesOf (a n : Nat) : List Nat :=
  if n = 0 then [] else (List.range (tileOf (a + n - 1) - tileOf a + 1)).map (tileOf a + ·)

/-- Some line of [a, a+n) is poisoned. -/
def rangePoisoned (s : State) (a n : Nat) : Bool := (linesOf a n).any (linePoisoned s)

/-- Records an access to a tile that is not ZERO, in units of 256 beats (R234). -/
def touchTile (s : State) (t : Nat) : State :=
  match tileGet s t with
  | some x => tileSet s t { x with access := now s / 256 }
  | none => s

def lunGet (s : State) (l : Nat) : Lun := tgetD s.tiers.luns l {}
def lunSet (s : State) (l : Nat) (x : Lun) : State := { s with tiers := { s.tiers with luns := tset s.tiers.luns l x } }

/-- A read of a page of NAND is one read of the block that holds it (R244). -/
def countRead (s : State) (page : Nat) : State :=
  match tileGet s (page / 2) with
  | some { place := .nand l, .. } =>
    let x := lunGet s l
    lunSet s l { x with blocks := x.blocks.map fun e =>
      if e.2.pages.contains (page / 2, page % 2) then (e.1, { e.2 with reads := e.2.reads + 1 }) else e }
  | _ => s

/-- A read of [a, a+n): every tile it touches is accessed, and every NAND page it touches is read (R234, R244). -/
def touchRange (s : State) (a n : Nat) : State :=
  let s := (tilesOf a n).foldl touchTile s
  if n = 0 then s else ((List.range ((a + n - 1) / 16384 - a / 16384 + 1)).map (a / 16384 + ·)).foldl countRead s

/-! ## Placement (R227) -/

/-- Stacks of an affinity comb; 7 is any (R227, R235). -/
def combStacks (comb : Nat) : List Nat := if comb < 4 then (List.range 5).map (5 * comb + ·) else List.range 20

/-- The candidate with the most free tiles, ties to the lower number; none where all are full. -/
def mostFree (free : Tab Nat) (cands : List Nat) : Option Nat :=
  (cands.foldl (fun best c =>
    let n := tgetD free c 0
    match best with
    | some (_, m) => if m < n then some (c, n) else best
    | none => if 0 < n then some (c, n) else none) none).map (·.1)

def sumTab (t : Tab Nat) : Nat := t.foldl (fun n e => n + e.2) 0
def freeHbmTiles (s : State) : Nat := sumTab s.tiers.freeHbm
def freeDdrTiles (s : State) : Nat := sumTab s.tiers.freeDdr

/-- NAND takes new tiles: in service and not DEGRADED (R227, R245). -/
def nandOpen (s : State) : Bool := decide (0 < s.tiers.nandTiles) && !s.tiers.degraded

/-- The LUNs that still respond, in round-robin order from the next (R243). -/
def lunOrder (s : State) : List Nat :=
  let (later, earlier) := (s.tiers.luns.filter fun e => !e.2.dead).partition fun e => decide (s.tiers.nextLun ≤ e.1)
  (later ++ earlier).map (·.1)

/-! ## The NAND translation layer (R243–R245) -/

/-- The block of a table with the least key, the lower number of equal ones. -/
def leastBlock (key : NandBlock → Nat) : Tab NandBlock → Option (Nat × NandBlock)
  | [] => none
  | e :: t =>
    match leastBlock key t with
    | none => some e
    | some f => if key f.2 < key e.2 then some f else some e

/-- Blocks of a LUN with nothing programmed since their erase. -/
def freeOf (x : Lun) : Tab NandBlock := x.blocks.filter fun e => e.2.used == 0
/-- Free blocks of a LUN. -/
def freeBlocks (x : Lun) : Nat := (freeOf x).length

/-- The two blocks of a LUN, on two planes, that take the two pages of the next tile: the open ones, else the free blocks with the lowest
erase counts (R243, R244). A block's plane is its number modulo the planes. -/
def openBlocks (blockPages : Nat) (x : Lun) : Option (Nat × Nat) :=
  let room := fun (b : Nat) => ((tget x.blocks b).map fun k => decide (k.used < blockPages)).getD false
  match x.opened.filter fun p => room p.1 && room p.2 with
  | some p => some p
  | none =>
    (leastBlock (fun k => k.erase) (freeOf x)).bind fun a =>
      (leastBlock (fun k => k.erase) ((freeOf x).filter fun e => e.1 % x.planes != a.1 % x.planes)).map fun b => (a.1, b.1)

/-- One page of a block is programmed. -/
def programPage (hour t half : Nat) (k : NandBlock) : NandBlock :=
  { k with pages := k.pages ++ [(t, half)], used := k.used + 1, programmed := if k.used = 0 then hour else k.programmed }

/-- Programs a tile into a LUN, where it has room. -/
def programTile (s : State) (l t : Nat) : Option State :=
  let x := lunGet s l
  if x.dead then none
  else (openBlocks s.tiers.blockPages x).map fun p =>
    let put := programPage s.power.wearHours t
    lunSet s l { x with opened := some p, blocks := tmod (tmod x.blocks p.1 (put 0)) p.2 (put 1) }

/-- Programs a tile into the next LUN that has room (R243). -/
def placeNand (s : State) (t : Nat) : Option (Nat × State) :=
  (lunOrder s).findSome? fun l => (programTile s l t).map fun s => (l, { s with tiers := { s.tiers with nextLun := l + 1 } })

/-- A tile no longer lies in a LUN: its pages are not valid any more. -/
def dropTile (s : State) (l t : Nat) : State :=
  let x := lunGet s l
  lunSet s l { x with blocks := x.blocks.map fun e => (e.1, { e.2 with pages := e.2.pages.filter fun p => p.1 != t }) }

/-- The tile map after a tile of one LUN has been written to another. -/
def changeLun (s : State) (t l l' : Nat) : State :=
  let there := fun (p : Place) => if p = .nand l then .nand l' else p
  match tileGet s t with
  | some x => tileSet s t { x with place := there x.place, moving := x.moving.map there }
  | none => s

/-- A tile of a LUN is written once more, in its LUN where that has room, else in the next that has. -/
def rewriteTile (s : State) (l t : Nat) : Option State :=
  let s := dropTile s l t
  match programTile s l t with
  | some s => some s
  | none => (placeNand s t).map fun r => changeLun r.2 t l r.1

/-- The valid tiles of a block are written elsewhere; none where they find no room. -/
def emptyBlock (s : State) (l b : Nat) : Option State :=
  let x := lunGet s l
  (tget x.blocks b).bind fun k =>
    let opened := x.opened.filter fun p => p.1 != b && p.2 != b
    let s := lunSet s l { x with opened := opened, blocks := tmod x.blocks b fun k => { k with used := max 1 (max k.used s.tiers.blockPages) } }
    ((k.pages.map (·.1)).eraseDups).foldl (fun (o : Option State) t => o.bind fun s => rewriteTile s l t) (some s)

/-- A block is emptied and erased. DESIGN CHOICE (log 26): one whose valid tiles find no room stays as it is. -/
def collectBlock (s : State) (l b : Nat) : State :=
  match emptyBlock s l b with
  | none => s
  | some s =>
    let x := lunGet s l
    lunSet s l { x with blocks := tmod x.blocks b fun k => { erase := k.erase + 1 } }

/-- Garbage collection, while a LUN's free blocks are below 2 % of its good ones: the block with the fewest valid tiles (R243). -/
def garbageCollect (s : State) (l : Nat) : State :=
  let x := lunGet s l
  if x.dead || decide (x.blocks.length ≤ freeBlocks x * 50) then s
  else
    let open_ := fun (b : Nat) => (x.opened.map fun p => p.1 == b || p.2 == b).getD false
    match leastBlock (fun k => k.pages.length) (x.blocks.filter fun e => e.2.used != 0 && !open_ e.1) with
    | some e => collectBlock s l e.1
    | none => s

/-- The block that static wear levelling relocates: the lowest erase count of those that hold data, where the spread is above
`MT_NAND_CFG.WEAR` (R244). -/
def wornApart (s : State) (x : Lun) : Option Nat :=
  let held := x.blocks.filter fun e => !e.2.pages.isEmpty
  let top := held.foldl (fun m e => max m e.2.erase) 0
  match leastBlock (fun k => k.erase) held with
  | some e => if e.2.erase + cfld s rMtNandCfg 27 16 < top then some e.1 else none
  | none => none

/-- The rule of R244 that relocates a block holds. DESIGN CHOICE (log 26): the age is told by the powered hours of the wear log (R333). -/
def relocDue (s : State) (x : Lun) (b : Nat) (k : NandBlock) : RelocCause → Bool
  | .staticWear => wornApart s x == some b
  | .readDisturb => decide (cfld s rMtNandCfg 15 8 * 1024 ≤ k.reads)
  | .marginalRead retry percent => decide (4 < retry) || decide (75 < percent)
  | .retention => decide (k.programmed + 72 < s.power.wearHours)

/-- A block is relocated for its cause, where that holds (R244). -/
def relocateBlock (s : State) (l b : Nat) (c : RelocCause) : State :=
  let x := lunGet s l
  match tget x.blocks b with
  | some k => if !x.dead && k.used != 0 && relocDue s x b k c then collectBlock s l b else s
  | none => s

/-- Spare blocks below 1 % of the good blocks: the tier enters DEGRADED (R245). -/
def checkNandSpare (s : State) : State :=
  if !s.tiers.degraded && 0 < s.tiers.nandTiles && s.tiers.spare * 100 < s.tiers.goodBlocks then
    let s := { s with tiers := { s.tiers with degraded := true } }
    event (setEvent s rMtEvent 7) { sev := sevNotice, src := srcTiers, loc := 0x200 }
  else s

/-- A block retires once its valid tiles lie elsewhere: it is no longer good, and it takes one spare (R245). -/
def retireBlock (s : State) (l b : Nat) : State :=
  if (lunGet s l).dead then s
  else
    match emptyBlock s l b with
    | none => s
    | some s =>
      let x := lunGet s l
      let s := lunSet s l { x with blocks := terase x.blocks b }
      checkNandSpare { s with tiers := { s.tiers with spare := s.tiers.spare - 1, goodBlocks := s.tiers.goodBlocks - 1 } }

/-- The block of a LUN that holds one half of a tile. -/
def blockOf (s : State) (l t half : Nat) : Option Nat := ((lunGet s l).blocks.find? fun e => e.2.pages.contains (t, half)).map (·.1)

/-- A LUN stops responding: its tiles read as poisoned and all its blocks retire (R245). -/
def failLun (s : State) (l : Nat) : State :=
  let x := lunGet s l
  if x.dead || (tget s.tiers.luns l).isNone then s
  else
    let n := x.blocks.length
    let s := lunSet s l { dead := true }
    checkNandSpare { s with tiers := { s.tiers with spare := s.tiers.spare - n, goodBlocks := s.tiers.goodBlocks - n } }

/-! ## Physical tiles -/

/-- Takes a physical tile of a tier for tile `t`, with an affinity comb in HBM. -/
def takePlace (s : State) (tier comb t : Nat) : Option (Place × State) :=
  match tier with
  | 0 => (mostFree s.tiers.freeHbm (combStacks comb)).map fun c =>
      (.hbm c, { s with tiers := { s.tiers with freeHbm := tset s.tiers.freeHbm c (tgetD s.tiers.freeHbm c 0 - 1) } })
  | 1 => (mostFree s.tiers.freeDdr (List.range 12)).map fun c =>
      (.ddr c, { s with tiers := { s.tiers with freeDdr := tset s.tiers.freeDdr c (tgetD s.tiers.freeDdr c 0 - 1) } })
  | _ =>
    if nandOpen s && decide (0 < s.tiers.freeNand) then
      let placed : Option (Nat × State) := match placeNand s t with
        | some r => some r
        | none => placeNand ((s.tiers.luns.map fun (e : Nat × Lun) => e.1).foldl garbageCollect s) t
      placed.map fun (r : Nat × State) => (.nand r.1, { r.2 with tiers := { r.2.tiers with freeNand := s.tiers.freeNand - 1 } })
    else none

/-- Frees the physical tile of tile `t`; one on a failed stack, channel or LUN is lost. -/
def freePlace (s : State) (p : Place) (t : Nat) : State :=
  if placeFailed s p then s
  else
    match p with
    | .hbm c => { s with tiers := { s.tiers with freeHbm := tset s.tiers.freeHbm c (tgetD s.tiers.freeHbm c 0 + 1) } }
    | .ddr c => { s with tiers := { s.tiers with freeDdr := tset s.tiers.freeDdr c (tgetD s.tiers.freeDdr c 0 + 1) } }
    | .nand l => dropTile { s with tiers := { s.tiers with freeNand := s.tiers.freeNand + 1 } } l t

/-- The tier a tile is pinned to (R230). -/
def pinTier (s : State) (t : Nat) : Option Nat :=
  (s.tiers.pins.find? fun p => decide (p.first ≤ t) && decide (t < p.first + p.count)).map (·.tier)

/-- Affinity that the model image gives a tile; 7 is any (R227). -/
def tileComb (s : State) (t : Nat) : Nat :=
  match s.sched.model with
  | some (m, _, _) => ((m.sections.find? fun x => decide (x.first ≤ t) && decide (t < x.first + x.tiles)).map (·.comb)).getD 7
  | none => 7

/-- The tile lies in the cache pool (R111, R234). -/
def inPool (s : State) (t : Nat) : Bool :=
  let first := tileOf (cbase s rKvPoolBaseLo rKvPoolBaseHi)
  decide (first ≤ t) && decide (t < first + cget s rKvPoolTiles)

/-- Adds a request to the mover, whose queues together hold at most 1,024 (R231). DESIGN CHOICE (log 25): a source with no command to
refuse is dropped while they are full; for a pin that is PIN_SHORT. -/
def addMove (s : State) (rank dest comb : Nat) (tiles : List Nat) (cmd : Nat := 0) (client : Option Nat := none) : State :=
  if 1024 ≤ s.tiers.reqs.length then (if rank = 1 then setEvent s rMtEvent 3 else s)
  else
    let r : MoveReq := { id := s.tiers.nextReq, rank := rank, dest := dest, comb := comb, tiles := tiles, cmd := cmd, client := client }
    { s with tiers := { s.tiers with nextReq := s.tiers.nextReq + 1, reqs := s.tiers.reqs ++ [r] } }

/-- The client that a pin's move is charged to: the model's owner, the request's client, else PF0, which starts jobs (R221, log 42). -/
def pinClient (s : State) (t : Nat) : Option Nat :=
  (s.tiers.pins.find? fun p => decide (p.first ≤ t) && decide (t < p.first + p.count)).map fun p =>
    match p.owner with
    | .model => (s.sched.model.map fun m => m.2.1).getD 0
    | .tokenLog h => ((s.forager.recs.find? fun r => r.data.handle == h).map fun r => r.data.client).getD 0
    | _ => 0

/-- The tiers in the order R227 tries them, with rule 1's pinned tier first. -/
def placeOrder (s : State) (t : Nat) : List Nat :=
  (pinTier s t).toList ++
  (if cget s rMtHbmLow < freeHbmTiles s then [0] else []) ++
  (if cget s rMtDdrLow < freeDdrTiles s then [1] else []) ++
  (if nandOpen s then [2] else []) ++ [0, 1]

def firstPlace (s : State) (comb t : Nat) : List Nat → Option (Place × State)
  | [] => none
  | k :: ks =>
    match takePlace s k comb t with
    | some r => some r
    | none => firstPlace s comb t ks

/-- Gives a ZERO tile a physical tile (R227). A pinned tile placed elsewhere is short and moves as soon as it can (R230). -/
def backTile (s : State) (t : Nat) : Option State :=
  match tileGet s t with
  | some _ => some s
  | none =>
    match firstPlace s (tileComb s t) t (placeOrder s t) with
    | none => none
    | some (p, s) =>
      let s := tileSet s t { place := p, access := now s / 256 }
      match pinTier s t with
      | some k => if tierOf p = k then some s else some (addMove (setEvent s rMtEvent 3) 1 k 7 [t] 0 (pinClient s t))
      | none => some s

/-! ## Writing -/

def poisonLine (s : State) (line : Nat) : State := { s with tiers := { s.tiers with poison := insertNat line s.tiers.poison } }
def cleanLine (s : State) (line : Nat) : State := { s with tiers := { s.tiers with poison := s.tiers.poison.filter (· != line) } }

/-- Writes bytes that lie within one line. A whole clean line clears poison, part of a line leaves it (R341). The answer is
false where no tile was free (R227). -/
def writeInLine (s : State) (a : Nat) (bs : List Byte) (poison : Bool) : State × Bool :=
  match backTile s (tileOf a) with
  | none => (setEvent s rMtEvent 1, false)
  | some s =>
    let s := touchTile { s with tiers := { s.tiers with mem := mwrite s.tiers.mem a bs } } (tileOf a)
    let line := lineOf a
    if poison then (poisonLine s line, true)
    else if bs.length = 64 then (cleanLine s line, true)
    else (s, true)

/-- Writes bytes line by line; stops at the first line no tile could be found for. -/
def rangeWriteF : Nat → State → Nat → List Byte → Bool → State × Bool
  | 0, s, _, _, _ => (s, true)
  | n + 1, s, a, bs, poison =>
    if bs.isEmpty then (s, true)
    else
      let k := 64 - a % 64
      let (s, ok) := writeInLine s a (bs.take k) poison
      if ok then rangeWriteF n s (a + k) (bs.drop k) poison else (s, false)

def rangeWrite (s : State) (a : Nat) (bs : List Byte) (poison : Bool := false) : State × Bool :=
  rangeWriteF (bs.length + 1) s a bs poison

/-- A write of the device to its own structures, whose failure for want of a tile is the tile event alone. -/
def rangePut (s : State) (a : Nat) (bs : List Byte) : State := (rangeWrite s a bs).1

/-- The device changes an entry of a table or list of its own that State holds as a structure: its tiles are backed and accessed as by
any write (R226, R227, R234). -/
def touchEntry (s : State) (a n : Nat) : State :=
  (tilesOf a n).foldl (fun s t => touchTile ((backTile s t).getD (setEvent s rMtEvent 1)) t) s

/-- The device writes such an entry afresh: the lines that it covers whole hold no poison any more (R341). -/
def touchOwn (s : State) (a n : Nat) : State :=
  let s := touchEntry s a n
  { s with tiers := { s.tiers with poison := s.tiers.poison.filter fun l => decide (64 * l < a) || decide (a + n < 64 * (l + 1)) } }

/-- A tile becomes ZERO: its places are freed, its bytes and its poison are gone (R226, R341). -/
def zeroTile (s : State) (t : Nat) : State :=
  match tileGet s t with
  | none => s
  | some x =>
    let s := freePlace s x.place t
    let s := match x.moving with
      | some p => freePlace s p t
      | none => s
    { s with tiers := { s.tiers with
        tiles := terase s.tiers.tiles t
        mem := mclear s.tiers.mem (t * tileSize) tileSize
        poison := s.tiers.poison.filter fun l => l / 512 != t
        moves := s.tiers.moves.filter fun m => m.tile != t } }

/-- Every tile that is not ZERO and touches [a, a+n). -/
def backedTiles (s : State) (a n : Nat) : List Nat :=
  if n = 0 then []
  else (s.tiers.tiles.map (·.1)).filter fun t => decide (tileOf a ≤ t) && decide (t ≤ tileOf (a + n - 1))

def zeroRange (s : State) (a n : Nat) : State := (backedTiles s a n).foldl zeroTile s

/-! ## Who may reach what -/

def overlaps (a n b m : Nat) : Bool := decide (a < b + m) && decide (b < a + n)
def within (a n b m : Nat) : Bool := decide (b ≤ a) && decide (a + n ≤ b + m)

/-- [a, a+n) lies in an allocation of client `f`: one of its contexts (R201), or the model image it owns, as it was loaded or in one of its
weight sections (R197, R229). -/
def clientOwns (s : State) (f a n : Nat) : Bool :=
  s.sched.ctxs.any (fun e => e.2.client == f && within a n e.2.base e.2.size) ||
  (match s.sched.model with
   | some (m, o, _) => o == f &&
      ((s.sec.seals.any fun x => x.what == .model && within a n x.lo (x.hi - x.lo)) ||
        m.sections.any fun x => within a n (x.first * tileSize) (x.tiles * tileSize))
   | none => false)

/-- A function may name [a, a+n): PF0 may name all of the range (R229). -/
def fnMay (s : State) (f a n : Nat) : Bool := f == 0 || clientOwns s f a n

/-- Some tile of [a, a+n) is protected: a PROT region that is not FREE, or the swap record of a protected context (R365). -/
def protectedRange (s : State) (a n : Nat) : Bool :=
  s.remote.regions.any (fun e => e.2.prot && overlaps a n e.2.base e.2.length) ||
  s.sched.ctxs.any (fun e => e.2.prot && e.2.swapRuns.any fun r => overlaps a n (r.1 * tileSize) (r.2 * tileSize))

/-- [a, a+n) meets a seal (R360). -/
def sealedRange (s : State) (a n : Nat) : Bool := s.sec.seals.any fun x => overlaps a n x.lo (x.hi - x.lo)

/-- A write into a sealed range was refused (R360). -/
def sealRefused (s : State) : State := setEvent s rScEvent 2

/-! ## Accounting of tier traffic (R221) -/

/-- Charges `n` bytes read or written at `a` to a client, by the tier the tile lies in; a ZERO tile is in no tier. -/
def chargeAccess (s : State) (client a n : Nat) (wr : Bool) : State :=
  match tileGet s (tileOf a) with
  | none => s
  | some x => charge s client (2 + 2 * tierOf x.place + b2n wr) (6 + 2 * tierOf x.place + b2n wr) n

/-- Charges every line of a range. -/
def chargeRange (s : State) (client a n : Nat) (wr : Bool) : State :=
  (linesOf a n).foldl (fun s l => chargeAccess s client (l * 64) 64 wr) s

/-! ## Pins (R230) -/

/-- Pins tiles; those that lie elsewhere are moved at once, ahead of every other source. -/
def addPin (s : State) (first count tier : Nat) (o : PinOwner) : State :=
  if count = 0 then s
  else
    let s := { s with tiers := { s.tiers with pins := s.tiers.pins ++ [{ first := first, count := count, tier := tier, owner := o }] } }
    let away := (s.tiers.tiles.filter fun e =>
      decide (first ≤ e.1) && decide (e.1 < first + count) && tierOf e.2.place != tier).map (·.1)
    if away.isEmpty then s else addMove s 1 tier 7 away 0 (pinClient s first)

def dropPins (s : State) (p : PinOwner → Bool) : State :=
  { s with tiers := { s.tiers with pins := s.tiers.pins.filter fun x => !p x.owner } }

/-! ## Memory errors (R238, R241) -/

/-- LOC of a line in HBM or DDR5 (R350). -/
def placeLoc : Place → Nat
  | .hbm n => n | .ddr c => 0x100 + c | .nand _ => 0x200

/-- A stack fails in service: every line on it reads as poisoned (R238), a hard event (R346). -/
def failStack (s : State) (n : Nat) : State :=
  if s.tiers.hbmFailed.getLsbD n || s.tiers.hbmOut.getLsbD n then s
  else
    let s := { s with tiers := { s.tiers with
      hbmFailed := s.tiers.hbmFailed ||| BitVec.ofNat 20 (2 ^ n), freeHbm := terase s.tiers.freeHbm n } }
    let s := event (setEvent s rMtEvent 5) { sev := sevFault, src := srcTiers, loc := n }
    hardEvent s 6

/-- A DDR5 channel fails in service (R241). -/
def failChannel (s : State) (c : Nat) : State :=
  if tgetD s.tiers.ddrState c 0 != 1 then s
  else
    let s := { s with tiers := { s.tiers with
      ddrState := tset s.tiers.ddrState c 3, freeDdr := terase s.tiers.freeDdr c } }
    event (setEvent s rMtEvent 6) { sev := sevError, src := srcTiers, loc := 0x100 + c } 256

/-- An uncorrectable line of DDR5 counts towards the 16 that its channel may have in a beat (R241). -/
def countDdrLine (s : State) : Place → State
  | .ddr c =>
    let n := tgetD s.tiers.ddrLines c 0 + 1
    let s := { s with tiers := { s.tiers with ddrLines := tset s.tiers.ddrLines c n } }
    if 16 < n then failChannel s c else s
  | _ => s

/-- The counts of uncorrectable lines begin anew with each beat. -/
def ddrBoundary (s : State) : State := { s with tiers := { s.tiers with ddrLines := [] } }

/-- A line of a tile met a corrected or an uncorrectable error as it was read or scrubbed. One of HBM or DDR5 is counted and reported
(R238, R241, R346). One of NAND, which R247 does not count, poisons the line and retires the block that holds it (R245). -/
def memoryEcc (s : State) (line : Nat) (e : Ecc) : State :=
  match tileGet s (line / 512) with
  | none => s
  | some x =>
    match e, x.place with
    | .clean, _ => s
    | .corrected, .nand _ => s
    | .corrected, p => event (satAdd s rMtEccCount 15 0 1) { sev := sevCorrected, src := srcTiers, loc := placeLoc p } 1
    | .uncorrectable, .nand l =>
      let s := poisonLine s line
      ((blockOf s l (line / 512) (line % 512 / 256)).map (retireBlock s l)).getD s
    | .uncorrectable, p =>
      countDdrLine (event (poisonLine (satAdd s rMtEccCount 31 16 1) line)
        { sev := sevError, src := srcTiers, status := stPoisoned, loc := placeLoc p } 64) p

/-- The findings on the lines of `n` bytes at `a` of the range, by line from the first. -/
def memoryFindings (s : State) (a n : Nat) (found : Findings) : State :=
  found.foldl (fun s f => if lineOf a + f.1 ≤ lineOf (a + n - 1) && n != 0 then memoryEcc s (lineOf a + f.1) f.2 else s) s

/-! ## The mover (R231–R233) -/

/-- Sorts a request's tiles: those that lie in the destination count as moved, those MOVING to it are joined, ZERO tiles drop
out, and a DISCARD of a tile at rest acts (R233, R235). A tile that has been pinned to another tier stays (R230); DESIGN CHOICE (log 25):
it counts as abandoned. -/
def settleTile (s : State) (r : MoveReq) (t : Nat) : State × MoveReq :=
  match tileGet s t with
  | none => (s, { r with tiles := r.tiles.filter (· != t) })
  | some x =>
    match x.moving with
    | none =>
      if (pinTier s t).any (· != r.dest) then (s, { r with tiles := r.tiles.filter (· != t), abandoned := r.abandoned + 1 })
      else if r.dest = 3 then (zeroTile s t, { r with tiles := r.tiles.filter (· != t), moved := r.moved + 1 })
      else if tierOf x.place = r.dest then (s, { r with tiles := r.tiles.filter (· != t), moved := r.moved + 1 })
      else (s, r)
    | some p =>
      if r.dest != 3 && tierOf p = r.dest then
        (s, { r with tiles := r.tiles.filter (· != t), waiting := r.waiting ++ [t] })
      else (s, r)

def settleReq (s : State) (r : MoveReq) : State × MoveReq :=
  r.tiles.foldl (fun p t => settleTile p.1 p.2 t) (s, r)

/-- Status of a finished request (R235, R237). -/
def moveStatus (r : MoveReq) : Half :=
  if 0 < r.abandoned then stNoResource else if r.poisoned then stPoisoned else stOk

/-- Settles every request and ends those with nothing left to move. -/
def settleMoves (s : State) : State :=
  s.tiers.reqs.foldl (fun s r0 =>
    match s.tiers.reqs.find? (fun r => r.id == r0.id) with
    | none => s
    | some r =>
      let (s, r) := settleReq s r
      if r.tiles.isEmpty && r.waiting.isEmpty then
        let s := { s with tiers := { s.tiers with reqs := s.tiers.reqs.filter fun x => x.id != r.id } }
        if r.cmd = 0 then s else finishCmd s r.cmd (moveStatus r) r.moved
      else { s with tiers := { s.tiers with reqs := s.tiers.reqs.map fun x => if x.id == r.id then r else x } }) s

/-- The tiles a request may start now: not MOVING, its queue below 1,024 in flight and the device below 4,096 (R231). -/
def canStart (s : State) (r : MoveReq) (t : Nat) : Bool :=
  match tileGet s t with
  | some x =>
    x.moving.isNone && decide (s.tiers.moves.length < 4096) &&
    decide ((s.tiers.moves.filter fun m => m.queue == tierOf x.place * 3 + r.dest).length < 1024)
  | none => false

/-- Tiles that automatic demotion or pin room may take from a tier, oldest access first (R234). -/
def demotable (s : State) (tier : Nat) : List Nat :=
  let ok := s.tiers.tiles.filter fun e =>
    tierOf e.2.place == tier && e.2.moving.isNone && (pinTier s e.1).isNone && !inPool s e.1 &&
    !s.tiers.reqs.any fun r => r.tiles.contains e.1
  (sortBy (fun e => e.2.access) ok).map (·.1)

/-- Demotes HBM tiles to DDR5, or DDR5 tiles to NAND, `n` of them (R234). -/
def demote (s : State) (tier n : Nat) : State :=
  let ts := (demotable s tier).take n
  if ts.isEmpty then s else addMove (setEvent s rMtEvent 0) 6 (tier + 1) 7 ts

/-- The affinity of a tile's move: the request's for OP_PREFETCH and OP_MIGRATE_TILES, else the model image's (R227). -/
def moveComb (s : State) (r : MoveReq) (t : Nat) : Nat := if r.rank = 4 ∨ r.rank = 5 then r.comb else tileComb s t

/-- The heads of the six queues, each the first tile of its queue by rank, order of arrival and the request's order (R231), where it may
start. -/
def moveHeads (s : State) : List (MoveReq × Nat) :=
  ((sortBy (fun r => r.rank) s.tiers.reqs).flatMap fun r => (r.tiles.filter (canStart s r)).map fun t => (r, t)).foldl
    (fun (hs : List (MoveReq × Nat)) h =>
      let queue := fun (h : MoveReq × Nat) => (tileGet s h.2).map fun x => tierOf x.place * 3 + h.1.dest
      if hs.any fun x => queue x == queue h then hs else hs ++ [h]) []

/-- A pin's move whose tier has no free tile (R230). -/
def stuckPin (s : State) (h : MoveReq × Nat) : Bool := h.1.rank == 1 && (takePlace s h.1.dest (moveComb s h.1 h.2) h.2).isNone

/-- A demotion out of a tier is queued or in flight. -/
def roomComing (s : State) (tier : Nat) : Bool :=
  s.tiers.reqs.any (fun r => r.rank == 6 && r.dest == tier + 1) || s.tiers.moves.any fun m => m.queue == tier * 3 + tier + 1

/-- A stuck pin for which no more room can be asked now: the other queues go on (R230, R231). -/
def waitsForRoom (s : State) (h : MoveReq × Nat) : Bool :=
  stuckPin s h && (decide (2 ≤ h.1.dest) || roomComing s h.1.dest || (demotable s h.1.dest).isEmpty)

/-- The request and tile the mover takes next: the head of a queue. -/
def nextMove (s : State) : Option (MoveReq × Nat) := (moveHeads s).find? fun h => !waitsForRoom s h

/-- A move starts (R232), or is abandoned for want of a free tile in its tier; a pin move waits and makes room (R230). -/
def startMove (s : State) : State :=
  let s := if (moveHeads s).any (stuckPin s) then setEvent s rMtEvent 3 else s
  match nextMove s with
  | none => s
  | some (r, t) =>
    match tileGet s t with
    | none => s
    | some x =>
      match takePlace s r.dest (moveComb s r t) t with
      | some (p, s) =>
        let s := tileSet s t { x with moving := some p }
        let s := { s with tiers := { s.tiers with
          moves := s.tiers.moves ++ [{ tile := t, queue := tierOf x.place * 3 + r.dest, client := r.client }]
          reqs := s.tiers.reqs.map fun q =>
            if q.id == r.id then { q with tiles := q.tiles.filter (· != t), waiting := q.waiting ++ [t] } else q } }
        settleMoves s
      | none =>
        if r.rank = 1 then demote s r.dest 1
        else
          let s := setEvent s rMtEvent 2
          settleMoves { s with tiers := { s.tiers with reqs := s.tiers.reqs.map fun q =>
            if q.id == r.id then { q with tiles := q.tiles.filter (· != t), abandoned := q.abandoned + 1 } else q } }

/-- Frames of a tile (R110): those of the layout its pages were written with. -/
def framesPerTile (s : State) (plain : Bool) : Nat :=
  (s.sched.image.bind fun i => if plain then i.1.prot.map fun l => l.fpt else some i.1.main.fpt).getD 1

/-- The bytes of a tile that moved, read from one tier and written to another: charged frame by frame to the clients of the pages it
holds, the rest to the client of its first frame (R221, R223); a tile without pages to the client of the request. -/
def chargeMove (s : State) (t src dst : Nat) (client : Option Nat) : State :=
  let both := fun (s : State) (c n : Nat) => charge (charge s c (2 + 2 * src) (6 + 2 * src) n) c (3 + 2 * dst) (7 + 2 * dst) n
  match sortBy (fun (p : Page) => p.frame) ((s.cache.pages.map (·.2)).filter fun p => tileOf p.frame == t) with
  | [] => match client with
    | some c => both s c tileSize
    | none => s
  | p :: ps =>
    let frame := tileSize / max 1 (framesPerTile s p.plain)
    let s := (p :: ps).foldl (fun s q => both s q.client frame) s
    both s p.client (tileSize - frame * (ps.length + 1))

/-- A move switches the tile map entry and frees the source; lines that were poisoned or failed their ECC in the copy stay poisoned
(R232), and the findings of the copy count as those of any read (R238, R241, R245). -/
def switchMove (s : State) (t : Nat) (found : Findings) : State :=
  let s := if ((tileGet s t).bind fun x => x.moving).isSome then
      memoryFindings (countRead (countRead s (2 * t)) (2 * t + 1)) (t * tileSize) tileSize found
    else s
  match tileGet s t with
  | none => s
  | some x =>
    match x.moving with
    | none => s
    | some p =>
      let lost := if placeFailed s x.place then List.range 512 else []
      let hadPoison := !lost.isEmpty || s.tiers.poison.any fun l => l / 512 == t
      let client := (s.tiers.moves.find? fun m => m.tile == t).bind fun m => m.client
      let s := chargeMove s t (tierOf x.place) (tierOf p) client
      let s := freePlace s x.place t
      let s := tileSet s t { x with place := p, moving := none }
      let s := lost.foldl (fun s i => poisonLine s (t * 512 + i)) s
      let s := satAdd s rMtMoved 31 0 1
      settleMoves { s with tiers := { s.tiers with
        moves := s.tiers.moves.filter fun m => m.tile != t
        reqs := s.tiers.reqs.map fun q =>
          if q.waiting.contains t then
            { q with waiting := q.waiting.filter (· != t), moved := q.moved + 1, poisoned := q.poisoned || hadPoison }
          else q } }

/-- Tiles of a tier on their way out or queued to leave it. -/
def outgoing (s : State) (tier : Nat) : Nat :=
  (s.tiers.tiles.filter fun e => tierOf e.2.place == tier &&
    (e.2.moving.isSome || s.tiers.reqs.any fun r => r.tiles.contains e.1 && r.dest != tier)).length

/-- Automatic demotion at a boundary (R234). -/
def autoDemote (s : State) : State :=
  if cfld s rMtCfg 0 0 = 0 then s
  else
    let s :=
      if freeHbmTiles s < cget s rMtHbmLow && 0 < s.tiers.ddrTiles then
        demote s 0 (cget s rMtHbmHigh - (freeHbmTiles s + outgoing s 0))
      else s
    if freeDdrTiles s < cget s rMtDdrLow && nandOpen s then
      demote s 1 (cget s rMtDdrHigh - (freeDdrTiles s + outgoing s 1))
    else s

end Sys2Proof.Machine
end

