-- ==== Sys2Proof/Machine/Cells.lean ====
section
/-!
DEFINITION. Cells, workers, local memory, faults, messages and barriers (spec/03_cells_and_grid.md), and the meanings of the
cell instructions of classes 0x0 to 0x5, 0x7, 0x9 (but for the semaphores) and 0xA.
-/

namespace Sys2Proof.Machine

/-! ## Reading and setting -/

def cellGet (s : State) (c : Nat) : Cell := tgetD s.grid.cells c {}
def cellSet (s : State) (c : Nat) (x : Cell) : State := { s with grid := { s.grid with cells := tset s.grid.cells c x } }
def workerGet (s : State) (c w : Nat) : Worker := tgetD (cellGet s c).workers w {}
def workerSet (s : State) (c w : Nat) (x : Worker) : State :=
  let cell := cellGet s c
  cellSet s c { cell with workers := tset cell.workers w x }

/-- The cell's group is powered and ready (R6, R320). -/
def cellOn (s : State) (c : Nat) : Bool := s.power.ready.getLsbD (c / 32)

/-- The window of worker `w`'s context on cell `c` (R45). -/
def winOf (s : State) (c w : Nat) : Option Win := (cellGet s c).windows.find? fun x => x.workers.getLsbD w
/-- The window of context `ctx` on cell `c`. -/
def winOfCtx (s : State) (c ctx : Nat) : Option Win := (cellGet s c).windows.find? fun x => x.ctx == ctx

/-- g register `n`: g0 reads as zero (R41). -/
def gGet (x : Worker) (n : Nat) : Nat := if n = 0 then 0 else (tgetD x.g n 0).toNat
/-- Writes g register `n`: writes to g0 are discarded. -/
def gSet (x : Worker) (n v : Nat) : Worker :=
  if n = 0 then x else { x with g := tsetD x.g n (BitVec.ofNat 64 v) 0 }
def vGet (x : Worker) (n : Nat) : VReg := tgetD x.v n 0
def vSet (x : Worker) (n : Nat) (v : VReg) : Worker := { x with v := tsetD x.v n v 0 }

def setG (s : State) (c w n v : Nat) : State := workerSet s c w (gSet (workerGet s c w) n v)
def setV (s : State) (c w n : Nat) (v : VReg) : State := workerSet s c w (vSet (workerGet s c w) n v)
def setPc (s : State) (c w pc : Nat) : State := workerSet s c w { workerGet s c w with pc := BitVec.ofNat 64 pc }

/-- A worker starts to wait (R42). -/
def setWait (s : State) (c w : Nat) (k : Wait) : State :=
  workerSet s c w { workerGet s c w with state := .waiting, wait := k }
/-- A worker of the context has left the states that R203 names. -/
def stir (s : State) (ctx : Nat) : State :=
  { s with sched := { s.sched with ctxs := tmod s.sched.ctxs ctx fun x => { x with stirred := true } } }

/-- When a woken worker's results are certainly there (R43, R44): a RECV that waited has no stated latency; else not before the next
cclk. -/
def wokenAt (issues : Nat) (x : Worker) : Option Nat :=
  match x.wait with
  | .recv .. => none
  | _ => x.readyAt.map (max · (issues + 1))

/-- A waiting worker becomes READY (R42). -/
def wake (s : State) (c w : Nat) : State :=
  let x := workerGet s c w
  if x.state == .waiting then
    let s := workerSet s c w { x with state := .ready, wait := .none, readyAt := wokenAt (cellGet s c).issues x }
    match winOf s c w with
    | some win => stir s win.ctx
    | none => s
  else s

/-- Client of a context. -/
def ctxClient (s : State) (ctx : Nat) : Nat := ((tget s.sched.ctxs ctx).map fun x => x.client).getD 0

/-! ## Local memory (R45–R49) -/

def cellPoisoned (s : State) (c line : Nat) : Bool := (cellGet s c).poison.contains line
/-- Some line of [a, a+n) of the cell's memory is poisoned. -/
def cellRangePoisoned (s : State) (c a n : Nat) : Bool := (linesOf a n).any (cellPoisoned s c)
def cellRead (s : State) (c a n : Nat) : List Byte := mread (cellGet s c).mem a n

/-- Writes within one line of local memory: a whole clean line clears its poison, part of a line leaves it (R341). -/
def cellWriteLine (s : State) (c a : Nat) (bs : List Byte) (poison : Bool) : State :=
  let x := cellGet s c
  let line := lineOf a
  let p := if poison then insertNat line x.poison
    else if bs.length = 64 then x.poison.filter (· != line) else x.poison
  cellSet s c { x with mem := mwrite x.mem a bs, poison := p }

def cellWriteF : Nat → State → Nat → Nat → List Byte → Bool → State
  | 0, s, _, _, _, _ => s
  | n + 1, s, c, a, bs, poison =>
    if bs.isEmpty then s
    else
      let k := 64 - a % 64
      cellWriteF n (cellWriteLine s c a (bs.take k) poison) c (a + k) (bs.drop k) poison

/-- Writes bytes to local memory, line by line. -/
def cellWrite (s : State) (c a : Nat) (bs : List Byte) (poison : Bool := false) : State :=
  cellWriteF (bs.length + 1) s c a bs poison

/-- The counts and events of an ECC finding in a cell's local memory or codebook store (R48). -/
def cellEccNote (s : State) (c : Nat) : Ecc → State
  | .clean => s
  | .corrected =>
    event (setEvent (satAdd s (rClEccCount c) 15 0 1) (rClEvent c) 2) { sev := sevCorrected, src := srcCell, loc := c } 1
  | .uncorrectable =>
    event (setEvent (satAdd s (rClEccCount c) 31 16 1) (rClEvent c) 3)
      { sev := sevError, src := srcCell, status := stPoisoned, loc := c } 64

/-- An ECC finding on a line of local memory: an uncorrectable error poisons it (R48). -/
def cellEcc (s : State) (c line : Nat) (e : Ecc) : State :=
  let x := cellGet s c
  let s := if e = .uncorrectable then cellSet s c { x with poison := insertNat line x.poison } else s
  cellEccNote s c e

/-- The findings on the lines of `n` bytes at `a` of local memory, by line from the first (R48). -/
def cellFindings (s : State) (c a n : Nat) (found : Findings) : State :=
  found.foldl (fun s f => if lineOf a + f.1 ≤ lineOf (a + n - 1) && n != 0 then cellEcc s c (lineOf a + f.1) f.2 else s) s

/-! ## Faults (R63, R64) -/

def causeIllegal : Nat := 1
def causeBounds : Nat := 2
def causeStoreCode : Nat := 3
def causeFetchBounds : Nat := 4
def causeMisaligned : Nat := 5
def causePoisoned : Nat := 6
def causeBarrier : Nat := 7
def causeUnbound : Nat := 8
def causeDestOff : Nat := 9

/-- The workers that a predicate names stop waiting on the cell's channels, ports and barriers. -/
def dropWaiters (s : State) (c : Nat) (p : Nat → Bool) : State :=
  let x := cellGet s c
  let s := cellSet s c { x with
    chans := x.chans.map fun e => (e.1, { e.2 with waiters := e.2.waiters.filter fun q => !p q.1 })
    ports := x.ports.map fun e => (e.1, { e.2 with waiters := e.2.waiters.filter fun q => !p q.1 }) }
  { s with grid := { s.grid with
      barriers := s.grid.barriers.map fun e => (e.1, { e.2 with waiting := e.2.waiting.filter fun q => !(q.1 == c && p q.2) }) } }

/-- Sets every worker of a context on a cell to IDLE, but for those `keep` names (R42, R63). -/
def idleWorkers (s : State) (c ctx : Nat) (keep : Nat → Bool) : State :=
  match winOfCtx s c ctx with
  | none => s
  | some win =>
    let mine := fun w => win.workers.getLsbD w && !keep w
    let s := dropWaiters s c mine
    let x := cellGet s c
    cellSet s c { x with
      workers := x.workers.map fun e => if mine e.1 then (e.1, { e.2 with state := .idle, wait := .none }) else e }

/-- The context is to be aborted at the next boundary, with the first cause's status (R63, R216). -/
def abortCtx (s : State) (ctx : Nat) (st : Half) : State :=
  { s with sched := { s.sched with
      ctxs := tmod s.sched.ctxs ctx fun x => if x.abort.isSome then x else { x with abort := some st } } }

/-- A collective of the context has ended with a status (R127, R34 kind 4). -/
def collStatus (s : State) (ctx : Nat) (st : Half) : State :=
  { s with sched := { s.sched with ctxs := tmod s.sched.ctxs ctx fun x => { x with coll := some st } } }

/-- A worker takes a fault: FAULTED, its context's other workers on the cell IDLE, the record, the flag, and the abort to come. -/
def takeFault (s : State) (c w pc cause addr : Nat) : State :=
  match winOf s c w with
  | none => s
  | some win =>
    let s := workerSet s c w { workerGet s c w with state := .faulted, wait := .none, pc := BitVec.ofNat 64 pc }
    let s := idleWorkers s c win.ctx (· == w)
    let s := (errRecord s (rClFault c) (w * 4096 + cause) [(rClFaultPc c, pc % 2 ^ 32), (rClFaultAddr c, addr % 2 ^ 32)]).1
    abortCtx (setEvent s (rClEvent c) 0) win.ctx stContextAborted

/-! ## Issue (R43, R45, R50, R51) -/

/-- What an instruction's own effect is given: the cell, the worker, its window, and the offset of the instruction. -/
structure Issue where
  c : Nat
  w : Nat
  win : Win
  pc : Nat
  i : Insn

/-- The worker is READY, with a window whose context is RESIDENT (R209, R210). -/
def runs (s : State) (c w : Nat) : Bool :=
  (workerGet s c w).state == .ready &&
  (match winOf s c w with
   | some win => ((tget s.sched.ctxs win.ctx).map fun x => x.state == .resident).getD false
   | none => false)

/-- cclk from an instruction's issue until its result can be used (R44); 1 where it has none, and no answer where R44 lists none. -/
def resultDelay (r : Row) (i : Insn) : Option Nat :=
  match r with
  | .scalarAlu =>
    match iOpNum i % 16 with
    | 2 | 3 => some 4
    | 4 | 5 => some 24
    | _ => some 1
  | .vectorAlu => if iOpNum i < 0x0B then some 4 else if iOpNum i < 0x10 then some 6 else none
  | .scalarLoad | .amoadd | .amocas | .vld => some 6
  | .vectorReduce | .vperm | .vext => some 8
  | .recv => some 4
  | .sysRd => some 2
  | .vbcast | .jal | .jalr | .probe | .semtry | .semrd | .semcancel | .semheld | .mstat => none
  | _ => some 1

/-- How far a worker stands behind the last one to issue in the search of R43. -/
def turnOf (last w : Nat) : Nat := (w + 15 - last) % 16

/-- The issue unit may choose the worker (R43): none before it in the search is READY with its operands certainly there. A matrix
instruction that a full queue holds is passed over (R74), so with a full queue any worker may be. -/
def myTurn (s : State) (c w : Nat) : Bool :=
  let x := cellGet s c
  decide (16 ≤ x.engine.queue.length) ||
  !(List.range 16).any fun v => decide (turnOf x.lastIssued v < turnOf x.lastIssued w) && runs s c v &&
    (match (workerGet s c v).readyAt with
     | some n => decide (n ≤ x.issues)
     | none => false)

/-- The worker may issue: it runs, on a powered cell, and it is its turn. -/
def canIssue (s : State) (c w : Nat) : Bool := runs s c w && cellOn s c && myTurn s c w

/-- The issue of an instruction as the issue unit keeps it: the last worker to issue, and when its result will be there (R43, R44). -/
def noteIssue (s : State) (c w : Nat) (i : Insn) : State :=
  let x := cellGet s c
  let k := workerGet s c w
  let d := (rowOf i).bind fun r => resultDelay r i
  let at_ := match k.readyAt, d with
    | some n, some d => some (max n (x.issues + d))
    | _, _ => none
  cellSet s c { x with lastIssued := w, issues := x.issues + 1, workers := tset x.workers w { k with readyAt := at_ } }

/-- An instruction issues: the fetch checks, with what ECC found on its line, legality, then its own effect with the PC already past
it. -/
def issueWith (s : State) (c w : Nat) (i : Insn) (effect : State → Issue → State) : State :=
  match winOf s c w with
  | none => s
  | some win =>
    if !canIssue s c w then s
    else
      let pc := (workerGet s c w).pc.toNat
      let s := charge (noteIssue s c w i) (ctxClient s win.ctx) 0 0 1
      if win.code ≤ pc then takeFault s c w pc causeFetchBounds pc
      else
        let s := cellEcc s c (lineOf (win.base + pc)) i.fetch
        if cellPoisoned s c (lineOf (win.base + pc)) then takeFault s c w pc causePoisoned pc
        else
        match rowOf i with
        | none => takeFault s c w pc causeIllegal 0
        | some _ => effect (setPc s c w (pc + 8)) { c := c, w := w, win := win, pc := pc, i := i }

/-- The meaning of a cell instruction row: a legal word of another row is no such command; an illegal word faults under any row. -/
def cellInsn (r : Row) (effect : State → Issue → State) (s : State) (c w : Nat) (i : Insn) :
    Host.Outcome State Fault Refusal :=
  match rowOf i with
  | some r' => if r' = r then .next (quiet s (issueWith s c w i effect)) else .fault .wordOfAnotherRow
  | none => .next (quiet s (issueWith s c w i effect))

def Issue.fault (x : Issue) (s : State) (cause addr : Nat) : State := takeFault s x.c x.w x.pc cause addr
/-- g register of the issuing worker. -/
def Issue.g (x : Issue) (s : State) (n : Nat) : Nat := gGet (workerGet s x.c x.w) n
def Issue.v (x : Issue) (s : State) (n : Nat) : VReg := vGet (workerGet s x.c x.w) n
/-- The operand B, or IMM in its place in the immediate form (R50), modulo 2^64. -/
def Issue.bOrImm (x : Issue) (s : State) : Nat := if iImmForm x.i then ofInt 64 (iImmS x.i) else x.g s (iB x.i)
/-- The local address A + IMM (A + B in the register form). -/
def Issue.addr (x : Issue) (s : State) : Nat := (x.g s (iA x.i) + x.bOrImm s) % 2 ^ 64

/-! ## Scalar (R51, R52) -/

/-- Scalar ALU: D ← A op B. -/
def scalarAluEffect (s : State) (x : Issue) : State :=
  let (r, s) := resolve s 64 (scalarOp (iOpNum x.i % 16) (x.g s (iA x.i)) (x.bOrImm s))
  setG s x.c x.w (iD x.i) r

/-- Bytes an access of class 0x1 covers, by operation: LD8 to LDS32, ST8 to ST64, and the atomics. -/
def accessBytes (op : Nat) : Nat :=
  match op with
  | 0x20 | 0x24 | 0x27 => 1
  | 0x21 | 0x25 | 0x28 => 2
  | 0x22 | 0x26 | 0x29 => 4
  | _ => 8

/-- The address checks of a local access of `n` bytes (R45, R46): the fault cause, if any. Where an access is both misaligned and
out of bounds the spec orders neither cause first. -/
def accessFault (win : Win) (a n : Nat) (store : Bool) : Option Res :=
  let mis := a % n != 0
  let bad := if store && a < win.code then some causeStoreCode else if win.size < a + n then some causeBounds else none
  match mis, bad with
  | false, none => none
  | true, none => some (.is causeMisaligned)
  | false, some k => some (.is k)
  | true, some k => some (.either causeMisaligned k)

/-- Checks an access, meets the ECC finding of its line, and goes on with the access where nothing faults. -/
def withAccess (s : State) (x : Issue) (a n : Nat) (load store : Bool) (e : Ecc) (k : State → State) : State :=
  match accessFault x.win a n store with
  | some r =>
    let (cause, s) := resolve s 8 r
    x.fault s cause a
  | none =>
    let line := lineOf (x.win.base + a)
    let s := if load then cellEcc s x.c line e else s
    if load && cellPoisoned s x.c line then x.fault s causePoisoned a else k s

/-- LD8 to LD64 zero-extend; LDS8 to LDS32 sign-extend. -/
def scalarLoadEffect (e : Ecc) (s : State) (x : Issue) : State :=
  let a := x.addr s
  let n := accessBytes (iOp x.i)
  withAccess s x a n true false e fun s =>
    let v := leNat (cellRead s x.c (x.win.base + a) n)
    let v := if iOp x.i < 0x24 then v else ofInt 64 (sInt (8 * n) v)
    setG s x.c x.w (iD x.i) v

/-- ST8 to ST64 store D. -/
def scalarStoreEffect (s : State) (x : Issue) : State :=
  let a := x.addr s
  let n := accessBytes (iOp x.i)
  withAccess s x a n false true .clean fun s => cellWrite s x.c (x.win.base + a) (leBytes n (x.g s (iD x.i)))

/-- The range of an atomic: a load and a store of its word (R45). -/
def atomicEffect (e : Ecc) (f : State → Nat → Option Nat × State) (s : State) (x : Issue) : State :=
  let a := x.addr s
  withAccess s x a 8 true true e fun s =>
    let old := leNat (cellRead s x.c (x.win.base + a) 8)
    let (new, s) := f s old
    let s := match new with
      | some v => cellWrite s x.c (x.win.base + a) (leBytes 8 v)
      | none => s
    let (d, s) := takeFree s 64
    setG s x.c x.w (iD x.i) d

/-- AMOADD adds D to the word. What D holds afterwards is not stated: a free value. -/
def amoaddEffect (e : Ecc) (s : State) (x : Issue) : State :=
  atomicEffect e (fun s old => (some ((old + x.g s (iD x.i)) % 2 ^ 64), s)) s x

/-- AMOCAS stores D if the word equals C. The immediate form has no C field: the comparand is a free value, and so is D after. -/
def amocasEffect (e : Ecc) (s : State) (x : Issue) : State :=
  atomicEffect e (fun s old =>
    let (c, s) := takeFree s 64
    (if old = c then some (x.g s (iD x.i)) else none, s)) s x

/-- Branch target PC + IMM × 8. -/
def Issue.target (x : Issue) (s : State) : Nat := (x.pc + 8 * x.bOrImm s) % 2 ^ 64

/-- BEQ, BNE, BLT, BGE, BLTU, BGEU compare D with A. -/
def branchTaken (op d a : Nat) : Bool :=
  match op with
  | 0 => d == a
  | 1 => d != a
  | 2 => decide (sInt 64 d < sInt 64 a)
  | 3 => decide (sInt 64 a ≤ sInt 64 d)
  | 4 => decide (d < a)
  | _ => decide (a ≤ d)

def branchEffect (s : State) (x : Issue) : State :=
  if branchTaken (iOpNum x.i) (x.g s (iD x.i)) (x.g s (iA x.i)) then setPc s x.c x.w (x.target s) else s

/-- JAL: D ← PC + 8, PC ← PC + IMM × 8. -/
def jalEffect (s : State) (x : Issue) : State :=
  setPc (setG s x.c x.w (iD x.i) (x.pc + 8)) x.c x.w (x.target s)

/-- JALR: D ← PC + 8, PC ← A + IMM, kept a multiple of 8 (R41). -/
def jalrEffect (s : State) (x : Issue) : State :=
  setPc (setG s x.c x.w (iD x.i) (x.pc + 8)) x.c x.w (x.addr s / 8 * 8)

/-! ## Vector (R51, R52) -/

def lanesOf (v : VReg) (w : Nat) : List Nat := (List.range (512 / laneBits w)).map (lane v (laneBits w))

/-- Lane `k` of operand B: the v register's, or IMM in the lane's width. -/
def Issue.bLane (x : Issue) (s : State) (k : Nat) : Nat :=
  let n := laneBits (iW x.i)
  if iImmForm x.i then ofInt n (iImmS x.i) else lane (x.v s (iB x.i)) n k

/-- The operations of class 0x3: lane by lane, but for the conversions that change the lane width. -/
def vectorAluEffect (s : State) (x : Issue) : State :=
  let w := iW x.i
  let n := laneBits w
  let a := x.v s (iA x.i)
  if iOpNum x.i = 0x12 ∨ iOpNum x.i = 0x13 then
    let (f, s) := takeFree s 514
    setV s x.c x.w (iD x.i) (if iOpNum x.i = 0x12 then cvtF32Bf a f else cvtBf32 a f)
  else
    let rs := (List.range (512 / n)).map fun k =>
      vectorLane w (iOpNum x.i) (lane a n k) (x.bLane s k)
        (if iImmForm x.i then none else some (lane (x.v s (iC x.i)) n k))
    let (v, s) := resolveLanes s n rs
    setV s x.c x.w (iD x.i) v

/-- VLD: 64 bytes at A + IMM. -/
def vldEffect (e : Ecc) (s : State) (x : Issue) : State :=
  let a := x.addr s
  withAccess s x a 64 true false e fun s => setV s x.c x.w (iD x.i) (bytesVReg (cellRead s x.c (x.win.base + a) 64))

/-- VST: D to 64 bytes at A + IMM. -/
def vstEffect (s : State) (x : Issue) : State :=
  let a := x.addr s
  withAccess s x a 64 false true .clean fun s => cellWrite s x.c (x.win.base + a) (vregBytes (x.v s (iD x.i)))

/-- VBCAST fills every lane of D from g register A. -/
def vbcastEffect (s : State) (x : Issue) : State :=
  let n := laneBits (iW x.i)
  setV s x.c x.w (iD x.i) (ofLanes n (List.replicate (512 / n) (x.g s (iA x.i))))

/-- VSUM, VMAXR reduce to lane 0; what the other lanes of D then hold is not stated. -/
def vectorReduceEffect (s : State) (x : Issue) : State :=
  let w := iW x.i
  let ls := lanesOf (x.v s (iA x.i)) w
  let (v, s) := resolveLanes s (laneBits w) (reduceLanes (laneBits w) (iOpNum x.i) ls :: List.replicate (ls.length - 1) .any)
  setV s x.c x.w (iD x.i) v

/-- VPERM: lane k of D is the lane of A that lane k of B names; an index past the last lane is not stated. -/
def vpermEffect (s : State) (x : Issue) : State :=
  let w := iW x.i
  let n := laneBits w
  let ls := lanesOf (x.v s (iA x.i)) w
  let rs := (List.range ls.length).map fun k =>
    match ls[x.bLane s k]? with
    | some v => Res.is v
    | none => Res.any
  let (v, s) := resolveLanes s n rs
  setV s x.c x.w (iD x.i) v

/-- VEXT: g register D ← lane IMM of A. Whether a lane below 64 bits extends by its sign is not stated. -/
def vextEffect (s : State) (x : Issue) : State :=
  let w := iW x.i
  let n := laneBits w
  let r := match (lanesOf (x.v s (iA x.i)) w)[if iImmForm x.i then iImm x.i else lane (x.v s (iB x.i)) n 0]? with
    | some v => Res.both v (ofInt 64 (sInt n v))
    | none => Res.any
  let (v, s) := resolve s 64 r
  setG s x.c x.w (iD x.i) v

/-! ## Messages (R54) -/

/-- A message leaves on a bound port with a credit. -/
def sendMsg (s : State) (c port : Nat) (p : SendPort) (data : VReg) : State :=
  { s with grid := { s.grid with
      msgs := s.grid.msgs ++ [{ srcCell := c, port := port, dstCell := p.dstCell, channel := p.channel, ctx := p.ctx, data := data }] } }

def portSet (s : State) (c n : Nat) (p : SendPort) : State :=
  let x := cellGet s c
  cellSet s c { x with ports := tset x.ports n p }
def chanSet (s : State) (c n : Nat) (p : Channel) : State :=
  let x := cellGet s c
  cellSet s c { x with chans := tset x.chans n p }

/-- SEND: unbound faults, a powered-off destination faults, a port with no credit waits. -/
def sendEffect (s : State) (x : Issue) : State :=
  let n := iImm x.i
  match tget (cellGet s x.c).ports n with
  | some p =>
    if p.ctx != x.win.ctx then x.fault s causeUnbound 0
    else if !cellOn s p.dstCell then x.fault s causeDestOff 0
    else if 0 < p.credits && p.waiters.isEmpty then
      sendMsg (portSet s x.c n { p with credits := p.credits - 1 }) x.c n p (x.v s (iA x.i))
    else setWait (portSet s x.c n { p with waiters := p.waiters ++ [(x.w, iA x.i)] }) x.c x.w (.send n (iA x.i))
  | none => x.fault s causeUnbound 0

/-- A credit starts back to a send port. -/
def returnCredit (s : State) (srcCell port : Nat) : State :=
  { s with grid := { s.grid with credits := s.grid.credits ++ [(srcCell, port)] } }

/-- RECV: takes the oldest message and returns a credit, or waits. -/
def recvEffect (s : State) (x : Issue) : State :=
  let n := iImm x.i
  match tget (cellGet s x.c).chans n with
  | some ch =>
    if ch.ctx != x.win.ctx then x.fault s causeUnbound 0
    else
      match ch.queue with
      | m :: rest =>
        returnCredit (setV (chanSet s x.c n { ch with queue := rest }) x.c x.w (iD x.i) m) ch.srcCell ch.srcPort
      | [] => setWait (chanSet s x.c n { ch with waiters := ch.waiters ++ [(x.w, iD x.i)] }) x.c x.w (.recv n (iD x.i))
  | none => x.fault s causeUnbound 0

/-- PROBE: D ← messages waiting on the channel. -/
def probeEffect (s : State) (x : Issue) : State :=
  let n := match tget (cellGet s x.c).chans (iImm x.i) with
    | some ch => if ch.ctx = x.win.ctx then ch.queue.length else 0
    | none => 0
  setG s x.c x.w (iD x.i) n

/-- The oldest message of a path, if it left by the port: two ports of a cell bound to one destination cell share their path, and
what is on a path arrives in the order it was sent (R60). -/
def nextOnPath (s : State) (src port : Nat) : Option Msg :=
  s.grid.msgs.find? fun m => m.srcCell == src && m.port == port &&
    ((s.grid.msgs.find? fun q => q.srcCell == src && q.dstCell == m.dstCell).map fun q => q.port == port).getD false

/-- The oldest message from a port reaches its channel, once it is the first on its path: discarded where the binding differs, given to
the first waiting RECV, or queued (R54, R60). -/
def messageArrives (s : State) (src port : Nat) : State :=
  match nextOnPath s src port with
  | none => s
  | some m =>
    let s := { s with grid := { s.grid with msgs := removeFirst (fun q => q.srcCell == src && q.port == port) s.grid.msgs } }
    match tget (cellGet s m.dstCell).chans m.channel with
    | some ch =>
      if ch.ctx != m.ctx || ch.srcCell != src then setEvent (satAdd s (rClMsgDrop m.dstCell) 15 0 1) (rClEvent m.dstCell) 1
      else
        match ch.waiters with
        | (w, d) :: rest =>
          let s := chanSet s m.dstCell m.channel { ch with waiters := rest }
          returnCredit (wake (setV s m.dstCell w d m.data) m.dstCell w) ch.srcCell ch.srcPort
        | [] => chanSet s m.dstCell m.channel { ch with queue := ch.queue ++ [m.data] }
    | none => setEvent (satAdd s (rClMsgDrop m.dstCell) 15 0 1) (rClEvent m.dstCell) 1

/-- A credit reaches its send port and lets the first waiting SEND go (R54). DESIGN CHOICE (log entry 17): a credit whose port has been
bound to another context meanwhile is counted on the new binding, and one whose port is gone is lost. -/
def creditArrives (s : State) (c port : Nat) : State :=
  if !s.grid.credits.contains (c, port) then s
  else
    let s := { s with grid := { s.grid with credits := removeFirst (· == (c, port)) s.grid.credits } }
    match tget (cellGet s c).ports port with
    | none => s
    | some p =>
      match p.waiters with
      | (w, v) :: rest =>
        let s := portSet s c port { p with waiters := rest }
        wake (sendMsg s c port p (vGet (workerGet s c w) v)) c w
      | [] => portSet s c port { p with credits := p.credits + 1 }

/-! ## Barriers, counters and the rest (R51, R53, R55) -/

/-- BAR adds one arrival and the worker waits. -/
def barEffect (s : State) (x : Issue) : State :=
  match tget s.grid.barriers (iImm x.i) with
  | some b =>
    if b.ctx != x.win.ctx then x.fault s causeBarrier 0
    else
      let s := { s with grid := { s.grid with
        barriers := tset s.grid.barriers (iImm x.i) { b with arrivals := b.arrivals + 1, waiting := b.waiting ++ [(x.c, x.w)] } } }
      setWait s x.c x.w (.barrier (iImm x.i))
  | none => x.fault s causeBarrier 0

/-- Every waiting worker of a barrier whose arrivals have reached its count becomes READY, and the count returns to zero. -/
def releaseBarrier (s : State) (n : Nat) : State :=
  match tget s.grid.barriers n with
  | none => s
  | some b =>
    if b.arrivals < b.expected then s
    else
      let s := { s with grid := { s.grid with barriers := tset s.grid.barriers n { b with arrivals := 0, waiting := [] } } }
      b.waiting.foldl (fun s q => wake s q.1 q.2) s

/-- A DMA completion counter. -/
def ctrGet (x : Worker) (n : Nat) : Nat := (tgetD x.ctr n 0).toNat

/-- WAITC: waits until counter c(D mod 4) is at least g register A. -/
def waitcEffect (s : State) (x : Issue) : State :=
  let n := iD x.i % 4
  let a := x.g s (iA x.i)
  if a ≤ ctrGet (workerGet s x.c x.w) n then s else setWait s x.c x.w (.counter n (BitVec.ofNat 64 a))

/-- Increments a worker's counter and wakes a WAITC it meets. -/
def incCounter (s : State) (c w n : Nat) : State :=
  let x := workerGet s c w
  let v := (ctrGet x n + 1) % 2 ^ 32
  let s := workerSet s c w { x with ctr := tset x.ctr n (BitVec.ofNat 32 v) }
  match x.wait with
  | .counter k a => if k = n ∧ a.toNat ≤ v then wake s c w else s
  | _ => s

/-- Frame offset of the current beat (R31). -/
def frameOffset (s : State) : Nat :=
  match jobOrigin s, s.sched.image with
  | some j0, some (im, _) => if im.frame = 0 then 0 else (now s - j0) % im.frame
  | _, _ => 0

/-- SYS.RD (R53). PHASE and CYCLE depend on time within the beat: free values. -/
def sysRdEffect (s : State) (x : Issue) : State :=
  let (v, s) := match iImm x.i with
    | 0 => (x.c, s)
    | 1 => (x.w, s)
    | 2 => (x.win.ctx, s)
    | 3 => (ctxClient s x.win.ctx, s)
    | 4 => (now s, s)
    | 5 => (frameOffset s, s)
    | 6 => takeFree s 17
    | 7 => takeFree s 64
    | 8 => (x.win.size, s)
    | _ => (x.win.code, s)
  setG s x.c x.w (iD x.i) v

/-- HALT: HALTED until the next block. -/
def haltEffect (s : State) (x : Issue) : State :=
  workerSet s x.c x.w { workerGet s x.c x.w with state := .halted }

/-! ## Meanings -/

def execScalarAlu (c : CellId) (w : WorkerId) (i : Insn) (s : State) := cellInsn .scalarAlu scalarAluEffect s c.val w.val i
def execScalarLoad (c : CellId) (w : WorkerId) (i : Insn) (e : Ecc) (s : State) :=
  cellInsn .scalarLoad (scalarLoadEffect e) s c.val w.val i
def execScalarStore (c : CellId) (w : WorkerId) (i : Insn) (s : State) := cellInsn .scalarStore scalarStoreEffect s c.val w.val i
def execAmoadd (c : CellId) (w : WorkerId) (i : Insn) (e : Ecc) (s : State) := cellInsn .amoadd (amoaddEffect e) s c.val w.val i
def execAmocas (c : CellId) (w : WorkerId) (i : Insn) (e : Ecc) (s : State) := cellInsn .amocas (amocasEffect e) s c.val w.val i
def execBranch (c : CellId) (w : WorkerId) (i : Insn) (s : State) := cellInsn .branch branchEffect s c.val w.val i
def execJal (c : CellId) (w : WorkerId) (i : Insn) (s : State) := cellInsn .jal jalEffect s c.val w.val i
def execJalr (c : CellId) (w : WorkerId) (i : Insn) (s : State) := cellInsn .jalr jalrEffect s c.val w.val i
def execVectorAlu (c : CellId) (w : WorkerId) (i : Insn) (s : State) := cellInsn .vectorAlu vectorAluEffect s c.val w.val i
def execVld (c : CellId) (w : WorkerId) (i : Insn) (e : Ecc) (s : State) := cellInsn .vld (vldEffect e) s c.val w.val i
def execVst (c : CellId) (w : WorkerId) (i : Insn) (s : State) := cellInsn .vst vstEffect s c.val w.val i
def execVbcast (c : CellId) (w : WorkerId) (i : Insn) (s : State) := cellInsn .vbcast vbcastEffect s c.val w.val i
def execVectorReduce (c : CellId) (w : WorkerId) (i : Insn) (s : State) :=
  cellInsn .vectorReduce vectorReduceEffect s c.val w.val i
def execVperm (c : CellId) (w : WorkerId) (i : Insn) (s : State) := cellInsn .vperm vpermEffect s c.val w.val i
def execVext (c : CellId) (w : WorkerId) (i : Insn) (s : State) := cellInsn .vext vextEffect s c.val w.val i
def execSend (c : CellId) (w : WorkerId) (i : Insn) (s : State) := cellInsn .send sendEffect s c.val w.val i
def execRecv (c : CellId) (w : WorkerId) (i : Insn) (s : State) := cellInsn .recv recvEffect s c.val w.val i
def execProbe (c : CellId) (w : WorkerId) (i : Insn) (s : State) := cellInsn .probe probeEffect s c.val w.val i
def execBar (c : CellId) (w : WorkerId) (i : Insn) (s : State) := cellInsn .bar barEffect s c.val w.val i
def execWaitc (c : CellId) (w : WorkerId) (i : Insn) (s : State) := cellInsn .waitc waitcEffect s c.val w.val i
def execNop (c : CellId) (w : WorkerId) (i : Insn) (s : State) := cellInsn .nop (fun s _ => s) s c.val w.val i
def execSysRd (c : CellId) (w : WorkerId) (i : Insn) (s : State) := cellInsn .sysRd sysRdEffect s c.val w.val i
def execHalt (c : CellId) (w : WorkerId) (i : Insn) (s : State) := cellInsn .halt haltEffect s c.val w.val i

end Sys2Proof.Machine
end

