-- ==== Sys2Proof/Machine/Fabric.lean ====
section
/-!
DEFINITION. The Emgait fabric (spec/11_emgait_fabric.md): packets and their checks (R252, R253), credits (R255, R257), routing (R264),
discards (R265), the link layer (R251), lanes and port states (R258–R261), waggles (R267–R270), reserved spans (R272, R273).
-/

namespace Sys2Proof.Machine

/-! ## Packets (R252, R253) -/

/-- Header bytes 0 to 29, and the whole header. -/
def pktHead30 (p : Packet) : List Byte :=
  leBytes 1 p.type.toNat ++ leBytes 1 (p.vc.toNat + 4 * b2n p.ordered + 8 * b2n p.prot) ++ leBytes 2 p.payload.length ++
  leBytes 8 p.dest.toNat ++ leBytes 2 p.src.toNat ++ leBytes 1 p.hops.toNat ++ leBytes 1 p.sub.toNat ++ leBytes 4 p.tag.toNat ++
  leBytes 4 p.aux.toNat ++ leBytes 6 p.beat.toNat
def pktHead (p : Packet) : List Byte := (pktHead30 p) ++ leBytes 2 p.hchk.toNat

def pktHchkOk (p : Packet) : Bool := crc16 (pktHead30 p) == p.hchk
def pktPcrcOk (p : Packet) : Bool := crc32c ((pktHead p) ++ p.payload ++ p.ext) == p.pcrc

/-- Fills in HCHK and PCRC. -/
def pktSeal (p : Packet) : Packet :=
  let p := { p with hchk := crc16 (pktHead30 p) }
  { p with pcrc := crc32c ((pktHead p) ++ p.payload ++ p.ext) }

/-- Destination node of an Emgait address (R262). -/
def pktNode (p : Packet) : Nat := p.dest.toNat / 2 ^ 50

/-- Credits of 64 bytes that a packet uses; the extension of a protected packet counts as payload (R255, R368). -/
def pktCredits (p : Packet) : Nat := (40 + p.payload.length + p.ext.length + 63) / 64

/-- The type and its virtual channel are of R253. -/
def pktTypeOk (p : Packet) : Bool :=
  match p.type.toNat with
  | 0x01 | 0x04 => p.vc == 0 || p.vc == 3
  | 0x02 | 0x06 => p.vc == 0
  | 0x03 | 0x05 | 0x07 => p.vc == 1
  | 0x08 => p.vc == 3
  | 0x10 | 0x11 | 0x12 | 0x13 => p.vc == 2
  | _ => false

/-- WRITE and SEND belong on VC 3 only with a reservation, which SUB names (R253, R272). -/
def pktSpanOk (p : Packet) : Bool := !(p.vc == 3 && (p.type == 1 || p.type == 4)) || p.sub != 0

/-- Exactly `n` bytes of a list. -/
def fitBytes (n : Nat) (l : List Byte) : List Byte := (List.range n).map fun i => l.getD i 0

/-- A packet as it stands in the packet stream: header, payload with a protected packet's extension, trailer (R252). -/
def pktBytes (p : Packet) : List Byte :=
  pktHead p ++ p.payload ++ p.ext ++ leBytes 4 p.pcrc.toNat ++ leBytes 4 p.echk.toNat

/-- A packet that never draws a RETURN: a RETURN, or a link-local packet (R265). -/
def pktNoReturn (p : Packet) : Bool := p.type == 0x13 || p.type == 0x10 || p.type == 0x11

/-! ## Ports -/

def portGet (s : State) (p : Nat) : Port := tgetD s.fabric.ports p {}
def portPut (s : State) (p : Nat) (x : Port) : State := { s with fabric := { s.fabric with ports := tset s.fabric.ports p x } }
def portUp (s : State) (p : Nat) : Bool := (portGet s p).state == .up
/-- Credits of each virtual channel (R255). -/
def fullCredits : List Nat := [512, 512, 128, 896]
def listAdd (l : List Nat) (i n : Nat) : List Nat := l.mapIdx fun k v => if k = i then v + n else v
def listSub (l : List Nat) (i n : Nat) : List Nat := l.mapIdx fun k v => if k = i then v - n else v

/-- Codes of the port states and widths (EG_PORT_STATUS). -/
def portCode : PortState → Nat
  | .disabled => 0 | .training => 1 | .up => 2 | .down => 3 | .held => 4

/-! ## The packet stream of a port (R250, R251) -/

/-- Codewords transmitted and not yet acknowledged. -/
def unacked (x : Port) : Nat := (x.txSeq + 1023 - x.ackSeq) % 1024

/-- Bytes go out on a port's packet stream: every codeword they fill is transmitted with the ACK of the last one accepted, and the last
256 are kept for replay. -/
def streamOut (x : Port) (bs : List Byte) : Port :=
  let all := x.stream ++ bs
  let n := all.length / 640
  let kept := x.replay ++ (List.range n).map fun i =>
    ({ seq := (x.txSeq + i) % 1024, ack := x.rxSeq, stream := (all.drop (640 * i)).take 640 } : Codeword)
  { x with stream := all.drop (640 * n), txSeq := (x.txSeq + n) % 1024, replay := kept.drop (kept.length - 256) }

/-- SEQ of the codeword that holds the last byte of the stream. -/
def lastSeq (x : Port) : Nat := if x.stream.isEmpty then (x.txSeq + 1023) % 1024 else x.txSeq

/-- A packet enters the stream of a port behind a free number of idle words, which the time since the packet before it decides; they
leave the packet's codewords their places among the 256 kept (log 59). -/
def putPacket (s : State) (p : Nat) (pkt : Packet) : State :=
  let x := portGet s p
  let (g, s) := takeFree s 15
  let idle := List.replicate (8 * (g % (80 * (254 - unacked x) + 1))) 0
  portPut s p (streamOut (streamOut x idle) (pktBytes pkt))

/-- The stream runs on with idle words until the codeword `ack` has been transmitted (R250). -/
def idleUpTo (x : Port) (ack : Nat) : Port :=
  let n := (ack + 1024 - x.ackSeq) % 1024 - unacked x
  if n = 0 then x else streamOut x (List.replicate (640 * n - x.stream.length) 0)

/-- A link-local packet goes out: its header fields that R255 and R271 give no value are free (log 59). -/
def putLinkLocal (s : State) (p type beat : Nat) (payload : List Byte) : State :=
  let (v, s) := takeFree s 141
  let marker := type = 0x10
  let field := fun (at_ n : Nat) => if marker then 0 else v / 2 ^ at_ % 2 ^ n
  putPacket s p (pktSeal
    { type := BitVec.ofNat 8 type, vc := 2, ordered := false, prot := false, dest := BitVec.ofNat 64 (field 13 64)
      src := BitVec.ofNat 14 (nodeNum s), hops := BitVec.ofNat 5 v, sub := BitVec.ofNat 8 (v / 32), tag := BitVec.ofNat 32 (field 77 32)
      aux := BitVec.ofNat 32 (field 109 32), beat := BitVec.ofNat 48 beat, payload := payload, ext := [], hchk := 0, pcrc := 0, echk := 0
      resv := false })

/-- A MARKER, which names the beat that the next boundary starts (R23, R271). -/
def sendMarker (s : State) (p beat : Nat) : State := emit (putLinkLocal s p 0x10 beat []) (.marker p beat)

/-! ## Credits owed to the peer (R255) -/

/-- Sends a CREDIT packet with everything owed: four counts of 16 bits. -/
def sendCredit (s : State) (p : Nat) : State :=
  let x := portGet s p
  emit (putLinkLocal (portPut s p { x with owed := [0, 0, 0, 0], timer := false }) p 0x11 0 (x.owed.flatMap (leBytes 2))) (.credit p x.owed)

/-- A packet has left the receive buffer of port `p`: its credits are owed, and go back at once when a channel has 32. -/
def oweCredit (s : State) (p vc n : Nat) : State :=
  let x := portGet s p
  if x.state != .up then s
  else
    let owed := listAdd x.owed vc n
    let s := portPut s p { x with owed := owed, timer := true }
    if owed.any (32 ≤ ·) then sendCredit s p else s

/-- A packet that used buffer credits on its arrival has been taken in by this device. -/
def takenIn (s : State) (arr : Option PortId) (p : Packet) : State :=
  match arr with
  | some q => oweCredit s q.val p.vc.toNat (pktCredits p)
  | none => s

/-! ## Routing (R262–R264) -/

/-- A routing entry as the table of its input stores it. -/
def routeEntry (s : State) (table node : Nat) : Nat := (tgetD s.fabric.active (table * 16384 + node) 0).toNat

/-- The ports of an entry in its order. -/
def entryPorts (table e : Nat) : List Nat :=
  if table = 6 then (List.range 6).filter fun p => bit e p == 1
  else (List.range (min 4 (bits e 14 12))).map fun i => e / 8 ^ i % 8

def routePorts (s : State) (input node : Nat) : List Nat := entryPorts input (routeEntry s input node)

/-- The span and the guard of a port let a packet start (R273). -/
def spanLets (x : Port) (p : Packet) : Bool :=
  let ok := fun (o : Option Nat) => match o with
    | none => true
    | some r => p.vc == 2 || (p.vc == 3 && p.sub.toNat == r)
  ok x.span && ok x.guard

/-- Credits a queued packet can draw on at a port: reserved ones before pooled ones (R257). -/
def creditsFor (x : Port) (q : QPkt) : Nat :=
  (match q.rs with
   | some r => if q.vc = 0 then tgetD x.reserved r 0 else 0
   | none => 0) + x.credits.getD q.vc 0

/-- A packet may start on a port now: the port is UP, no span or guard holds the packet, its credits are there (R255, R273), and its
codewords will have their places in the replay buffer (R251). -/
def canLeave (s : State) (p : Nat) (q : QPkt) : Bool :=
  let x := portGet s p
  x.state == .up && !q.early && spanLets x q.pkt && decide ((pktCredits q.pkt) ≤ creditsFor x q) && decide (unacked x ≤ 254)

/-- A list turned to begin after element `last`. -/
def turned (last : Nat) (l : List Nat) : List Nat := l.filter (last < ·) ++ l.filter (· ≤ last)

/-- The port a waiting packet would start on now (R264): the output it was given, or the spray's next port that takes it. -/
def choosePort (s : State) (q : QPkt) : Option Nat :=
  match q.out with
  | some p => if canLeave s p q then some p else none
  | none =>
    let ports := routePorts s q.input (pktNode q.pkt)
    let last := tgetD s.fabric.rr q.input 5
    let i := (ports.findIdx? (· == last)).map (· + 1) |>.getD 0
    (ports.drop i ++ ports.take i).find? fun p => canLeave s p q

/-- The first packet of each input and virtual channel. -/
def heads (l : List QPkt) : List QPkt :=
  (l.foldl (fun (h : List QPkt) q => if h.any (fun x => x.input == q.input && x.vc == q.vc) then h else q :: h) []).reverse

/-- Place of a virtual channel in the strict order (R256). -/
def vcRank (vc : Nat) : Nat := match vc with
  | 2 => 0 | 3 => 1 | 1 => 2 | _ => 3

/-- What starts next, and where: per output, by VC order, then round-robin over the inputs. -/
def nextStart (s : State) : Option (QPkt × Nat) :=
  let hs := heads s.fabric.waiting
  (List.range 6).findSome? fun p =>
    let mine := hs.filter fun q => choosePort s q == some p
    let last := fun (q : QPkt) => (portGet s p).turns.getD q.vc 6
    let key := fun (q : QPkt) => vcRank q.vc * 16 + (if last q < q.input then q.input else q.input + 7)
    ((sortBy key mine).head?).map fun q => (q, p)

/-- A waggle that leaves: what it says, beside its packet. -/
def emitForm (s : State) (p : Nat) : Option WaggleForm → State
  | some (.reply st body) => emit s (.waggleReply p st body)
  | some (.forward w) => emit s (.waggleForward p w)
  | some (.linkEvent k old new width cause) => emit s (.linkEvent k old new width cause)
  | none => s

/-- A packet starts on a port: HOPS is decremented, credits are spent, its bytes go into the port's codewords and are charged, the input's
buffer is free. -/
def startPacket (s : State) (q : QPkt) (p : Nat) : State :=
  let x := portGet s p
  let n := (pktCredits q.pkt)
  let res := match q.rs with
    | some r => if q.vc = 0 then min n (tgetD x.reserved r 0) else 0
    | none => 0
  let pkt := pktSeal { q.pkt with hops := q.pkt.hops - 1 }
  let s := putPacket (portPut s p { x with
    credits := listSub x.credits q.vc (n - res)
    reserved := (match q.rs with
      | some r => if res = 0 then x.reserved else tset x.reserved r (tgetD x.reserved r 0 - res)
      | none => x.reserved)
    turns := x.turns.set q.vc q.input }) p pkt
  let x := portGet s p
  let s := portPut s p { x with sent := x.sent ++ [(lastSeq x, pkt)] }
  let s := { s with fabric := { s.fabric with
    rr := tset s.fabric.rr q.input p
    waiting := removeFirst (fun y => y.id == q.id) s.fabric.waiting } }
  let s := match q.client with
    | some c => charge s c 8 12 q.pkt.payload.length
    | none => s
  let s := if q.input < 6 then oweCredit s q.input q.vc n else s
  emitForm (emit s (.packet p pkt)) p q.form

/-- Starts whatever can start. -/
def pumpF : Nat → State → State
  | 0, s => s
  | n + 1, s =>
    match nextStart s with
    | none => s
    | some (q, p) => pumpF n (startPacket s q p)
def pump (s : State) : State := pumpF s.fabric.waiting.length s

/-- A packet of a span that is reserved in the schedule and not open yet waits for it (R273). -/
def spanEarly (s : State) (p : Packet) : Bool :=
  p.vc == 3 && p.sub != 0 && jobStarted s && hasBeat s &&
  (match s.sched.image with
   | some (im, _) => im.entries.any fun e => match e.kind with
     | .span r _ _ => r == p.sub.toNat
     | _ => false
   | none => false) &&
  !(List.range 6).any fun k => (portGet s k).span == some p.sub.toNat

/-- A packet joins those that wait, and what can start does. -/
def enqueue (s : State) (q : QPkt) : State :=
  pump { s with fabric := { s.fabric with
    waiting := s.fabric.waiting ++ [{ q with id := s.fabric.nextPkt }], nextPkt := s.fabric.nextPkt + 1 } }

/-- Gives a packet its place: no route or no port UP is an answer, else it waits and what can start does (R264, R265). -/
def placePacket (s : State) (q : QPkt) : Half ⊕ State :=
  let ports := routePorts s q.input (pktNode q.pkt)
  if s.fabric.node.isNone || ports.isEmpty then .inl stNoRoute
  else
    match ports.find? (portUp s) with
    | none => .inl stLinkDown
    | some p => .inr (enqueue s { q with out := if q.pkt.ordered then some p else none })

/-- A packet with `HOPS` from EG_CFG enters the injection queue; one for the own node is delivered locally. The answer is the
status of a discard. -/
def injectRaw (s : State) (p : Packet) (rs client : Option Nat) (form : Option WaggleForm := none) : State × Option Half :=
  let p := pktSeal { p with hops := BitVec.ofNat 5 (cfld s rEgCfg 28 24) }
  if s.fabric.node.isSome && (pktNode p) == nodeNum s then (emit s (.localPacket p), none)
  else
    match placePacket s { input := 6, vc := p.vc.toNat, pkt := p, rs := rs, client := client, early := spanEarly s p, form := form } with
    | .inl st => (s, some st)
    | .inr s => (s, none)

/-- A RETURN to the source of a discarded packet (R265); the spec gives its TAG and SUB no value, so they are free. -/
def sendReturn (s : State) (p : Packet) (st : Half) : State :=
  if (pktNoReturn p) then s
  else
    let (v, s) := takeFree (satAdd s rEgReturnCount 31 16 1) 40
    (injectRaw s
      { type := 0x13, vc := 2, ordered := false, prot := false, dest := BitVec.ofNat 64 (p.src.toNat * 2 ^ 50)
        src := BitVec.ofNat 14 (nodeNum s), hops := 0, sub := BitVec.ofNat 8 v, tag := BitVec.ofNat 32 (v / 256)
        aux := BitVec.ofNat 32 st.toNat, beat := 0, payload := (pktHead p), ext := [], hchk := 0, pcrc := 0, echk := 0
        resv := false } none none).1

/-- A packet this device injects; what it discards at injection is returned to this device (R265). -/
def inject (s : State) (p : Packet) (rs client : Option Nat) (form : Option WaggleForm := none) : State :=
  let (s, st) := injectRaw s p rs client form
  match st with
  | none => s
  | some st => sendReturn s p st

def discardHchk (s : State) : State := satAdd s rEgDiscard 31 16 1
def discardExpired (s : State) : State := satAdd s rEgDiscard 15 0 1

/-- The packet's deadline boundary has passed (R265). -/
def packetLate (s : State) (p : Packet) : Bool := p.beat != 0 && hasBeat s && decide (p.beat.toNat ≤ now s)

/-- The hop checks that every device makes (R253, R265). -/
def pktHopOk (p : Packet) : Bool := pktHchkOk p && pktTypeOk p && pktSpanOk p

/-- The checks at a packet's destination: PCRC, the deadline, the reserved fields (R252, R265); none where it is delivered. -/
def deliverCheck (s : State) (p : Packet) : Option Half :=
  if !pktPcrcOk p then some stCheckMismatch
  else if packetLate s p then some stDeadlineMissed
  else if p.resv then some stBadField
  else none

/-- A packet for this node that the checks refuse: counted, and returned to its source. -/
def refuseDelivery (s : State) (p : Packet) (st : Half) : State :=
  sendReturn (if st == stCheckMismatch then discardHchk s else if st == stDeadlineMissed then discardExpired s else s) p st

/-! ## Waggles: headers and the way they go (R267) -/

/-- The waggle of a packet that came by a port. -/
def waggleOf (port : PortId) (p : Packet) : WaggleHdr :=
  let f := fun (a n : Nat) => leNat ((p.payload.drop a).take n)
  { port := port, src := p.src, dest := p.dest, hops := p.hops, sub := p.sub, tag := p.tag, aux := p.aux, beat := p.beat
    route := BitVec.ofNat 64 (f 0 8), back := BitVec.ofNat 64 (f 8 8), ptr := BitVec.ofNat 8 (f 16 1), count := BitVec.ofNat 5 (f 17 1)
    routed := bit (f 17 1) 7 == 1, mgr := BitVec.ofNat 14 (f 18 2), fepoch := BitVec.ofNat 32 (f 20 4)
    resv := bits (f 17 1) 6 5 != 0 || bits (f 18 2) 15 14 != 0 || f 25 7 != 0, body := p.payload.drop 32 }

/-- The packet of a waggle of a kind: route header, kind, body. -/
def wagglePacket (w : WaggleHdr) (kind : Byte) : Packet := pktSeal {
  type := 0x12, vc := 2, ordered := false, prot := false, dest := w.dest, src := w.src, hops := w.hops, sub := w.sub, tag := w.tag
  aux := w.aux, beat := w.beat, ext := [], hchk := 0, pcrc := 0, echk := 0, resv := false
  payload := leBytes 8 w.route.toNat ++ leBytes 8 w.back.toNat ++ leBytes 1 w.ptr.toNat ++ leBytes 1 (w.count.toNat + 128 * b2n w.routed) ++
    leBytes 2 w.mgr.toNat ++ leBytes 4 w.fepoch.toNat ++ [kind] ++ leBytes 7 0 ++ w.body }

/-- A directed waggle for another device. -/
def waggleTransit (w : WaggleHdr) : Bool := !w.routed && decide (w.ptr.toNat < w.count.toNat)

/-- The waggle as the next device receives it: BACK records the arrival port. -/
def waggleOnward (w : WaggleHdr) : WaggleHdr :=
  let k := w.ptr.toNat
  { w with back := BitVec.ofNat 64 (putBits w.back.toNat (4 * k + 3) (4 * k) w.port.val), ptr := w.ptr + 1 }

/-- Sends a directed waggle forward: it waits for its VC 2 credits at the port its route names, which must be UP, else it is lost (R261);
a port that does not exist, or a hop beyond the sixteen of the route, is no way on. A beat that has passed or HOPS zero on arrival discards
it with a RETURN like any packet in transit (R265; that it is one is a DESIGN CHOICE, log 62). -/
def forwardWaggle (s : State) (w : WaggleHdr) (kind : Byte) : State :=
  let next := w.route.toNat / 16 ^ w.ptr.toNat % 16
  let came := wagglePacket w kind
  let taken := oweCredit s w.port.val 2 (pktCredits came)
  let w' := waggleOnward w
  if packetLate s came then sendReturn (discardExpired taken) came stDeadlineMissed
  else if w.hops == 0 then sendReturn (discardExpired taken) came stNoRoute
  else if w.ptr.toNat < 16 && next < 6 && portUp s next then
    enqueue s { input := w.port.val, vc := 2, pkt := wagglePacket w' kind, out := some next, form := some (.forward w') }
  else taken

/-- A waggle this device sends: its body has the length `len`, its bytes are not laid out; the fields of its packet's header that R267 gives
no value are free (log 62). -/
def newWaggle (s : State) (node : Nat) (routed : Bool) (port : PortId) (route : DWord) (count : BitVec 5) (kind : Byte) (len : Nat)
    (vals : List Nat) : WaggleHdr × State :=
  let (v, s) := takeFree s 122
  ({ port := port, src := BitVec.ofNat 14 (nodeNum s), dest := BitVec.ofNat 64 (node * 2 ^ 50 + v % 2 ^ 50), hops := 0
     sub := BitVec.ofNat 8 (v / 2 ^ 50), tag := BitVec.ofNat 32 (v / 2 ^ 58), aux := BitVec.ofNat 32 (v / 2 ^ 90), beat := 0, route := route
     back := 0, ptr := 0, count := count, routed := routed, mgr := s.fabric.mgr, fepoch := BitVec.ofNat 32 s.fabric.epoch, resv := false
     body := fitBytes len (Config.waggleBody kind.toNat vals) }, s)

/-- A waggle routed to a node (R267). -/
def sendRouted (s : State) (node : Nat) (kind : Byte) (len : Nat) (vals : List Nat) (form : WaggleForm) : State :=
  let (w, s) := newWaggle s node true 0 0 0 kind len vals
  inject s (wagglePacket w kind) none none (some form)

/-- A LINK_EVENT about a port, routed to the manager node (R260, R268). -/
def linkEvent (s : State) (p old new cause : Nat) : State :=
  if s.fabric.node.isNone then s
  else
    let width := (portGet s p).width
    sendRouted s s.fabric.mgr.toNat 0x09 8 [p, old, new, width, cause] (.linkEvent p old new width cause)

/-- The route back: BACK in reverse. -/
def backRoute (w : WaggleHdr) : DWord :=
  BitVec.ofNat 64 ((List.range w.count.toNat).foldl (fun n i =>
    n + w.back.toNat / 16 ^ (w.count.toNat - 1 - i) % 16 * 16 ^ i) 0)

/-- The REPLY to a waggle: routed to the node that sent it, or back along its route from the port it came by (R267). -/
def waggleReply (s : State) (w : WaggleHdr) (st : Half) (body : List Nat) : State :=
  let len := if body.isEmpty then 8 else 80
  let form := WaggleForm.reply st body
  if w.routed then sendRouted s w.src.toNat 0x0F len (st.toNat :: body) form
  else if !portUp s w.port.val then s
  else
    let (r, s) := newWaggle s 0 false w.port (backRoute w) w.count 0x0F len (st.toNat :: body)
    enqueue s { input := 6, vc := 2, out := some w.port.val, form := some form
                pkt := wagglePacket { r with hops := BitVec.ofNat 5 (cfld s rEgCfg 28 24) } 0x0F }

/-- The kinds of R268. -/
def waggleKinds : List Byte := [1, 2, 3, 4, 5, 6, 7, 8, 9, 15]

/-- A waggle packet that is addressed to this device: its kind's unit takes it; a kind that R268 does not have is answered (R270). -/
def waggleArrives (s : State) (a : PortId) (p : Packet) : State :=
  if waggleKinds.contains (p.payload.getD 24 0) then emit s (.localPacket p)
  else waggleReply (takenIn s (some a) p) (waggleOf a p) stBadField []

/-- A directed waggle ignores the routing tables (R267). -/
def directedArrives (s : State) (a : PortId) (p : Packet) : State :=
  let w := waggleOf a p
  if waggleTransit w then forwardWaggle s w (p.payload.getD 24 0)
  else
    match deliverCheck s p with
    | some st => refuseDelivery (takenIn s (some a) p) p st
    | none => waggleArrives s a p

/-- The packet is a directed waggle that came by a port. -/
def isDirected (p : Packet) : Bool := p.type == 0x12 && bit (leNat ((p.payload.drop 17).take 1)) 7 == 0

/-- A packet that arrives at a hop, or is injected (`none`). A packet for this node goes to the unit that owns its type. -/
def forwardPacket (s : State) (arr : Option PortId) (p : Packet) : State :=
  if !pktHopOk p then discardHchk (takenIn s arr p)
  else if p.type == 0x10 || p.type == 0x11 then s
  else if isDirected p then
    match arr with
    | some a => directedArrives s a p
    | none => s
  else if s.fabric.node.isSome && (pktNode p) == nodeNum s then
    match deliverCheck s p with
    | some st => refuseDelivery (takenIn s arr p) p st
    | none =>
      match arr with
      | some a => if p.type == 0x12 then waggleArrives s a p else emit (takenIn s arr p) (.localPacket p)
      | none => emit s (.localPacket p)
  else if packetLate s p then sendReturn (discardExpired (takenIn s arr p)) p stDeadlineMissed
  else
    match arr with
    | none => inject s p none none
    | some a =>
      if p.hops == 0 then sendReturn (discardExpired (takenIn s arr p)) p stNoRoute
      else
        match placePacket s { input := a.val, vc := p.vc.toNat, pkt := p, early := spanEarly s p } with
        | .inl st => sendReturn (takenIn s arr p) p st
        | .inr s => s

/-- A waiting packet leaves the queue without starting. -/
def dropWaiting (s : State) (q : QPkt) : State :=
  let s := { s with fabric := { s.fabric with waiting := removeFirst (fun y => y.id == q.id) s.fabric.waiting } }
  if q.input < 6 then oweCredit s q.input q.vc (pktCredits q.pkt) else s

/-- A waiting packet stands at a port: it came by it, was given it, or may take it. -/
def standsAt (s : State) (p : Nat) (q : QPkt) : Bool :=
  q.input == p || q.out == some p || (q.out.isNone && (routePorts s q.input (pktNode q.pkt)).contains p)

/-- A waiting packet whose deadline beat has passed is discarded (R265). -/
def expirePacket (s : State) (port vc : Nat) : State :=
  match s.fabric.waiting.find? (fun q => q.vc == vc && packetLate s q.pkt && standsAt s port q) with
  | none => s
  | some q => pump (sendReturn (discardExpired (dropWaiting s q)) q.pkt stDeadlineMissed)

/-- Every head has stood one boundary more (R266). -/
def ageHeads (s : State) : State :=
  let hs := (heads s.fabric.waiting).map fun (q : QPkt) => q.id
  { s with fabric := { s.fabric with waiting := s.fabric.waiting.map fun q => if hs.contains q.id then { q with age := q.age + 1 } else q } }

def vcStall (s : State) (port vc : Nat) : State :=
  if (heads s.fabric.waiting).any (fun q => q.vc == vc && decide (256 ≤ q.age) && standsAt s port q) then
    linkEvent (setEvent s rEgEvent 7) port (portCode (portGet s port).state) (portCode (portGet s port).state) 7
  else s

/-! ## Credits received (R255, R257) -/

/-- The reservations of RESIDENT contexts on a port: residency slot and credits. -/
def reservations (s : State) (p : Nat) : List (Nat × Nat) :=
  match s.sched.image with
  | none => []
  | some (im, _) =>
    s.sched.ctxs.filterMap fun e =>
      match e.2.state, e.2.rs with
      | .resident, some r => (im.slots[r]?).map fun x => (r, x.credits.getD p 0)
      | _, _ => none

/-- Returned VC 0 credits fill reservations before the pool. -/
def fillReserved (x : Port) (n : Nat) : List (Nat × Nat) → Port
  | [] => { x with credits := listAdd x.credits 0 n }
  | (r, cap) :: rest =>
    let have_ := tgetD x.reserved r 0
    let k := min n (cap - have_)
    fillReserved (if k = 0 then x else { x with reserved := tset x.reserved r (have_ + k) }) (n - k) rest

def receiveCredit (s : State) (p : Nat) (counts : List Nat) : State :=
  let x := portGet s p
  if x.state != .up then s
  else
    let x := fillReserved x (counts.getD 0 0) (reservations s p)
    let x := [1, 2, 3].foldl (fun (x : Port) vc => { x with credits := listAdd x.credits vc (counts.getD vc 0) }) x
    pump (portPut s p x)

/-- At pre-emption the credits of a reservation that no packet has taken return to the pool (R257). -/
def releaseReserved (s : State) (rs : Nat) : State :=
  (List.range 6).foldl (fun s p =>
    let x := portGet s p
    let n := tgetD x.reserved rs 0
    if n = 0 then s else portPut s p { x with reserved := terase x.reserved rs, credits := listAdd x.credits 0 n }) s

/-! ## Lanes and port states (R258–R261) -/

/-- Width codes of the good lanes: 3 x4, 2 x2, 1 x1, 0 none (R259). -/
def widthOf (good : BitVec 4) : Nat :=
  if good == 0xF then 3
  else if good.getLsbD 0 && good.getLsbD 1 then 2
  else if good.getLsbD 2 && good.getLsbD 3 then 2
  else if good == 0 then 0 else 1

/-- What happens to the traffic of a port that has left UP (R261): what waits for the port, or may take it, is chosen again (a packet of a
reserved span as ordinary VC 3 traffic), a waggle is discarded. -/
def portTraffic (s : State) (p : Nat) : State :=
  let x := portGet s p
  let s := satAdd s (rEgPortLost p) 31 0 (x.sent.filter fun (e : Nat × Packet) => e.2.type != 0x12).length
  let s := portPut s p { x with
    sent := [], owed := [0, 0, 0, 0], timer := false, credits := [0, 0, 0, 0], reserved := [], stream := [], replay := [], replays := 0 }
  let touched := s.fabric.waiting.filter fun q =>
    q.out == some p || (q.out.isNone && (routePorts s q.input (pktNode q.pkt)).contains p)
  let s := touched.foldl (fun s q =>
    if q.pkt.type == 0x12 then dropWaiting s q
    else
      match (routePorts s q.input (pktNode q.pkt)).find? (portUp s) with
      | none => sendReturn (dropWaiting s q) q.pkt stLinkDown
      | some k =>
        let again := fun (y : QPkt) => { y with out := if y.out.isSome then some k else none, early := false }
        { s with fabric := { s.fabric with waiting := replaceFirst (fun y => y.id == q.id) again s.fabric.waiting } }) s
  pump s

/-- A port leaves UP for another state; only an entry into DOWN sends a LINK_EVENT (R260). -/
def leaveUp (s : State) (p : Nat) (new : PortState) (cause : Nat) : State :=
  let x := portGet s p
  if x.state != .up then portPut s p { x with state := new, width := 0 }
  else
    let s := portPut s p { x with state := new, width := 0 }
    let s := setEvent s rEgEvent 2
    let s := if new == .down then linkEvent s p (portCode .up) (portCode new) cause else s
    portTraffic s p

/-- Entry into TRAINING. -/
def trainPort (s : State) (p : Nat) : State :=
  portPut s p { portGet s p with state := .training, width := 0, dropped := 0, locked := 0 }

def downCause : DownCause → Nat
  | .lanes => 1 | .replays => 2 | .silence => 3 | .retrain => 4 | .powerOff => 5

/-- ENABLE = 0 or the port's domain switched off: DISABLED (R260). -/
def disablePort (s : State) (p : Nat) : State := leaveUp s p .disabled 0

/-- UP to DOWN, and on to TRAINING or HELD (R260). A RETRAIN counts as an entry into DOWN and not as a flap (R259). A port whose power
domain is switched off goes to DISABLED from any state. -/
def portGoesDown (s : State) (p : Nat) (c : DownCause) : State :=
  if c == .powerOff then disablePort s p
  else if !portUp s p then s
  else
    let s := satAdd (leaveUp s p .down (downCause c)) (rEgPortFlaps p) 31 16 1
    if c == .retrain then trainPort s p
    else
      let x := portGet s p
      let t := s.beat.periods
      let s := portPut s p { x with lastDown := some t }
      match x.lastDown with
      | some t0 =>
        if t < t0 + cfld s rEgFlap 15 0 then
          let s := portPut s p { portGet s p with state := .held, holdEnd := t + cfld s rEgFlap 31 16 }
          let s := event (setEvent s rEgEvent 3) { sev := sevNotice, src := srcEmgait, loc := 0x300 + p } 32
          linkEvent s p (portCode .down) (portCode .held) (downCause c)
        else trainPort s p
      | none => trainPort s p

/-- ENABLE = 1 with the domain on starts training (R260). -/
def enablePort (s : State) (p : Nat) : State :=
  if (portGet s p).state == .disabled && s.power.ready.getLsbD (36 + p) && rfld s (rEgPortCtl p) 0 0 == 1 then trainPort s p else s

/-- A write of EG_PORT_CTL. -/
def writePortCtl (s : State) (p value : Nat) : State :=
  let s := rput s (rEgPortCtl p) 0 0 (bit value 0)
  if bit value 0 = 0 then disablePort s p
  else
    let s := enablePort s p
    if bit value 1 = 1 then portGoesDown s p .retrain else s

/-- Training completes (R260): full credits, a fresh link layer, what the peer told. -/
def portComesUp (s : State) (p : Nat) (t : TrainEnd) : State :=
  let x := portGet s p
  let width := min (widthOf t.lanes) (widthOf t.peerLanes)
  if x.state != .training || width = 0 then s
  else
    let s := portPut s p { x with
      state := .up, width := width, locked := t.lanes, dropped := 0, peerNode := t.peerNode, peerPort := t.peerPort.val
      peerIdentity := t.peerIdentity, credits := fullCredits, owed := [0, 0, 0, 0], reserved := [], timer := false, txSeq := 0, stream := []
      rxSeq := 1023, ackSeq := 1023, replay := [], replays := 0, sent := [], corrBeat := [0, 0, 0, 0], badBeat := [0, 0, 0, 0] }
    pump (linkEvent (setEvent s rEgEvent 1) p (portCode .training) (portCode .up) 0)

/-- Why a lane may be dropped, by the counts of the beat (R258). -/
def laneDue (s : State) (p l : Nat) : LaneCause → Bool
  | .lostLock => true
  | .corrections => decide (cfld s rEgCfg 23 16 * 256 < (portGet s p).corrBeat.getD l 0)
  | .codewords => decide (16 ≤ (portGet s p).badBeat.getD l 0)

/-- The port settles on a width in service: the narrowest of what it runs at, what its good lanes allow, and the peer's result (R259). -/
def settleWidth (s : State) (p : Nat) (peer : BitVec 4) : State :=
  let x := portGet s p
  let w := min x.width (min (widthOf x.locked) (widthOf peer))
  if w = 0 then portGoesDown s p .lanes
  else if w < x.width then
    let s := setEvent (satAdd (portPut s p { x with width := w }) (rEgPortFlaps p) 15 0 1) rEgEvent 0
    linkEvent s p (portCode .up) (portCode .up) 6
  else s

/-- A lane is dropped, where this end's counts call for it, and the ends settle on a width (R258, R259). -/
def dropLane (s : State) (p l : Nat) (c : LaneCause) (peer : BitVec 4) : State :=
  let x := portGet s p
  let m := BitVec.ofNat 4 (2 ^ l)
  if x.state != .up then s
  else if x.locked &&& m == 0 || !laneDue s p l c then settleWidth s p peer
  else
    let s := setEvent (portPut s p { x with dropped := x.dropped ||| m, locked := x.locked &&& ~~~m }) rEgEvent 0
    settleWidth (event s { sev := sevNotice, src := srcEmgait, loc := 0x300 + p } 16) p peer

/-- HELD ends once HOLD beats have passed (R260). -/
def holdExpires (s : State) (p : Nat) : State :=
  if (portGet s p).state == .held && decide ((portGet s p).holdEnd ≤ s.beat.periods) then trainPort s p else s

/-! ## The link layer (R251) -/

/-- A codeword arrives: counted where FEC failed, accepted where its SEQ follows, its ACK releases what it covers. -/
def receiveCodeword (s : State) (p : Nat) (w : CodewordIn) : State :=
  let x := portGet s p
  if x.state != .up then s
  else
    let x := { x with corrBeat := x.corrBeat.mapIdx fun i v => v + w.corrected.getD i 0 }
    let s := (List.range 4).foldl (fun s l =>
      let n := w.corrected.getD l 0
      if n = 0 then s else satAdd s (rEgLaneCorr p l) 31 0 n) s
    if !w.decoded then
      let x := match w.badLane with
        | some l => { x with badBeat := listAdd x.badBeat l.val 1 }
        | none => x
      satAdd (portPut s p x) (rEgPortLink p) 31 16 1
    else if w.seq.toNat != (x.rxSeq + 1) % 1024 then portPut s p x
    else
      let adv := (w.ack.toNat + 1024 - x.ackSeq) % 1024
      let x := { x with rxSeq := w.seq.toNat }
      if adv = 0 || 256 < adv then portPut s p x
      else
        let x := idleUpTo x w.ack.toNat
        let sent := x.sent.filter fun e => adv < (e.1 + 1024 - x.ackSeq) % 1024
        pump (portPut s p { x with ackSeq := w.ack.toNat, sent := sent, replays := 0 })

/-- A replay from ACK + 1: an unacknowledged codeword is old, so at least one has been transmitted. The eighth without ACK advancing takes
the port DOWN. -/
def linkReplay (s : State) (p : Nat) : State :=
  let x := portGet s p
  if x.state != .up then s
  else
    let x := if unacked x = 0 then idleUpTo x ((x.ackSeq + 1) % 1024) else x
    let again := x.replay.drop (x.replay.length - unacked x)
    let s := emit (portPut s p { x with replays := x.replays + 1 }) (.replay p again)
    let s := satAdd s (rEgPortLink p) 15 0 1
    if 8 ≤ x.replays + 1 then portGoesDown s p .replays else s

/-! ## Reserved spans (R272, R273) -/

/-- The span reservation of a port at a frame offset. -/
def spanAt (s : State) (p off : Nat) : Option Nat :=
  match s.sched.image with
  | none => none
  | some (im, _) => im.entries.findSome? fun e => match e.kind with
    | .span r ports n => if ports.getLsbD p && decide (e.off ≤ off) && decide (off < e.off + n) then some r else none
    | _ => none

/-- The guard before a span that opens at the next boundary. -/
def openGuard (s : State) (p : Nat) : State :=
  match jobOrigin s, s.sched.image with
  | some j0, some (im, _) =>
    if hasBeat s && decide (j0 ≤ now s + 1) && im.frame != 0 then
      let off := (now s + 1 - j0) % im.frame
      match spanAt s p off with
      | some r => if (portGet s p).span == some r then s else portPut s p { portGet s p with guard := some r }
      | none => s
    else s
  | _, _ => s

/-- The spans of the beat that begins: reserved ports take them up and leave them (R273). -/
def spanBoundary (s : State) : State :=
  let on := jobStarted s && hasBeat s && decide (((jobOrigin s).getD 0) ≤ now s)
  let off := frameOffset s
  let s := (List.range 6).foldl (fun s p =>
    let x := portGet s p
    let r := if on then spanAt s p off else none
    if x.span == r && x.guard.isNone then s else portPut s p { x with span := r, guard := none }) s
  let open_ := (List.range 6).filterMap fun p => (portGet s p).span
  pump { s with fabric := { s.fabric with waiting := s.fabric.waiting.map fun q =>
    if q.early && (open_.contains q.pkt.sub.toNat || !on) then { q with early := false } else q } }

/-- Per-beat lane counts start again. -/
def laneBoundary (s : State) : State :=
  { s with fabric := { s.fabric with
      ports := s.fabric.ports.map fun e => (e.1, { e.2 with corrBeat := [0, 0, 0, 0], badBeat := [0, 0, 0, 0] }) } }

/-! ## Waggles addressed to this device (R268–R270) -/

/-- The rows of R270 that do not depend on the kind's own effect. -/
def waggleCheck (s : State) (w : WaggleHdr) (probe assign bad : Bool) : Option Half :=
  if w.resv || bad || 16 < w.count.toNat then some stBadField
  else if s.fabric.node.isNone && !probe && !assign then some stNoRoute
  else if !probe && s.fabric.node.isSome &&
      (decide (w.fepoch.toNat < s.fabric.epoch) || (w.fepoch.toNat == s.fabric.epoch && w.mgr != s.fabric.mgr)) then
    some stFabricEpoch
  else none

/-- A waggle of a kind: one for another device goes on; for this device the first failing check answers, else the effect gives status and
body. -/
def onWaggle (s : State) (w : WaggleHdr) (kind : Byte) (bad : Bool) (f : State → State × Half × List Nat) : State :=
  if waggleTransit w then forwardWaggle s w kind
  else
    let s := oweCredit s w.port.val 2 (pktCredits (wagglePacket w kind))
    match waggleCheck s w (kind == 1) (kind == 2) bad with
    | some st => waggleReply s w st []
    | none =>
      let (s, st, body) := f s
      waggleReply s w st body

/-- The 64-bit device identity (R362), zero before the keys are derived. -/
def identity (s : State) : Nat := (s.sec.idkeys.map fun k => k.toNat % 2 ^ 64).getD 0

/-- What PROBE reports of a port. -/
def probePort (s : State) (p : Nat) : List Nat :=
  let x := portGet s p
  [portCode x.state, x.width, x.peerIdentity.toNat, x.peerPort]

def probeEffect' (s : State) : State × Half × List Nat :=
  (s, stOk, [0x2720, 0xA0, identity s, nodeWord s, s.fabric.epoch] ++ (List.range 6).flatMap (probePort s))

/-- ASSIGN: node, epoch and manager; a changed node number clears every table (R268). -/
def assignNode (w : WaggleHdr) (node epoch : Nat) (s : State) : State × Half × List Nat :=
  let n := BitVec.ofNat 14 node
  let changed := s.fabric.node != some n
  if changed && s.fabric.node.isSome && jobStarted s then (s, stBusyReferenced, [])
  else
    let f := { s.fabric with node := some n, epoch := epoch, mgr := w.mgr }
    let f := if changed then { f with active := [], shadow := [] } else f
    (setEvent { s with fabric := f } rEgEvent 5, stOk, [])

/-- An entry of a table that R270 refuses: bits beyond COUNT, a port above 5, the table's own port. -/
def entryBad (table e : Nat) : Bool :=
  if table = 6 then decide (64 ≤ e)
  else
    let n := bits e 14 12
    bit e 15 == 1 || decide (4 < n) || decide (2 ^ (3 * n) ≤ bits e 11 0) ||
    (entryPorts table e).any fun p => decide (5 < p) || p == table

/-- A ROUTE_WRITE's body as its bytes lie (R269). -/
def routeBody (table : Byte) (first count : Half) (entries : List Half) (rest : RouteRest) : List Byte :=
  [table, rest.resv1] ++ leBytes 2 first.toNat ++ leBytes 2 count.toNat ++ leBytes 2 rest.resv6.toNat ++
    entries.flatMap (fun e => leBytes 2 e.toNat) ++ rest.padding

/-- The fields of a ROUTE_WRITE's body, and the entries its COUNT names (R269). -/
def routeTable (b : List Byte) : Nat := leNat (b.take 1)
def routeFirst (b : List Byte) : Nat := leNat ((b.drop 2).take 2)
def routeCount (b : List Byte) : Nat := leNat ((b.drop 4).take 2)
def routeEntries (b : List Byte) : List Nat := (List.range (routeCount b)).map fun i => leNat ((b.drop (8 + 2 * i)).take 2)

/-- A ROUTE_WRITE's body that R269 and R270 refuse: reserved bytes or padding that is not zero, a table above 6, a count outside 1 to 108, a
length other than R269's, an entry beyond the last node or with a form of its own table's that R263 does not have. -/
def routeBodyBad (b : List Byte) : Bool :=
  let t := routeTable b
  let n := routeCount b
  leNat ((b.drop 1).take 1) != 0 || leNat ((b.drop 6).take 2) != 0 || decide (6 < t) || n == 0 || decide (108 < n) ||
  b.length != 8 + (2 * n + 7) / 8 * 8 || leNat (b.drop (8 + 2 * n)) != 0 || decide (16384 < routeFirst b + n) ||
  (routeEntries b).any fun e => entryBad t e

/-- ROUTE_WRITE into the shadow bank (R269). -/
def writeRoutes (table first : Nat) (entries : List Nat) (s : State) : State × Half × List Nat :=
  let sh := (entries.mapIdx fun i e => (table * 16384 + first + i, BitVec.ofNat 16 e)).foldl (fun t p => tsetD t p.1 p.2 0) s.fabric.shadow
  ({ s with fabric := { s.fabric with shadow := sh } }, stOk, [])

/-- The copy of every shadow bank into its active bank (R270). -/
def applyRoutes (s : State) : State :=
  pump (setEvent { s with fabric := { s.fabric with active := s.fabric.shadow } } rEgEvent 6)

/-- ROUTE_COMMIT names a boundary, zero for the next; outside LOCKED and HOLDOVER no beat number has begun. -/
def routeCommitAt (beat : Nat) (s : State) : State × Half × List Nat :=
  if beat != 0 && hasBeat s && decide (beat ≤ now s) then (s, stBeatPassed, [])
  else ({ s with fabric := { s.fabric with commitAt := s.fabric.commitAt ++ [beat] } }, stOk, [])

/-- A commit is due at the boundary that begins beat `now`. -/
def commitDue (s : State) (b : Nat) : Bool := b == 0 || (hasBeat s && decide (b ≤ now s))

/-- The commits due at a boundary, in step 1 of R28. -/
def routeBoundary (s : State) : State :=
  if s.fabric.commitAt.any (commitDue s) then
    applyRoutes { s with fabric := { s.fabric with commitAt := s.fabric.commitAt.filter fun b => !commitDue s b } }
  else s

end Sys2Proof.Machine
end

