-- ==== Sys2Proof/Machine/Dma.lean ====
section
/-!
DEFINITION. DMA descriptors (R56–R58): the instruction, the checks at the start, the ends of a transfer in each space, completion.
Line operations of space 3 are in Machine/Remote.lean.
-/

namespace Sys2Proof.Machine

/-! ## Descriptors in flight -/

def dmaOf (s : State) (c id : Nat) : Option DmaOp := (cellGet s c).dma.find? fun d => d.id == id
def dmaMod (s : State) (c id : Nat) (f : DmaOp → DmaOp) : State :=
  let x := cellGet s c
  cellSet s c { x with dma := x.dma.map fun d => if d.id == id then f d else d }

/-- A descriptor is among the 32 in flight (R58). -/
def dmaInFlight (s : State) (c id : Nat) : Bool := ((cellGet s c).dma.take 32).any fun d => d.id == id

/-- Workers that wait for a descriptor slot which is now theirs become READY. -/
def wakeSlots (s : State) (c : Nat) : State :=
  ((cellGet s c).dma.take 32).foldl (fun s d =>
    match (workerGet s c d.worker).wait with
    | .dmaSlot id => if id = d.id then wake s c d.worker else s
    | _ => s) s

/-- A descriptor ends: STATUS and the counter, unless its context was aborted or swapped out (R58). -/
def finishDma (s : State) (c id : Nat) (st : Half) : State :=
  match dmaOf s c id with
  | none => s
  | some d =>
    let x := cellGet s c
    let s := cellSet s c { x with dma := x.dma.filter fun y => y.id != id }
    let s := if d.saved then
        let base := ((winOfCtx s c d.ctx).map fun w => w.base).getD 0
        { s with sched := { s.sched with ctxs := tmod s.sched.ctxs d.ctx fun x =>
            { x with finished := x.finished ++ [(c, d.worker, d.statusAt - base, d.ctr, st)] } } }
      else if d.mute then s else incCounter (cellWrite s c d.statusAt (leBytes 2 st.toNat)) c d.worker d.ctr
    wakeSlots s c

/-- The engine takes the descriptor at window offset `a` (R56); the answer says whether it is beyond the 32 in flight. -/
def takeDma (s : State) (c w : Nat) (win : Win) (a : Nat) : State × Option Nat :=
  let bs := cellRead s c (win.base + a) 64
  let n := fun o k => leNat ((bs.drop o).take k)
  let id := s.grid.nextDma
  let d : DmaOp := {
    id := id, worker := w, ctx := win.ctx, desc := a, src := n 0 8, dst := n 8 8, len := n 16 4
    srcSpace := bits (n 20 1) 3 0, dstSpace := bits (n 20 1) 7 4, ctr := bits (n 21 1) 1 0, fence := bit (n 22 1) 0 == 1
    key := BitVec.ofNat 64 (n 24 8), started := false
    resv := bits (n 21 1) 7 2 != 0 || bits (n 22 1) 7 1 != 0 || n 23 1 != 0 || n 34 30 != 0
    statusAt := win.base + a + 32 }
  let s := { s with grid := { s.grid with nextDma := id + 1 } }
  let cell := cellGet s c
  let s := cellSet s c { cell with dma := cell.dma ++ [d] }
  (s, if dmaInFlight s c id then none else some id)

/-- DMA: the descriptor at A + IMM is read as the instruction issues (R56). DESIGN CHOICE (log entry 18): the read is a load of 64 bytes
(R45, R46, R48), so a descriptor at an address that is not a multiple of 64, outside the window or on a poisoned line faults the worker with
MISALIGNED, BOUNDS or POISONED, and no STATUS is written. -/
def dmaEffect (e : Ecc) (s : State) (x : Issue) : State :=
  let a := x.addr s
  withAccess s x a 64 true false e fun s =>
    match takeDma s x.c x.w x.win a with
    | (s, none) => s
    | (s, some id) => setWait s x.c x.w (.dmaSlot id)

/-! ## The ends of a transfer -/

def spaceAlign (sp : Nat) : Nat := if sp = 3 then 128 else 64

/-- Resolves an end in space 0, 1 or 2 of a context's descriptor on cell `c`: the place, or the status of R57. -/
def resolveEnd (s : State) (c ctx sp addr len : Nat) (write : Bool) : Half ⊕ (Nat × Nat) :=
  if sp = 2 then
    match tget s.sched.ctxs ctx with
    | none => .inl stBounds
    | some x =>
      if within addr len x.base x.size && inRange s addr len then .inr (0, addr)
      else if write && addr == lensPort s && len == 64 then .inr (0, addr)
      else .inl stBounds
  else
    let cell := if sp = 0 then c else addr / 2 ^ 21
    let off := if sp = 0 then addr else addr % 2 ^ 21
    match winOfCtx s cell ctx with
    | none => .inl stBounds
    | some w =>
      if !cellOn s cell || decide (w.size < off + len) || (write && decide (off < w.code)) then .inl stBounds
      else .inr (cell, w.base + off)

/-- Bytes and poison of 64 bytes at a resolved place. -/
def placeLine (s : State) (sp : Nat) (p : Nat × Nat) : List Byte × Bool :=
  if sp = 2 then (rangeRead s p.2 64, linePoisoned s (lineOf p.2))
  else (cellRead s p.1 p.2 64, cellPoisoned s p.1 (lineOf p.2))

/-- Writes 64 bytes at a resolved place; false where no tile was free (R227). -/
def putLine (s : State) (sp : Nat) (p : Nat × Nat) (bs : List Byte) (poison : Bool) : State × Bool :=
  if sp = 2 then rangeWrite s p.2 bs poison else (cellWrite s p.1 p.2 bs poison, true)

/-- The findings on the lines of `n` bytes of a source (R48, R238, R245). -/
def sourceEcc (s : State) (sp : Nat) (p : Nat × Nat) (n : Nat) (found : Findings) : State :=
  if sp = 2 then memoryFindings s p.2 n found else cellFindings s p.1 p.2 n found

/-- Charges the tier bytes of a line. -/
def chargeLine (s : State) (client sp : Nat) (p : Nat × Nat) (wr : Bool) : State :=
  if sp = 2 then chargeAccess s client p.2 64 wr else s

/-- Moves `n` lines; the answer says whether a source line was poisoned and whether a write failed. -/
def moveLines (client ss ds : Nat) (src dst : Nat × Nat) : Nat → State → State × Bool × Bool
  | 0, s => (s, false, false)
  | n + 1, s =>
    let (s, po, bad) := moveLines client ss ds src dst n s
    let a := (src.1, src.2 + 64 * n)
    let b := (dst.1, dst.2 + 64 * n)
    let (bs, p) := placeLine s ss a
    let s := chargeLine s client ss a false
    let s := if ss = 2 then touchRange s a.2 64 else s
    let (s, ok) := putLine s ds b bs p
    (chargeLine s client ds b true, po || p, bad || !ok)

/-! ## The checks of R57 -/

/-- The status that ends a descriptor before any access, or its two ends. -/
def checkDma (s : State) (c : Nat) (d : DmaOp) : Half ⊕ ((Nat × Nat) × (Nat × Nat)) :=
  let al := fun a => a % spaceAlign d.srcSpace == 0 && a % spaceAlign d.dstSpace == 0
  if d.len = 0 then .inl stOkNoop
  else if d.resv || 4 ≤ d.srcSpace || 4 ≤ d.dstSpace || 0x4000000 < d.len || (d.srcSpace == 3 && d.dstSpace == 3) then .inl stBadField
  else if d.src % spaceAlign d.srcSpace != 0 || d.dst % spaceAlign d.dstSpace != 0 || !al d.len then .inl stBadField
  else
    let src := if d.srcSpace = 3 then .inr (0, d.src) else resolveEnd s c d.ctx d.srcSpace d.src d.len false
    let dst := if d.dstSpace = 3 then .inr (0, d.dst) else resolveEnd s c d.ctx d.dstSpace d.dst d.len true
    match src, dst with
    | .inl st, _ => .inl st
    | _, .inl st => .inl st
    | .inr a, .inr b =>
      if d.dstSpace = 2 && sealedRange s d.dst d.len then .inl stRights
      else if (d.srcSpace = 3 || d.dstSpace = 3) && d.key.toNat % 2 ^ 44 == 0 then .inl stKeyInvalid
      else .inr (a, b)

/-- The descriptor may start: in flight, in its worker's issue order, and past its fence (R58). -/
def dmaMayStart (s : State) (c : Nat) (d : DmaOp) : Bool :=
  let earlier := (cellGet s c).dma.filter fun y => y.worker == d.worker && decide (y.id < d.id)
  !d.started && dmaInFlight s c d.id && (if d.fence then earlier.isEmpty else earlier.all fun y => y.started)

/-- The descriptor is a request to the lens (R173). -/
def dmaToLens (s : State) (d : DmaOp) : Bool := d.dstSpace == 2 && d.dst == lensPort s && d.len == 64

/-- A transfer between spaces 0 to 2 completes: the data is placed as STATUS and the counter appear (R58). -/
def completeDma (s : State) (c id : Nat) (found : Findings) : State :=
  match dmaOf s c id with
  | none => s
  | some d =>
    if !d.started || d.srcSpace == 3 || d.dstSpace == 3 || dmaToLens s d then s
    else
      let s := sourceEcc s d.srcSpace d.srcAt d.len found
      let (s, po, bad) := moveLines (ctxClient s d.ctx) d.srcSpace d.dstSpace d.srcAt d.dstAt (d.len / 64) s
      finishDma s c id (if bad then stNoResource else if po then stPoisoned else stOk)

/-- Descriptors of a context on a cell when it is aborted or swapped out (R58): those not started are discarded, the others finish
their access and say nothing. The discarded are returned. -/
def muteDma (s : State) (c ctx : Nat) (save : Bool := false) : State × List (Nat × Nat) :=
  let x := cellGet s c
  let gone := x.dma.filter fun d => d.ctx == ctx && !d.started
  let s := cellSet s c { x with
    dma := (x.dma.filter fun d => d.ctx != ctx || d.started).map fun d => if d.ctx == ctx then { d with mute := true, saved := save } else d }
  (wakeSlots s c, gone.map fun d => (d.worker, d.desc))

/-! ## Meanings -/

def execDma (c : CellId) (w : WorkerId) (i : Insn) (e : Ecc) (s : State) : Host.Outcome State Fault Refusal :=
  cellInsn .dma (dmaEffect e) s c.val w.val i
def execMessageArrival (c : CellId) (p : Fin 32) (s : State) : Host.Outcome State Fault Refusal :=
  .next (quiet s (messageArrives s c.val p.val))
def execCreditReturn (c : CellId) (p : Fin 32) (s : State) : Host.Outcome State Fault Refusal :=
  .next (quiet s (creditArrives s c.val p.val))
def execBarrierRelease (b : BitVec 8) (s : State) : Host.Outcome State Fault Refusal :=
  .next (quiet s (releaseBarrier s b.toNat))

/-- The scrubber reads the next line of every powered cell, with what ECC found there; the position wraps after 20,480 lines.
CL_CFG.SCRUB = 0 stops it (R48). -/
def patrolScrub (s : State) (found : List (CellId × Ecc)) : State :=
  if cfld s rClCfg 3 0 = 0 then s
  else
    let s := found.foldl (fun s f => if cellOn s f.1.val then cellEcc s f.1.val s.grid.scrub f.2 else s) s
    { s with grid := { s.grid with scrub := (s.grid.scrub + 1) % 20480 } }
def execPatrolScrub (found : List (CellId × Ecc)) (s : State) : Host.Outcome State Fault Refusal :=
  .next (quiet s (patrolScrub s found))

end Sys2Proof.Machine
end

