-- ==== Sys2Proof/Machine/Remote.lean ====
section
/-!
DEFINITION. Remote access (spec/12_remote_access.md): keys and regions (R276–R280), packets and their check words (R281, R282, R368), the
target's admission and placement (R283–R286), line operations and sends at the requester (R285, R288–R291), nodes marked down (R293).
-/

namespace Sys2Proof.Machine

/-! ## Regions (R276–R278) -/

def regionOf (s : State) (n : Nat) : Option Region := tget s.remote.regions n
def regionSet (s : State) (n : Nat) (r : Region) : State :=
  { s with remote := { s.remote with regions := tset s.remote.regions n r } }
/-- The key of region `n`: number in [63:44], secret in [43:0]. -/
def keyOf (n : Nat) (secret : BitVec 44) : DWord := BitVec.ofNat 64 (n * 2 ^ 44 + secret.toNat)
def keyRegion (k : DWord) : Nat := k.toNat / 2 ^ 44
def keySecret (k : DWord) : Nat := k.toNat % 2 ^ 44

def slotOf (s : State) (i : Nat) : RecvSlot := tgetD s.remote.slots i {}
def slotPut (s : State) (i : Nat) (r : RecvSlot) : State :=
  { s with remote := { s.remote with slots := tsetD s.remote.slots i r {} } }

/-- A region becomes FREE: its slots become EMPTY and their posts are answered, a PROT range becomes ZERO (R278, R286, R366). -/
def freeRegion (s : State) (n : Nat) : State :=
  match regionOf s n with
  | none => s
  | some r =>
    let s := if r.queue then (List.range r.slots).foldl (fun s k =>
        let x := slotOf s (r.slot0 + k)
        let s := { s with remote := { s.remote with slots := terase s.remote.slots (r.slot0 + k) } }
        if (x.state == .posted || x.state == .filling) && x.post != 0 then refuseCmd s x.post stKeyRevoked else s) s
      else s
    let s := if r.prot then zeroRange s r.base r.length else s
    let s := { s with remote := { s.remote with regions := terase s.remote.regions n } }
    let s := setEvent s rRaEvent 5
    if r.revokeCmd = 0 then s else finishCmd s r.revokeCmd stOk 0

/-- LIVE to REVOKING, and on to FREE where nothing admitted is left. -/
def revokeRegion (s : State) (n cmd : Nat) : State :=
  match regionOf s n with
  | none => s
  | some r =>
    let s := regionSet s n { r with revoking := true, revokeCmd := if cmd = 0 then r.revokeCmd else cmd }
    if r.admitted = 0 then freeRegion s n else s

/-- An admitted operation of a region has finished at this node. -/
def admittedDone (s : State) (n : Nat) : State :=
  match regionOf s n with
  | none => s
  | some r =>
    let s := regionSet s n { r with admitted := r.admitted - 1 }
    if r.revoking && r.admitted ≤ 1 then freeRegion s n else s

/-! ## Registration (R279, R280) -/

/-- First run of `n` slot records that no region holds. -/
def freeSlots (s : State) (n : Nat) : Option Nat :=
  let used := (s.remote.regions.filter fun e => e.2.queue).map fun e => (e.2.slot0, e.2.slots)
  let starts := 0 :: used.map fun u => u.1 + u.2
  ((sortBy id starts).find? fun a =>
    decide (a + n ≤ cget s rRaSlotCount) && !used.any fun u => overlaps a n u.1 u.2)

/-- The lowest FREE region number from 1. -/
def freeRegionNumber (s : State) : Option Nat :=
  ((1 :: s.remote.regions.map fun e => e.1 + 1).filter fun n =>
    decide (0 < n) && decide (n < cget s rRaRegCount) && (regionOf s n).isNone) |> sortBy id |>.head?

/-- INSTRUMENT is granted: nothing new may be protected (R372). -/
def instrumentOpen (s : State) : Bool := bit s.sec.debug 1 == 1

/-- OP_REGISTER_REGION. -/
def registerRegion (s : State) (cmd fn : Nat) (a : RegionArg) : State :=
  let at_ := a.attr.toNat
  let queue := a.kind == 1
  let prot := bit at_ 3 == 1
  let base := a.base.toNat
  let size := a.size.toNat
  if 1 < a.kind.toNat || bit at_ 2 == 1 || bits at_ 7 5 != 0 || (!queue && bits at_ 1 0 == 0) || (queue && bits at_ 1 0 != 0) ||
      base % 128 != 0 || (!queue && size % 128 != 0) || (queue && 1024 < size) then refuseCmd s cmd stBadField
  else if size = 0 then refuseCmd s cmd stBadLength
  else if !queue && (!fnMay s fn base size || !inRange s base size) then refuseCmd s cmd stBounds
  else if !queue && ((prot && s.sched.ctxs.any fun e => !e.2.prot && overlaps base size e.2.base e.2.size) ||
      (!prot && s.remote.regions.any fun e => e.2.prot && !e.2.revoking && overlaps base size e.2.base e.2.length)) then
    refuseCmd s cmd stRights
  else if prot && instrumentOpen s then refuseCmd s cmd stRights
  else if !s.sec.rngOk then refuseCmd s cmd stNoResource
  else
    match freeRegionNumber s, (if queue then freeSlots s size else some 0) with
    | some n, some slot0 =>
      let (v, s) := takeRandom s 44
      let secret : BitVec 44 := if v = 0 then 1 else BitVec.ofNat 44 v
      let s := if prot && !queue then zeroRange s base size else s
      let s := regionSet s n {
        base := if queue then 0 else base, length := if queue then 0 else size, secret := secret, rd := bit at_ 0 == 1
        wr := bit at_ 1 == 1, queue := queue, prot := prot, from_ := if bit at_ 4 = 1 then some (BitVec.ofNat 14 a.from_.toNat) else none
        client := fn, slot0 := slot0, slots := if queue then size else 0 }
      finishCmd s cmd stOk (keyOf n secret).toNat
    | _, _ => refuseCmd s cmd stNoResource

/-- OP_REVOKE_REGION. -/
def opRevoke (s : State) (cmd fn : Nat) (key : DWord) : State :=
  let n := keyRegion key
  if keySecret key = 0 then refuseCmd s cmd stKeyInvalid
  else if n = 0 then refuseCmd s cmd stRights
  else
    match regionOf s n with
    | none => refuseCmd s cmd stKeyInvalid
    | some r =>
      if r.secret.toNat != keySecret key then refuseCmd s cmd stKeyInvalid
      else if r.client != fn then refuseCmd s cmd stClientMismatch
      else if r.revoking then refuseCmd s cmd stOkNoop
      else revokeRegion s n cmd

/-! ## Packets (R281, R282, R368) -/

/-- The check word of a packet under a key. -/
def checkWord (key : DWord) (p : Packet) : Word :=
  let h := pktHead30 p
  let k : BitVec 128 := BitVec.ofNat 128 (key.toNat + 2 ^ 64 * p.src.toNat + 2 ^ 80 * pktNode p)
  BitVec.ofNat 32 (sipHash k (h.take 14 ++ h.drop 15 ++ p.payload)).toNat

/-- The nonce and the additional data of a protected packet. -/
def gcmNonce (p : Packet) (ctr : Nat) : List Byte := leBytes 2 p.src.toNat ++ leBytes 2 0 ++ leBytes 8 ctr
def gcmAad (p : Packet) : List Byte := (pktHead30 p).take 14 ++ (pktHead30 p).drop 15

/-- Encrypts the payload of a packet with PROT; without a key of the job it stays (R369 stops the sender before). -/
def protectPacket (s : State) (p : Packet) : Packet × State :=
  match p.prot, s.remote.kfab with
  | true, some k =>
    let c := s.remote.gcm
    let n := p.payload.length
    let out := Config.gcmSeal k (gcmNonce p c) (gcmAad p) p.payload
    ({ p with payload := fitBytes n out, ext := leBytes 8 c ++ fitBytes 16 (out.drop n) },
     { s with remote := { s.remote with gcm := c + 1 } })
  | _, _ => (p, s)

/-- The plaintext of a protected packet; none where the tag fails. -/
def openPacket (s : State) (p : Packet) : Option (List Byte) :=
  if !p.prot then some p.payload
  else
    match s.remote.kfab with
    | none => none
    | some k => (Config.gcmOpen k (gcmNonce p (leNat (p.ext.take 8))) (gcmAad p) p.payload ((p.ext.drop 8).take 16)).map
        (fitBytes p.payload.length)

/-- Sends a packet of R281 with its check word under `key`. -/
def sendPacket (s : State) (key : DWord) (p : Packet) (rs client : Option Nat) : State :=
  let (p, s) := protectPacket s { p with src := BitVec.ofNat 14 (nodeNum s) }
  inject s { p with echk := checkWord key p } rs client

/-- The bare fields of a packet. -/
def barePacket (type vc dest tag aux beat : Nat) (prot : Bool) (payload : List Byte) : Packet :=
  { type := BitVec.ofNat 8 type, vc := BitVec.ofNat 2 vc, ordered := false, prot := prot, dest := BitVec.ofNat 64 dest, src := 0
    hops := 0, sub := 0, tag := BitVec.ofNat 32 tag, aux := BitVec.ofNat 32 aux, beat := BitVec.ofNat 48 beat, payload := payload
    ext := [], hchk := 0, pcrc := 0, echk := 0, resv := false }

/-! ## Admission (R283) -/

/-- Region and slot that a request names. -/
def pktRegion (p : Packet) : Nat := if p.type == 1 || p.type == 2 then p.aux.toNat % 2 ^ 20 else p.dest.toNat / 2 ^ 30 % 2 ^ 20
def pktSlot (p : Packet) : Nat := p.dest.toNat / 2 ^ 20 % 2 ^ 10
/-- Byte offset a request names, without the POISON bit. -/
def pktOffset (p : Packet) : Nat :=
  let n := if p.type == 1 || p.type == 2 then p.dest.toNat % 2 ^ 50 else p.dest.toNat % 2 ^ 20
  n - n % 2
def pktPoison (p : Packet) : Bool := p.dest.getLsbD 0

/-- Reserved bits and lengths of R281. -/
def pktFormOk (p : Packet) : Bool :=
  (match p.type.toNat with
   | 1 => p.payload.length == 128 && pktOffset p % 128 == 0 && p.aux.toNat < 2 ^ 20
   | 2 => p.payload.isEmpty && pktOffset p % 128 == 0 && !pktPoison p && p.aux.toNat < 2 ^ 20
   | 4 => 8 ≤ p.payload.length && p.payload.length ≤ 256 && p.payload.length % 8 == 0 && pktOffset p % 256 == 0
   | 6 => p.payload.length == 8 && p.dest.toNat % 2 ^ 20 == 0
   | _ => true)

/-- How far a generation is from a slot's: 0 equal, 1 ahead, 2 behind. -/
def genOrder (g gen : Nat) : Nat :=
  let d := (g + 2 ^ 32 - gen) % 2 ^ 32
  if d = 0 then 0 else if d < 2 ^ 31 then 1 else 2

def fillingSlots (s : State) : Nat := (s.remote.slots.filter fun e => e.2.state == .filling).length

/-- The slot rows of R283. `plain` is the payload as plaintext. -/
def checkSlot (s : State) (r : Region) (p : Packet) (plain : List Byte) : Half :=
  let x := slotOf s (r.slot0 + pktSlot p)
  let g := genOrder p.aux.toNat x.gen
  let tlen := leNat (plain.take 4)
  if x.state == .empty || g = 1 then stNoBuffer
  else if g = 2 then stStaleGeneration
  else if x.state == .complete then stDuplicateDropped
  else if x.state == .filling && (x.src != p.src.toNat || x.tag != p.tag) then stSlotBusy
  else if p.type == 4 && (x.size < pktOffset p + p.payload.length || (x.tailv && x.tlen < pktOffset p + p.payload.length)) then stBounds
  else if p.type == 6 && (tlen = 0 || tlen % 8 != 0 || x.size < tlen) then stBounds
  else if x.state == .posted && 4096 ≤ fillingSlots s then stNoResource
  else stOk

/-- The rows of R283 for a request, the tag check of R369 last. The answer's second part says whether the check word matched. -/
def admitStatus (s : State) (p : Packet) : Half × Bool :=
  let n := pktRegion p
  match regionOf s n with
  | none => (stKeyInvalid, false)
  | some r =>
    if cget s rRaRegCount ≤ n then (stKeyInvalid, false)
    else if checkWord (keyOf n r.secret) p != p.echk then (stKeyInvalid, false)
    else
      let st :=
        if r.revoking then stKeyRevoked
        else if (match r.from_ with | some f => f != p.src | none => false) then stRights
        else if p.type == 1 && !r.wr || p.type == 2 && !r.rd || (p.type == 1 || p.type == 2) && r.queue ||
            (p.type == 4 || p.type == 6) && !r.queue then stRights
        else if p.prot != r.prot then stRights
        else if (p.type == 1 || p.type == 2) && r.length < pktOffset p + 128 then stBounds
        else if (p.type == 4 || p.type == 6) && r.slots ≤ pktSlot p then stBounds
        else if p.type == 4 || p.type == 6 then
          checkSlot s r p ((openPacket s p).getD [])
        else stOk
      let st := if (st == stOk || (st == stBounds && p.type == 6)) && (openPacket s p).isNone then stAuthFailed else st
      (st, true)

def isViolation (st : Half) : Bool := st.toNat / 256 == 3

/-- Counts, records and reports a refusal at the target (R284). -/
def reportRefusal (s : State) (p : Packet) (st : Half) : State :=
  if isViolation st then
    let s := (errRecord s rRaViol (p.src.toNat * 2 ^ 16 + st.toNat) [(rRaViolRegion, p.type.toNat * 2 ^ 24 + pktRegion p)]).1
    let s := setEvent (satAdd s rRaRefuseCount 31 16 1) rRaEvent 0
    let s := if st == stAuthFailed then setEvent s rScEvent 3 else s
    event s { sev := sevNotice, src := srcRemote, status := st
              detail := [rget s rRaViol / 2 ^ 30 * 2 ^ 30 + p.src.toNat * 2 ^ 16 + st.toNat, p.type.toNat * 2 ^ 24 + pktRegion p] }
  else satAdd s rRaRefuseCount 15 0 1

/-- An answer to a request. Where the target does not hold the operation's key, the check word it writes is not stated. -/
def sendAnswer (s : State) (type node tag region : Nat) (prot : Bool) (st : Half) (known poison : Bool) (payload : List Byte) : State :=
  let p := barePacket type 1 (node * 2 ^ 50 + b2n poison) tag st.toNat 0 prot payload
  match regionOf s region, known with
  | some r, true => sendPacket s (keyOf region r.secret) p none (some r.client)
  | _, _ =>
    let (v, s) := takeFree s 32
    let (p, s) := protectPacket s { p with src := BitVec.ofNat 14 (nodeNum s) }
    inject s { p with echk := BitVec.ofNat 32 v } none none

def answerType (t : Byte) : Nat := match t.toNat with
  | 1 => 5 | 2 => 3 | _ => 7

/-- Refuses a request: a WRITE, READ or FLUSH is answered, a SEND piece is not. -/
def refuseRequest (s : State) (p : Packet) (st : Half) (known : Bool) : State :=
  let s := reportRefusal s p st
  if p.type == 4 then s
  else sendAnswer s (answerType p.type) p.src.toNat p.tag.toNat (pktRegion p)
    (((regionOf s (pktRegion p)).map fun r => r.prot).getD false) st known false []

/-- Adds an admitted operation (R283). -/
def addAdmitted (s : State) (region slot place : Nat) (p : Packet) : State :=
  match regionOf s region with
  | none => s
  | some r =>
    let s := regionSet s region { r with admitted := r.admitted + 1 }
    { s with remote := { s.remote with
        nextAdm := s.remote.nextAdm + 1
        admitted := s.remote.admitted ++ [{ id := s.remote.nextAdm, region := region, slot := slot, place := place, pkt := p }] } }

/-- Takes an admitted operation that finishes now. -/
def takeAdmitted (s : State) (n : Nat) (type : Byte) : Option (Admitted × State) :=
  (s.remote.admitted.find? fun a => a.id == n && a.pkt.type == type).map fun a =>
    (a, { s with remote := { s.remote with admitted := s.remote.admitted.filter fun x => x.id != n } })

/-- The checks before R283: the hop checks at the destination (R265) and the reserved fields (R252). -/
def arriving (s : State) (arr : Option PortId) (p : Packet) (type : Byte) (k : State → State) : State :=
  if p.type != type then s
  else if !pktHopOk p then discardHchk (takenIn s arr p)
  else if s.fabric.node.isNone || pktNode p != nodeNum s then forwardPacket s arr p
  else
    let s := takenIn s arr p
    match deliverCheck s p with
    | some st => refuseDelivery s p st
    | none => if !pktFormOk p then sendReturn s p stBadField else k s

/-- Charges the payload bytes received to the region's client (R221). -/
def chargeRx (s : State) (p : Packet) : State :=
  match regionOf s (pktRegion p) with
  | some r => if p.payload.isEmpty then s else charge s r.client 9 13 p.payload.length
  | none => s

def receiveWrite (s : State) (p : Packet) : State :=
  match admitStatus s p, regionOf s (pktRegion p) with
  | (st, known), some r =>
    if st == stOk then addAdmitted (chargeRx s p) (pktRegion p) 0 (r.base + pktOffset p) { p with payload := (openPacket s p).getD [] }
    else refuseRequest s p st known
  | (st, known), none => refuseRequest s p st known

def receiveRead (s : State) (p : Packet) : State :=
  match admitStatus s p, regionOf s (pktRegion p) with
  | (st, known), some r =>
    if st == stOk then addAdmitted s (pktRegion p) 0 (r.base + pktOffset p) p else refuseRequest s p st known
  | (st, known), none => refuseRequest s p st known

/-- A WRITE is placed as two lines of 64 bytes and answered (R285). -/
def placeWrite (s : State) (n : Nat) : State :=
  match takeAdmitted s n 1 with
  | none => s
  | some (a, s) =>
    let po := pktPoison a.pkt
    let (s, ok1) := rangeWrite s a.place (a.pkt.payload.take 64) po
    let (s, ok2) := rangeWrite s (a.place + 64) (a.pkt.payload.drop 64) po
    let s := match regionOf s a.region with
      | some r => chargeAccess s r.client a.place 128 true
      | none => s
    let s := sendAnswer s 5 a.pkt.src.toNat a.pkt.tag.toNat a.region a.pkt.prot (if ok1 && ok2 then stOk else stNoResource) true false []
    admittedDone s a.region

/-- A READ is answered with its line; a poisoned line answers ST_POISONED with POISON set (R285). -/
def finishRead (s : State) (n : Nat) (found : Findings) : State :=
  match takeAdmitted s n 2 with
  | none => s
  | some (a, s) =>
    let s := touchRange (memoryFindings s a.place 128 found) a.place 128
    let po := rangePoisoned s a.place 128
    let s := match regionOf s a.region with
      | some r => chargeAccess s r.client a.place 128 false
      | none => s
    let s := sendAnswer s 3 a.pkt.src.toNat a.pkt.tag.toNat a.region a.pkt.prot (if po then stPoisoned else stOk) true po
      (rangeRead s a.place 128)
    admittedDone s a.region

/-! ## Slots (R286) -/

/-- POSTED to FILLING with the first admitted piece or FLUSH. -/
def fillSlot (x : RecvSlot) (p : Packet) : RecvSlot :=
  if x.state == .posted then { x with state := .filling, src := p.src.toNat, tag := p.tag } else x

/-- Every byte below TLEN has been placed by a piece. -/
def slotCovered (x : RecvSlot) : Bool :=
  (List.range ((x.tlen + 255) / 256)).all fun i =>
    x.placed.any fun q => q.1 == 256 * i && decide (min 256 (x.tlen - 256 * i) ≤ q.2)

/-- The post that is to be reported when region 0's slot completes is the device's own: it is posted again (R294). -/
def repostForager (s : State) (i : Nat) : State :=
  let x := slotOf s i
  slotPut s i { buf := x.buf, size := x.size, gen := (if x.gen + 1 < 2 ^ 32 then x.gen + 1 else 1), state := .posted }

/-- A FILLING slot whose FLUSH is held and whose bytes are all there completes, or fails its CRC (R286). -/
def trySlot (s : State) (region slot : Nat) : State :=
  match regionOf s region with
  | none => s
  | some r =>
    let i := r.slot0 + slot
    let x := slotOf s i
    if x.state != .filling || !x.tailv || !slotCovered x then s
    else if crc32c (rangeRead s x.buf x.tlen) == x.tcrc then
      let st := if x.poison then stPoisoned else stOk
      let s := slotPut s i { x with state := .complete, post := 0 }
      let s := if x.post = 0 then s else finishCmd s x.post st (x.tlen + 2 ^ 32 * x.src)
      let s := sendAnswer s 7 x.src x.tag.toNat region r.prot st true false []
      if region = 0 then repostForager s i else s
    else
      let s := slotPut s i { buf := x.buf, size := x.size, gen := x.gen, state := .posted, post := x.post }
      let s := setEvent s rRaEvent 4
      sendAnswer s 7 x.src x.tag.toNat region r.prot stCheckMismatch true false []

def receivePiece (s : State) (p : Packet) : State :=
  let (st, known) := admitStatus s p
  match regionOf s (pktRegion p), st == stOk with
  | some r, true =>
    let i := r.slot0 + pktSlot p
    let x := fillSlot (slotOf s i) p
    addAdmitted (slotPut (chargeRx s p) i x) (pktRegion p) (pktSlot p) (x.buf + pktOffset p) { p with payload := (openPacket s p).getD [] }
  | _, _ => refuseRequest s p st known

/-- A piece is placed; it counts toward the coverage of the generation it names (R286). -/
def placePiece (s : State) (n : Nat) : State :=
  match takeAdmitted s n 4 with
  | none => s
  | some (a, s) =>
    let po := pktPoison a.pkt
    let (s, _) := rangeWrite s a.place a.pkt.payload po
    let s := match regionOf s a.region with
      | some r =>
        let s := chargeAccess s r.client a.place a.pkt.payload.length true
        let i := r.slot0 + a.slot
        let x := slotOf s i
        if x.state == .filling && x.gen == a.pkt.aux.toNat && x.tag == a.pkt.tag then
          trySlot (slotPut s i { x with
            placed := x.placed ++ [(pktOffset a.pkt, a.pkt.payload.length)], poison := x.poison || po }) a.region a.slot
        else s
      | none => s
    admittedDone s a.region

def receiveFlush (s : State) (p : Packet) : State :=
  let (st, known) := admitStatus s p
  match regionOf s (pktRegion p), st == stOk with
  | some r, true =>
    let i := r.slot0 + pktSlot p
    let x := fillSlot (slotOf s i) p
    let pl := (openPacket s p).getD []
    trySlot (slotPut (chargeRx s p) i { x with
      tailv := true, tlen := leNat (pl.take 4), tcrc := BitVec.ofNat 32 (leNat ((pl.drop 4).take 4)) }) (pktRegion p) (pktSlot p)
  | _, _ => refuseRequest s p st known

/-- OP_POST_RECV (R287). -/
def postRecv (s : State) (cmd fn : Nat) (a : PostArg) : State :=
  let n := keyRegion a.key
  let size := a.size.toNat
  let buf := a.buf.toNat
  if keySecret a.key = 0 then refuseCmd s cmd stKeyInvalid
  else if n = 0 then refuseCmd s cmd stRights
  else
    match regionOf s n with
    | none => refuseCmd s cmd stKeyInvalid
    | some r =>
      if r.secret.toNat != keySecret a.key then refuseCmd s cmd stKeyInvalid
      else if r.revoking then refuseCmd s cmd stKeyRevoked
      else if !r.queue then refuseCmd s cmd stRights
      else if r.client != fn then refuseCmd s cmd stClientMismatch
      else if size = 0 then refuseCmd s cmd stBadLength
      else if r.slots ≤ a.slot.toNat || 1048576 < size || size % 8 != 0 || buf % 256 != 0 then refuseCmd s cmd stBadField
      else if !fnMay s fn buf size then refuseCmd s cmd stBounds
      else if r.prot != (s.remote.regions.any (fun e => e.2.prot && !e.2.queue && within buf size e.2.base e.2.length)) then
        refuseCmd s cmd stRights
      else
        let i := r.slot0 + a.slot.toNat
        let x := slotOf s i
        let s := slotPut s i { buf := buf, size := size, gen := (if x.gen + 1 < 2 ^ 32 then x.gen + 1 else 1), state := .posted, post := cmd }
        if (x.state == .posted || x.state == .filling) && x.post != 0 then refuseCmd s x.post stStaleGeneration else s

/-! ## The flush tracker (R291) -/

def addFlush (s : State) (tag : Nat) (isSend : Bool) (fn node : Nat) : State :=
  { s with remote := { s.remote with
      nextSeq := s.remote.nextSeq + 1
      flushes := s.remote.flushes ++ [{ seq := s.remote.nextSeq, tag := tag, isSend := isSend, fn := fn, node := node }] } }

/-- The tracked operations an OP_FLUSH covers. -/
def flushCovers (w : FlushWait) (f : FlushItem) : Bool :=
  f.fn == w.fn && decide (f.seq < w.upto) && (match w.node with | some n => f.node == n | none => true)

/-- Completes an OP_FLUSH whose operations have all settled or failed: the failures it reports leave the tracker. -/
def finishFlush (s : State) (w : FlushWait) : State :=
  let mine := s.remote.flushes.filter (flushCovers w)
  if mine.any (fun f => f.outcome.isNone) then s
  else
    let s := { s with remote := { s.remote with
      waits := s.remote.waits.filter fun x => x.cmd != w.cmd
      flushes := s.remote.flushes.filter fun f => !flushCovers w f } }
    match mine.head? with
    | none => finishCmd s w.cmd stOk 0
    | some f => finishCmd s w.cmd (f.outcome.getD stOk) (mine.length + 2 ^ 32 * f.node)

def checkFlushes (s : State) : State := s.remote.waits.foldl finishFlush s

/-- Settles a tracked operation: one that was placed leaves the tracker, a failure stays until an OP_FLUSH reports it. -/
def settleFlush (s : State) (tag : Nat) (isSend : Bool) (st : Half) : State :=
  let hit := fun (f : FlushItem) => f.tag == tag && f.isSend == isSend && f.outcome.isNone
  let ok := st == stOk || st == stDuplicateDropped || st == stPoisoned
  let fs :=
    if ok then s.remote.flushes.filter (fun f => !hit f)
    else s.remote.flushes.map (fun f => if hit f then { f with outcome := some st } else f)
  checkFlushes { s with remote := { s.remote with flushes := fs } }

/-- OP_FLUSH; bit [15] names every node. `upto` is the tracker's next number when the command was parsed. -/
def opFlush (s : State) (cmd fn : Nat) (node upto : Nat) : State :=
  let w : FlushWait := { cmd := cmd, fn := fn, node := if bit node 15 = 1 then none else some (node % 2 ^ 14), upto := upto }
  finishFlush { s with remote := { s.remote with waits := s.remote.waits ++ [w] } } w

/-! ## Line operations at the requester (R285) -/

def nodeDown (s : State) (n : Nat) : Bool := s.remote.down.contains n
def attemptBeat (s : State) (deadline : Nat) : Nat :=
  if !hasBeat s then 0
  else
    let b := now s + cfld s rRaCfg 7 0
    if deadline = 0 then b else min deadline b

/-- The residency slot of a context. -/
def ctxRs (s : State) (ctx : Nat) : Option Nat := (tget s.sched.ctxs ctx).bind fun x => x.rs

def lineMod (s : State) (tag : Nat) (f : LineOp → LineOp) : State :=
  { s with remote := { s.remote with lines := s.remote.lines.map fun l => if l.tag == tag then f l else l } }

/-- Sends an attempt of a line operation. -/
def attemptLine (s : State) (l : LineOp) : State :=
  let b := attemptBeat s 0
  let s := if l.attempts = 0 then s else setEvent (satAdd s rRaResendCount 31 0 1) rRaEvent 2
  let s := lineMod s l.tag fun l => { l with attempts := l.attempts + 1, until_ := b, sent := true, last := none }
  let node := l.dest.toNat / 2 ^ 50
  let off := l.dest.toNat % 2 ^ 50
  let p := if l.isRead then barePacket 2 0 (node * 2 ^ 50 + off) l.tag (keyRegion l.key) b l.prot []
    else barePacket 1 0 (node * 2 ^ 50 + off + b2n l.poison) l.tag (keyRegion l.key) b l.prot (vregBytes l.data ++ vregBytes l.data2)
  sendPacket s l.key p (ctxRs s l.ctx) (some l.fn)

/-- An earlier WRITE of the function to the same line, of the same region of the same node, awaits its answer. -/
def lineHeld (s : State) (l : LineOp) : Bool :=
  (s.remote.lines.takeWhile fun x => x.tag != l.tag).any fun x =>
    !x.isRead && x.fn == l.fn && x.dest == l.dest && keyRegion x.key == keyRegion l.key

/-- Sends the line operations that nothing holds any more. -/
def releaseLines (s : State) : State :=
  s.remote.lines.foldl (fun s l => if l.sent || lineHeld s l then s else attemptLine s l) s

/-- Notes the status of a line of a descriptor: the lowest line that failed decides. -/
def worstLine (d : DmaOp) (line : Nat) (st : Half) : DmaOp :=
  if st == stOk then d
  else match d.worst with
    | some (n, _) => if line < n then { d with worst := some (line, st) } else d
    | none => { d with worst := some (line, st) }

/-- One line of a space-3 descriptor is done; with the last of them the descriptor ends (R285). -/
def lineDone (s : State) (c id line : Nat) (st : Half) : State :=
  let s := dmaMod s c id fun d => { worstLine d line st with linesOpen := d.linesOpen - 1 }
  match dmaOf s c id with
  | none => s
  | some d => if d.linesToIssue = 0 && d.linesOpen = 0 then finishDma s c id ((d.worst.map (·.2)).getD stOk) else s

/-- A failure with ST_TARGET_LOST (R293): a READ counts and names the job. -/
def targetLost (s : State) (isRead : Bool) : State :=
  if isRead then
    event (setEvent (satAdd s rRaLostCount 31 0 1) rRaEvent 3) { sev := sevError, src := srcRemote, status := stTargetLost }
  else event s { sev := sevError, src := srcRemote, status := stTargetLost, job := false }

/-- A line operation settles or fails with a status, and data where it is a READ that answered. -/
def settleLine (s : State) (l : LineOp) (st : Half) (data : List Byte) : State :=
  let s := { s with remote := { s.remote with lines := s.remote.lines.filter fun x => x.tag != l.tag } }
  let s := if st == stTargetLost then targetLost s l.isRead else s
  let s :=
    if l.isRead then
      let ok := st == stOk
      let one := fun (s : State) (k : Nat) =>
        let p := (l.mem, l.addr + 64 * k)
        let bs := if ok || st == stPoisoned then fitBytes 64 (data.drop (64 * k)) else (placeLine s l.space p).1
        chargeLine (putLine s l.space p bs (!ok)).1 l.fn l.space p true
      lineDone (one (one s 0) 1) l.cell l.dma l.line st
    else
      let s := if l.left then s else lineDone s l.cell l.dma l.line stOk
      settleFlush s l.tag false st
  releaseLines s

/-- The descriptor whose line is taken next: in issue order over the device (R285). -/
def nextLineDma (s : State) : Option (Nat × DmaOp) :=
  (sortBy (fun e => e.2.id) (s.grid.cells.flatMap fun e =>
    (e.2.dma.filter fun d => d.started && decide (0 < d.linesToIssue)).map fun d => (e.1, d))).head?

/-- Takes the next line of a space-3 descriptor into the tracker of 8,192; what the ECC finds on a write's two source lines is free
(R48, R285, log 100). -/
def issueLine (s : State) : State :=
  match nextLineDma s with
  | none => s
  | some (c, d) =>
    if 8192 ≤ s.remote.lines.length then s
    else
      let i := d.len / 128 - d.linesToIssue
      let isRead := d.srcSpace == 3
      let client := ctxClient s d.ctx
      let remote := (if isRead then d.src else d.dst) + 128 * i
      let loc := if isRead then d.dstAt else d.srcAt
      let at_ := (loc.1, loc.2 + 128 * i)
      let sp := if isRead then d.dstSpace else d.srcSpace
      let s := dmaMod s c d.id fun d => { d with linesToIssue := d.linesToIssue - 1, linesOpen := d.linesOpen + 1 }
      let s := if isRead then s else
        let (found, s) := takeFindings s 2
        let s := sourceEcc s sp at_ 128 found
        if sp = 2 then touchRange s at_.2 128 else s
      let (b0, p0) := placeLine s sp at_
      let (b1, p1) := placeLine s sp (at_.1, at_.2 + 64)
      let po := !isRead && (p0 || p1)
      let s := if isRead then s else chargeLine (chargeLine s client sp at_ false) client sp (at_.1, at_.2 + 64) false
      let s := if po then dmaMod s c d.id fun d => worstLine d i stPoisoned else s
      let tag := s.remote.nextTag
      let l : LineOp := {
        tag := tag, isRead := isRead, fn := client, ctx := d.ctx, cell := c, mem := at_.1, dma := d.id, line := i
        dest := BitVec.ofNat 64 remote, key := d.key, space := sp, addr := at_.2, data := bytesVReg b0, data2 := bytesVReg b1
        poison := po, prot := ctxProt' s d.ctx }
      let s := { s with remote := { s.remote with nextTag := tag + 1, lines := s.remote.lines ++ [l] } }
      let node := remote / 2 ^ 50
      let s := if isRead then s else addFlush s tag false client node
      if nodeDown s node then settleLine s l stTargetLost []
      else if l.prot && s.remote.kfab.isNone then settleLine s l stRights []
      else if lineHeld s l then s else attemptLine s l
where
  ctxProt' (s : State) (ctx : Nat) : Bool := ((tget s.sched.ctxs ctx).map fun x => x.prot).getD false

/-! ## Sends (R288) -/

def sendMod (s : State) (tag : Nat) (f : SendTx → SendTx) : State :=
  { s with remote := { s.remote with sends := s.remote.sends.map fun l => if l.tag == tag then f l else l } }

/-- The TYPE code of a message (R144). -/
def bodyType : FBody → Nat
  | .create .. => 1 | .renew => 2 | .propose _ => 3 | .claim .. => 4 | .commit .. => 5 | .tokens .. => 6 | .fetch .. => 7
  | .pagesData _ => 8 | .pagesTokens .. => 8 | .pagesSummaries _ => 8 | .end_ _ => 9 | .query => 10 | .lookup .. => 10
  | .replicate _ => 11 | .notice .. => 12 | .direct .. => 13 | .reply _ => 14

/-- The arguments of a message that ARGS holds (R144). -/
def bodyArgs : FBody → List Nat
  | .create client plen maxlen parent _ _ => [client, plen, maxlen, parent.toNat]
  | .propose t => [t]
  | .claim owner epoch => [nodeField owner, epoch]
  | .commit b h _ => [b, (h.map fun h => h.toNat).getD 0]
  | .tokens first count _ => [first, count]
  | .fetch first count => [first, count]
  | .pagesData ps => [0, ((ps.head?).map fun p => p.block).getD 0, ps.length]
  | .pagesTokens first ids => [1, first, ids.length]
  | .pagesSummaries ps => [2, ((ps.head?).map fun p => p.block).getD 0, ps.length]
  | .end_ st => [st.toNat]
  | .notice kind epoch _ => [kind, epoch]
  | _ => []

/-- The 48-byte header of a forager message (R143). -/
def headerBytes (h : FHdr) (b : FBody) : List Byte :=
  leBytes 1 (bodyType b) ++ leBytes 1 (b2n h.hashv + 2 * b2n h.fork) ++ leBytes 2 h.status.toNat ++ leBytes 4 h.roleEpoch.toNat ++
  leBytes 8 h.handle.toNat ++ leBytes 4 h.epoch.toNat ++ leBytes 6 h.notBefore.toNat ++ leBytes 6 h.deadline.toNat ++
  leBytes 16 (Config.messageArgs (bodyType b) (bodyArgs b)).toNat

/-- The bytes of a request summary (R437). -/
def summaryBytes (r : ReqSummary) : List Byte :=
  leBytes 1 r.client.toNat ++ leBytes 3 0 ++ leBytes 4 r.plen.toNat ++ leBytes 4 r.maxlen.toNat ++ leBytes 4 r.cb.toNat ++
  leBytes 4 r.clenh.toNat ++ leBytes 6 r.lease.toNat ++ leBytes 6 0

/-- Bytes of pages in a payload: their data and their summary entries. -/
def pagesLen (ps : List PageData) (data summary : Bool) : Nat :=
  (ps.map fun p => (if data then p.data.length else 0) + (if summary then (p.summary.map fun b => b.length).getD 0 else 0)).foldl (· + ·) 0

/-- Bytes of a message's payload: token ids of 4, hashes of 8, a record of 64, pages as they are (R144, R147, R151), a result of 8. -/
def payloadLen : FBody → Nat
  | .create _ _ _ _ tokens hashes => 4 * tokens.length + 8 * hashes.length
  | .commit _ _ ps => pagesLen ps true true
  | .tokens _ _ ids | .pagesTokens _ ids => 4 * ids.length
  | .pagesData ps | .direct _ ps => pagesLen ps true false
  | .pagesSummaries ps => pagesLen ps false true
  | .lookup _ hashes => 8 * hashes.length
  | .replicate (.record _ hashes _ _) => 64 + 8 * hashes.length
  | .replicate (.tokens _ ids) => 4 * ids.length
  | .replicate (.pages ps _ _) => pagesLen ps true true
  | .reply (.query (some _)) => 64
  | .reply (.create ..) | .reply (.renew _) | .reply (.commit ..) | .reply (.lookup _) => 8
  | _ => 0

/-- A message as its transfers carry it: header and payload, in whole words of 8 bytes (R143, R252). The bytes of a payload are not laid out,
but for a request summary (R437; log 62). -/
def messageBytes (h : FHdr) (b : FBody) : List Byte :=
  let payload := match b with
    | .notice _ _ (some r) => summaryBytes r
    | _ => fitBytes (payloadLen b) (Config.messagePayload b)
  fitBytes ((48 + payload.length + 7) / 8 * 8) (headerBytes h b ++ payload)

/-- The transfers of 256 KiB that a message takes (R294). -/
def messageParts (h : FHdr) (b : FBody) : Nat := ((messageBytes h b).length + 262143) / 262144

/-- The packets of a transfer's attempt: pieces of 256 bytes at their offsets, then the FLUSH (R288). -/
def sendBytes (s : State) (t : SendTx) (client : Option Nat) (bytes : List Byte) (poison : Nat → Bool) : State :=
  let len := bytes.length
  let crc := crc32c bytes
  let base := t.node * 2 ^ 50 + keyRegion t.key * 2 ^ 30 + t.slot * 2 ^ 20
  let s := sendMod s t.tag fun t => { t with tcrc := crc }
  let s := (List.range ((len + 255) / 256)).foldl (fun s i =>
    sendPacket s t.key
      (barePacket 4 0 (base + 256 * i + b2n (poison i)) t.tag t.gen t.until_ t.prot ((bytes.drop (256 * i)).take 256)) none client) s
  sendPacket s t.key (barePacket 6 0 base t.tag t.gen t.until_ t.prot (leBytes 4 len ++ leBytes 4 crc.toNat)) none client

/-- Sends an attempt of a transfer: its pieces, then the FLUSH. -/
def attemptSend (s : State) (t : SendTx) : State :=
  let b := attemptBeat s t.deadline
  let s := if t.attempts = 0 then s else setEvent (satAdd s rRaResendCount 31 0 1) rRaEvent 2
  let s := sendMod s t.tag fun t => { t with attempts := t.attempts + 1, until_ := b, inFlight := true, last := none }
  let t := { t with until_ := b }
  match t.msg with
  | some (h, m) =>
    let s := if t.part = 0 then emit s (.forager t.node (headerBytes h m) h m) else s
    sendBytes s t none (((messageBytes h m).drop (262144 * t.part)).take 262144) fun _ => false
  | none =>
    let n := fun (i : Nat) => min 256 (t.len - 256 * i)
    let s := (List.range ((t.len + 255) / 256)).foldl (fun s i =>
      chargeRange (touchRange s (t.src + 256 * i) (n i)) t.fn (t.src + 256 * i) (n i) false) s
    sendBytes s t (some t.fn) (rangeRead s t.src t.len) fun i => rangePoisoned s (t.src + 256 * i) (n i)

def sendsInFlight (s : State) : Nat := (s.remote.sends.filter fun t => t.inFlight).length

/-- A transfer settles or fails. -/
def settleSend (s : State) (t : SendTx) (st : Half) : State :=
  let s := { s with remote := { s.remote with sends := s.remote.sends.filter fun x => x.tag != t.tag } }
  if t.forager then s
  else
    let s := if st == stTargetLost then targetLost s false else s
    let s := if t.flushLeft then s else finishCmd s t.cmd stOk t.tag
    settleFlush s t.tag true st

/-- OP_SEND (R288). -/
def opSend (s : State) (cmd fn : Nat) (a : SendArg) (deadline : Nat) : State :=
  let len := a.length.toNat
  let node := a.node.toNat % 2 ^ 14
  if len = 0 then refuseCmd s cmd stOkNoop
  else if 1048576 < len || len % 8 != 0 || 1023 < a.slot.toNat || a.gen == 0 || 2 ^ 14 ≤ a.node.toNat then refuseCmd s cmd stBadField
  else if !fnMay s fn a.src.toNat len || !inRange s a.src.toNat len then refuseCmd s cmd stBounds
  else if keySecret a.key = 0 then refuseCmd s cmd stKeyInvalid
  else if nodeDown s node then refuseCmd s cmd stTargetLost
  else
    let prot := s.remote.regions.any fun e => e.2.prot && overlaps a.src.toNat len e.2.base e.2.length
    if prot && s.remote.kfab.isNone then refuseCmd s cmd stRights
    else
      let tag := s.remote.nextTag
      let s := addFlush { s with remote := { s.remote with
        nextTag := tag + 1
        sends := s.remote.sends ++ [{ tag := tag, fn := fn, cmd := cmd, node := node, slot := a.slot.toNat, key := a.key
                                      gen := a.gen.toNat, src := a.src.toNat, len := len, prot := prot, deadline := deadline }] } } tag true fn node
      s

/-- The next accepted transfer starts, while fewer than 1,024 are in flight; what the ECC finds on its source lines is free
(R48, R288, log 100). -/
def startSend (s : State) : State :=
  match s.remote.sends.find? (fun t => !t.inFlight && !t.forager) with
  | none => s
  | some t =>
    if sendsInFlight s < 1024 then
      let (found, s) := takeFindings s (t.len / 64 + 2)
      attemptSend (memoryFindings s t.src t.len found) t
    else s

/-- Writes and FLUSHes whose first packet has left the device: WRITE lines count for their descriptor (R58), a transfer's reply is
written (R288). -/
def noteLeft (s : State) : State :=
  let waits := fun (type tag : Nat) => s.fabric.waiting.any fun q => q.input == 6 && q.pkt.type.toNat == type && q.pkt.tag.toNat == tag % 2 ^ 32
  let s := (s.remote.lines.filter fun l => l.sent && !l.isRead && !l.left && !waits 1 l.tag).foldl (fun s l =>
    lineDone (lineMod s l.tag fun l => { l with left := true }) l.cell l.dma l.line stOk) s
  (s.remote.sends.filter fun t => t.inFlight && !t.forager && !t.flushLeft && !waits 6 t.tag).foldl (fun s t =>
    finishCmd (sendMod s t.tag fun t => { t with flushLeft := true }) t.cmd stOk t.tag) s

/-! ## Answers and attempts (R290) -/

/-- An answer with this status settles the attempt. -/
def settles (isFlushResp : Bool) (st : Half) : Bool :=
  st == stOk || st == stDuplicateDropped || st == stPoisoned || isViolation st || st == stStaleGeneration || st == stSlotBusy ||
  (isFlushResp && st == stCheckMismatch)

/-- An answer with a status of class 0x03 has arrived (R284). -/
def noteAnswer (s : State) (st : Half) : State := if isViolation st then setEvent s rRaEvent 1 else s

/-- An answer to a request of this device: discarded where its check word or tag fails, or its TAG is not outstanding. The
continuation gets the status and the plaintext. -/
def onAnswer (s : State) (p : Packet) : State :=
  let st : Half := BitVec.ofNat 16 p.aux.toNat
  let tag := p.tag.toNat
  let lineOk := fun (l : LineOp) => l.tag % 2 ^ 32 == tag && l.sent && l.dest.toNat / 2 ^ 50 == p.src.toNat && l.isRead == (p.type == 3)
  if p.type == 7 then
    match s.remote.sends.find? (fun t => t.tag % 2 ^ 32 == tag && t.inFlight && t.node == p.src.toNat && !t.forager) with
    | none => s
    | some t =>
      if checkWord t.key p != p.echk || (openPacket s p).isNone then s
      else if settles true st then settleSend (noteAnswer s st) t st
      else sendMod s t.tag fun t => { t with last := some st }
  else
    match s.remote.lines.find? lineOk with
    | none => s
    | some l =>
      if checkWord l.key p != p.echk then s
      else
        match openPacket s p with
        | none => s
        | some d =>
          let s := noteAnswer (if d.isEmpty then s else charge s l.fn 9 13 d.length) st
          if settles false st then settleLine s l st d else lineMod s l.tag fun l => { l with last := some st }

/-- An attempt's end: retried, or failed after the last (R290). -/
def endAttemptLine (s : State) (l : LineOp) : State :=
  if l.attempts ≤ cfld s rRaCfg 11 8 then attemptLine s l else settleLine s l (l.last.getD stTargetLost) []

def endAttemptSend (s : State) (t : SendTx) : State :=
  if t.attempts ≤ cfld s rRaCfg 11 8 then attemptSend s t else settleSend s t (t.last.getD stTargetLost)

/-- The attempt is over without being settled: an answer that does not settle, or none by the boundary of BEAT. -/
def attemptOver (s : State) (until_ : Nat) (last : Option Half) : Bool := last.isSome || (until_ != 0 && hasBeat s && decide (until_ ≤ now s))

/-- The transfer's deadline beat has come (R34 kind 5): step 6 of R28 gives it up, and no attempt follows. -/
def sendLate (s : State) (t : SendTx) : Bool := t.deadline != 0 && hasBeat s && decide (t.deadline ≤ now s)

/-- A late send is abandoned: it fails with ST_DEADLINE_MISSED, in its reply where the FLUSH has not left, else in the flush tracker
(R288, R290). Pieces already placed stay placed. -/
def abandonSend (s : State) (t : SendTx) : State :=
  if t.flushLeft then settleSend s t stDeadlineMissed
  else
    let s := { s with remote := { s.remote with
      sends := s.remote.sends.filter fun x => x.tag != t.tag
      flushes := s.remote.flushes.filter fun f => !(f.tag == t.tag && f.isSend) } }
    checkFlushes (refuseCmd s t.cmd stDeadlineMissed)

/-- Nodes and their operations at a boundary, step 2 of R28 (R290). -/
def remoteBoundary (s : State) : State :=
  let s := s.remote.lines.foldl (fun s l0 =>
    match s.remote.lines.find? (fun l => l.tag == l0.tag) with
    | some l => if l.sent && attemptOver s l.until_ l.last then endAttemptLine s l else s
    | none => s) s
  s.remote.sends.foldl (fun s t0 =>
    match s.remote.sends.find? (fun t => t.tag == t0.tag) with
    | some t =>
      if t.forager || sendLate s t then s
      else if t.inFlight && attemptOver s t.until_ t.last then endAttemptSend s t
      else s
    | none => s) s

/-- A RETURN for a request of this device ends its attempt (R290). -/
def receiveReturn (s : State) (p : Packet) : State :=
  let s := setEvent (satAdd s rEgReturnCount 15 0 1) rEgEvent 4
  let st : Half := BitVec.ofNat 16 p.aux.toNat
  let type := leNat (p.payload.take 1)
  let tag := leNat ((p.payload.drop 16).take 4)
  if type = 1 || type = 2 then
    match s.remote.lines.find? (fun l => l.tag % 2 ^ 32 == tag && l.sent && l.isRead == (type == 2)) with
    | none => s
    | some l => if st == stBadField then settleLine s l st [] else lineMod s l.tag fun l => { l with last := some st }
  else if type = 4 || type = 6 then
    match s.remote.sends.find? (fun t => t.tag % 2 ^ 32 == tag && t.inFlight) with
    | none => s
    | some t => if st == stBadField && !t.forager then settleSend s t st else sendMod s t.tag fun t => { t with last := some st }
  else s

/-- A node is marked down: every operation outstanding to it fails at once (R293). -/
def markDown (s : State) (n : Nat) : State :=
  let s := if s.remote.down.contains n then s else { s with remote := { s.remote with down := insertNat n s.remote.down } }
  let s := (s.remote.lines.filter fun l => l.dest.toNat / 2 ^ 50 == n).foldl (fun s l =>
    if s.remote.lines.any (fun x => x.tag == l.tag) then settleLine s l stTargetLost [] else s) s
  (s.remote.sends.filter fun t => t.node == n && !t.forager).foldl (fun s t => settleSend s t stTargetLost) s

def markUp (s : State) (n : Nat) : State := { s with remote := { s.remote with down := s.remote.down.filter (· != n) } }

/-! ## Region 0 (R294) and the descriptor's start -/

/-- The forager key's secret. -/
def foragerSecret (hkey : BitVec 128) (job : Nat) : BitVec 44 :=
  let v : BitVec 44 := BitVec.ofNat 44 (sipHash hkey (leBytes 8 job)).toNat
  if v == 0 then 1 else v

/-- OP_START_JOB makes region 0 LIVE and posts its 1,024 slots at GEN 1. -/
def openForagerRegion (s : State) (im : ScheduleImage) : State :=
  match freeSlots s 1024 with
  | none => s
  | some slot0 =>
    let s := regionSet s 0 {
      base := 0, length := 0, secret := foragerSecret im.hkey im.job, rd := false, wr := false, queue := true, prot := false
      from_ := none, client := 0, slot0 := slot0, slots := 1024 }
    let base := cbase s rRaFqBaseLo rRaFqBaseHi
    (List.range 1024).foldl (fun s k => slotPut s (slot0 + k) { buf := base + k * 262144, size := 262144, gen := 1, state := .posted }) s

/-- The checks of R283 on a descriptor that names the device's own node, made before any access (R285). -/
def ownNodeStatus (s : State) (d : DmaOp) : Option Half :=
  let remote := if d.srcSpace = 3 then d.src else d.dst
  if s.fabric.node.isNone || remote / 2 ^ 50 != nodeNum s then none
  else
    let n := keyRegion d.key
    let off := remote % 2 ^ 50
    match regionOf s n with
    | none => some stKeyInvalid
    | some r =>
      if cget s rRaRegCount ≤ n || r.secret.toNat != keySecret d.key then some stKeyInvalid
      else if r.revoking then some stKeyRevoked
      else if (match r.from_ with | some f => f.toNat != nodeNum s | none => false) then some stRights
      else if r.queue || (d.srcSpace = 3 && !r.rd) || (d.dstSpace = 3 && !r.wr) then some stRights
      else if r.prot != ((tget s.sched.ctxs d.ctx).map fun x => x.prot).getD false then some stRights
      else if r.length < off + d.len then some stBounds
      else none

/-- DMA_DESCRIPTOR_START: the checks of R57, then the transfer runs. -/
def startDma (s : State) (c id : Nat) : State :=
  match dmaOf s c id with
  | none => s
  | some d =>
    if !dmaMayStart s c d then s
    else
      match checkDma s c d with
      | .inl st =>
        finishDma (if d.dstSpace = 2 && sealedRange s d.dst d.len && st == stRights then sealRefused s else s) c id st
      | .inr (a, b) =>
        let s := dmaMod s c id fun d => { d with started := true, srcAt := a, dstAt := b }
        if d.srcSpace = 3 || d.dstSpace = 3 then
          match ownNodeStatus s d with
          | some st => finishDma s c id st
          | none => dmaMod s c id fun d => { d with linesToIssue := d.len / 128 }
        else s

end Sys2Proof.Machine
end

