-- ==== Sys2Proof/Machine/Prism.lean ====
section
/-!
DEFINITION. Codebooks and the prism (spec/05_codebooks_prism.md): code formats, the compressed block descriptor and its checks
(R98, R100), the expansion (R101), the failure record (R103), the slot states (R94, R95).
-/

namespace Sys2Proof.Machine

/-! ## Formats (R90–R92) -/

/-- Code width of KCODE. -/
def codeWidth (kcode : Nat) : Nat := 4 + 2 * kcode
def fmtKcode (f : Nat) : Nat := bits f 2 0
/-- Vector length d. -/
def fmtD (f : Nat) : Nat := if bit f 3 = 1 then 8 else 4
def fmtEntry (f : Nat) : Nat := bits f 5 4
/-- Bytes of one element of the entry format. -/
def elemBytes (entry : Nat) : Nat := if entry = 2 then 2 else 1
def entryBytes (f : Nat) : Nat := fmtD f * elemBytes (fmtEntry f)
/-- Largest COUNT (R92). -/
def maxCount (f : Nat) : Nat :=
  let n := 2 ^ codeWidth (fmtKcode f)
  if fmtEntry f = 2 ∧ fmtD f = 8 then min n 2048 else n

/-! ## Slots (R94, R95) -/

def slotGet (s : State) (c j : Nat) : CbSlot := tgetD (cellGet s c).slots j {}
def slotSet (s : State) (c j : Nat) (x : CbSlot) : State :=
  let cell := cellGet s c
  cellSet s c { cell with slots := tset cell.slots j x }

/-- The slot of a cell that holds a version in one of the states `p`. -/
def findSlot (s : State) (c ver : Nat) (p : CbState → Bool) : Option Nat :=
  (List.range 4).find? fun j => let x := slotGet s c j; x.version == ver && p x.state

/-! ## The descriptor (R98) -/

structure CbDesc where
  version : Nat
  format : Nat
  codes : Nat
  ncodes : Nat
  esize : Nat
  check : Nat
  resv : Bool

def parseCbDesc (bs : List Byte) : CbDesc :=
  let n := fun a k => leNat ((bs.drop a).take k)
  { version := n 0 2, format := n 2 1, codes := n 4 4, ncodes := n 8 4, esize := n 12 4, check := n 16 4
    resv := n 3 1 != 0 || n 20 44 != 0 }

/-- Bytes of a stream: ⌈NCODES · k ÷ 8⌉. -/
def streamBytes (d : CbDesc) : Nat := (d.ncodes * codeWidth (fmtKcode d.format) + 7) / 8

/-- The checks of R100 at issue: the status of the first failing row, or the LIVE slot. `bfmt` and `nk` are the mode word's. DESIGN
CHOICE (log entry 21): a descriptor on a poisoned line cannot be read, so ST_POISONED comes before every row of the table. -/
def checkCbDesc (s : State) (c : Nat) (win : Win) (prot poisoned : Bool) (bfmt nk : Nat) (d : CbDesc) : Half ⊕ Nat :=
  if poisoned then .inl stPoisoned
  else if prot then .inl stDescriptorInvalid
  else if d.resv || fmtKcode d.format ≥ 5 || fmtEntry d.format == 3 || d.version == 0 || d.codes % 64 != 0 then
    .inl stDescriptorInvalid
  else if bfmt != (if fmtEntry d.format = 2 then 3 else fmtEntry d.format) then .inl stDescriptorInvalid
  else if d.esize != nk * (if fmtEntry d.format = 2 then 1024 else 2048) then .inl stDescriptorInvalid
  else if win.size < d.codes + streamBytes d then .inl stBounds
  else
    match findSlot s c d.version (· == .live) with
    | none => .inl stCodebookAbsent
    | some j => if bits (slotGet s c j).fmt.toNat 5 0 = bits d.format 5 0 then .inr j else .inl stDescriptorInvalid

/-! ## The failure record (R103) -/

/-- The PZ_EVENT flag of a status. -/
def prismFlag (st : Half) : Nat :=
  if st = stPoisoned then 0
  else if st = stCodebookAbsent then 2
  else if st = stDecodeLong ∨ st = stDecodeShort then 3
  else if st = stCheckMismatch then 4
  else 1

def prismFail (s : State) (c addr ver index : Nat) (st : Half) : State :=
  let s := (errRecord s (rPzErr c) st.toNat [(rPzErrAddr c, addr), (rPzErrVer c, ver), (rPzErrIndex c, index)]).1
  let s := setEvent s (rPzEvent c) (prismFlag st)
  let s := satAdd (satAdd s (rPzCount c) 15 0 1) rPzDecodeTotal 31 0 1
  event s { sev := sevError, src := srcPrism, status := st, loc := c } (if st = stCheckMismatch then 64 else 0)

/-! ## The codebook store's ECC (R48) -/

/-- The findings on the lines of a slot's image: an uncorrectable error poisons its line. -/
def storeFindings (s : State) (c j : Nat) (found : Findings) : State :=
  found.foldl (fun s f =>
    let x := slotGet s c j
    if x.entries.length ≤ f.1 * 64 then s
    else
      let s := if f.2 = .uncorrectable then slotSet s c j { x with poison := insertNat f.1 x.poison } else s
      cellEccNote s c f.2) s

/-! ## The expansion (R101) -/

/-- What the expansion has come to: elements produced (entry-format codes, newest first), the next code, its status. -/
structure Expand where
  out : List Nat := []
  produced : Nat := 0
  i : Nat := 0
  status : Option Half := none

/-- Code `i` of the stream at window offset `d.codes`, and whether a byte of it lies on a poisoned line. -/
def codeAt (s : State) (c : Nat) (win : Win) (d : CbDesc) (i : Nat) : Nat × Bool :=
  let k := codeWidth (fmtKcode d.format)
  let first := i * k / 8
  let n := (i * k + k - 1) / 8 - first + 1
  let a := win.base + d.codes + first
  (leNat (cellRead s c a n) / 2 ^ (i * k % 8) % 2 ^ k, cellRangePoisoned s c a n)

/-- The elements of entry `e` of a slot, and whether the entry's line is poisoned. -/
def entryElems (x : CbSlot) (f e : Nat) : List Nat × Bool :=
  let eb := elemBytes (fmtEntry f)
  let base := e * entryBytes f
  ((List.range (fmtD f)).map fun j => leNat ((x.entries.drop (base + j * eb)).take eb), x.poison.contains (lineOf base))

/-- One turn of the loop of R101. DESIGN CHOICE (log entry 21): a code that a poisoned stream byte belongs to is not read, so i still
numbers it when the expansion ends there. -/
def expandStep (s : State) (c : Nat) (win : Win) (d : CbDesc) (x : CbSlot) (e : Expand) : Expand :=
  let k := codeWidth (fmtKcode d.format)
  let v := fmtD d.format
  if e.i = d.ncodes then { e with status := some stDecodeShort }
  else
    let (code, bad) := codeAt s c win d e.i
    if bad then { e with status := some stPoisoned }
    else
      let i := e.i + 1
      if bit d.format 6 = 1 ∧ code = 2 ^ k - 1 then
        if i = d.ncodes then { e with i := i, status := some stDecodeShort }
        else
          let (r, bad) := codeAt s c win d i
          if bad then { e with i := i, status := some stPoisoned }
          else
            let n := min (r + 1) ((d.esize - e.produced) / v)
            { out := List.replicate (n * v) 0 ++ e.out, produced := e.produced + n * v, i := i + 1
              status := if n < r + 1 then some stDecodeLong else none }
      else if x.count ≤ code then { e with i := i, status := some stCodeRange }
      else
        let (el, bad) := entryElems x d.format code
        if bad then { e with i := i, status := some stPoisoned }
        else
          let n := min 1 ((d.esize - e.produced) / v)
          { out := if n = 1 then el.reverse ++ e.out else e.out, produced := e.produced + n * v, i := i
            status := if n < 1 then some stDecodeLong else none }

/-- The loop until `upto` elements are there. -/
def expandLoop (s : State) (c : Nat) (win : Win) (d : CbDesc) (x : CbSlot) (upto : Nat) : Nat → Expand → Expand
  | 0, e => e
  | n + 1, e =>
    if e.status.isSome || upto ≤ e.produced then e
    else expandLoop s c win d x upto n (expandStep s c win d x e)

/-- The expansion of the first `upto` elements alone, for an MMA that stops there (R85, R104). -/
def expandPart (s : State) (c : Nat) (win : Win) (d : CbDesc) (x : CbSlot) (upto : Nat) : Expand :=
  expandLoop s c win d x upto (upto + 1) {}

/-- The whole expansion: its status (none is ST_OK), its elements in order, and the codes it read. -/
def expand (s : State) (c : Nat) (win : Win) (d : CbDesc) (x : CbSlot) : Option Half × List Nat × Nat :=
  let e := expandPart s c win d x d.esize
  let a := win.base + d.codes
  let st :=
    if e.status.isSome then e.status
    else if e.i < d.ncodes then some stDecodeLong
    else if bit d.format 7 = 1 then
      (if cellRangePoisoned s c a (streamBytes d) then some stPoisoned
       else if (crc32c (cellRead s c a (streamBytes d))).toNat != d.check then some stCheckMismatch
       else none)
    else none
  (st, e.out.reverse, e.i)

/-! ## Codebook commands (R94, R96, R97) -/

/-- A slot goes to FREE, with version zero. -/
def freeSlot (s : State) (c j : Nat) : State := slotSet s c j {}

/-- A cell number range as a list. -/
def cellRange (first last : Nat) : List Nat := (List.range (last + 1 - first)).map (first + ·)

/-- The function that loaded the resident model image (R197). -/
def modelOwner (s : State) : Option Nat := s.sched.model.map fun m => m.2.1

/-- The slots that a predicate names, over every cell. -/
def slotsWhere (s : State) (p : CbSlot → Bool) : List (Nat × Nat) :=
  s.grid.cells.flatMap fun e => (e.2.slots.filter fun q => p q.2).map fun q => (e.1, q.1)

/-- Slots that retirements wait for have become FREE: a retirement replies with the last of its slots (R97). -/
def slotsFreed (s : State) (gone : List (Nat × Nat)) : State :=
  let left := s.grid.retires.map fun r => (r.1, r.2.1, r.2.2.filter fun q => !gone.contains q)
  let s := { s with grid := { s.grid with retires := left.filter fun r => !r.2.2.isEmpty } }
  (left.filter fun r => r.2.2.isEmpty).foldl (fun s r => finishCmd s r.1 stOk 0) s

/-- Step 1 of R28: copied LOADING slots become LIVE and their loads reply; RETIRING slots with no reference become FREE, and a
retirement replies when the last of its slots has. -/
def codebookBoundary (s : State) : State :=
  let ready := slotsWhere s fun x => x.state == .loading && x.copied
  let cmds := (ready.map fun q => (slotGet s q.1 q.2).cmd).eraseDups
  let s := ready.foldl (fun s q => slotSet s q.1 q.2 { slotGet s q.1 q.2 with state := .live, cmd := 0 }) s
  let s := cmds.foldl (fun s k => finishCmd s k stOk 0) s
  let gone := slotsWhere s fun x => x.state == .retiring && x.refs == 0
  slotsFreed (gone.foldl (fun s q => freeSlot s q.1 q.2) s) gone

/-- Slots go to FREE for a power-off or a new model image: a pending load that names one ends with ST_BUSY_REFERENCED, on every
cell it loads; retirements end with ST_OK when their last slot is gone (R94). -/
def dropSlots (s : State) (p : Nat → Bool) : State :=
  let all := (slotsWhere s fun _ => true).filter fun q => p q.1
  let loads := ((all.map fun q => slotGet s q.1 q.2).filter fun x => x.state == .loading).map (·.cmd) |>.eraseDups
  let s := (slotsWhere s fun x => x.state == .loading && loads.contains x.cmd).foldl (fun s q => freeSlot s q.1 q.2) s
  let s := all.foldl (fun s q => freeSlot s q.1 q.2) s
  slotsFreed (loads.foldl (fun s k => refuseCmd s k stBusyReferenced) s) all

/-- The header of a codebook image's payload (R93). -/
structure CbHeader where
  version : Nat
  format : Nat
  count : Nat
  resv : Bool

def parseCbHeader (bs : List Byte) : CbHeader :=
  let n := fun a k => leNat ((bs.drop a).take k)
  { version := n 0 2, format := n 2 1, count := n 4 2, resv := n 3 1 != 0 || n 6 10 != 0 || bits (n 2 1) 7 6 != 0 }

/-- The checks of R96 after verification: the refusal, if any. -/
def checkCodebookLoad (s : State) (h : CbHeader) (slot first last : Nat) : Option Half :=
  let cells := cellRange first last
  if h.count = 0 then some stBadLength
  else if h.resv || fmtKcode h.format ≥ 5 || fmtEntry h.format == 3 || h.version == 0 || maxCount h.format < h.count ||
      3 < slot || last < first || 1023 < last then some stBadField
  else if cells.any (fun c => !cellOn s c) then some stBounds
  else if cells.any (fun c => (List.range 4).any fun j =>
      j != slot && (slotGet s c j).version == h.version && (slotGet s c j).state != .free) then some stBadField
  else if cells.any (fun c => let x := slotGet s c slot
      x.state == .loading || x.state == .retiring || (x.state == .live && 0 < x.refs)) then some stBusyReferenced
  else none

/-- A verified codebook load is accepted: LOADING on every named cell (R96). DESIGN CHOICE (log entry 21): a payload of another length than
16 + COUNT × entry bytes is accepted too; bytes beyond are dropped, and missing entry bytes read as zero. -/
def acceptCodebook (s : State) (cmd : Nat) (payload : List Byte) (slot first last : Nat) : State :=
  let h := parseCbHeader payload
  match checkCodebookLoad s h slot first last with
  | some st => refuseCmd s cmd st
  | none =>
    (cellRange first last).foldl (fun s c => slotSet s c slot
      { state := .loading, version := h.version, fmt := BitVec.ofNat 8 h.format, count := h.count
        entries := (payload.drop 16).take (h.count * entryBytes h.format), cmd := cmd }) s

/-- The copy of a load has completed on every named cell (R94). -/
def codebookCopied (s : State) (cmd : Nat) : State :=
  (slotsWhere s fun x => x.state == .loading && x.cmd == cmd).foldl (fun s q =>
    slotSet s q.1 q.2 { slotGet s q.1 q.2 with copied := true }) s

/-- OP_RETIRE_CODEBOOK (R97). -/
def retireCodebook (s : State) (cmd f ver first last : Nat) : State :=
  let named := (cellRange first last).flatMap fun c => (List.range 4).map fun j => (c, j)
  let held := fun st => named.filter fun q => (slotGet s q.1 q.2).version == ver && (slotGet s q.1 q.2).state == st
  if modelOwner s != some f then refuseCmd s cmd stClientMismatch
  else if ver = 0 ∨ last < first ∨ 1023 < last then refuseCmd s cmd stBadField
  else if !(held .loading).isEmpty then refuseCmd s cmd stBusyReferenced
  else
    let live := held .live
    let both := live ++ held .retiring
    if both.isEmpty then refuseCmd s cmd stOkNoop
    else
      let s := live.foldl (fun s q => slotSet s q.1 q.2 { slotGet s q.1 q.2 with state := .retiring }) s
      { s with grid := { s.grid with retires := s.grid.retires ++ [(cmd, ver, both)] } }

end Sys2Proof.Machine
end

