-- ==== Sys2Proof/Machine/Matrix.lean ====
section
/-!
DEFINITION. The matrix engine (spec/04_matrix_engine.md): issue checks (R73), the queue (R74), the arithmetic (R77, R78), conversion on
store (R79), the residue check's outcomes (R82, R83), poison (R84), stagger and holds (R87, R88).
-/

namespace Sys2Proof.Machine

def engGet (s : State) (c : Nat) : Engine := (cellGet s c).engine
def engSet (s : State) (c : Nat) (e : Engine) : State := cellSet s c { cellGet s c with engine := e }
def tileOfEng (e : Engine) (t : Nat) : Tile := tgetD e.tiles t {}
def bufOfEng (e : Engine) (b : Nat) : ABuf := tgetD e.bufs b {}

/-! ## Formats and the mode word (R66, R69, R72) -/

def mKoff (m : Nat) : Nat := bits m 38 36
def mNk (m : Nat) : Nat := bits m 35 32
def mRows (m : Nat) : Nat := bits m 21 16 + 1
def mZero (m : Nat) : Bool := bit m 9 == 1
def mBcomp (m : Nat) : Bool := bit m 8 == 1
def mBfmt (m : Nat) : Nat := bits m 7 4
def mAfmt (m : Nat) : Nat := bits m 3 0
def mResvOk (m : Nat) : Bool := bits m 63 39 == 0 && bits m 31 22 == 0 && bits m 15 10 == 0

/-- An integer format: INT8 or UINT8. -/
def fmtInt (f : Nat) : Bool := f == 5 || f == 6
/-- Products per k-block. -/
def kstep (f : Nat) : Nat := if f = 2 then 64 else if f = 3 ∨ f = 4 then 16 else 32
/-- Bytes of one plain B block (R70). -/
def bBlockBytes (f : Nat) : Nat := if f = 2 then 2176 else 2048

/-- The pairs of R69. -/
def pairOk (a b : Nat) : Bool :=
  (a < 2 && b < 2) || (a == 2 && b == 2) || (a == 3 && b == 3) || (a == 4 && b == 4) || (fmtInt a && fmtInt b)

/-- The floating-point format of a code of R69. -/
def operandFmt (f : Nat) : Fmt := match f with
  | 0 => e4m3 | 1 => e5m2 | 2 => e2m1 | 3 => bf16 | _ => fp16

/-! ## Operand elements (R70) -/

/-- The code of element `k` of a run of bytes read through `at_`. -/
def elemCode (f : Nat) (at_ : Nat → Byte) (k : Nat) : Nat :=
  if f = 2 then (at_ (k / 2)).toNat / 16 ^ (k % 2) % 16
  else if f = 3 ∨ f = 4 then (at_ (2 * k)).toNat + 256 * (at_ (2 * k + 1)).toNat
  else (at_ k).toNat

/-- A code scaled by an E8M0 byte; 0xFF is NaN. -/
def scaleFp (x : Fp) (scale : Nat) : Fp :=
  if scale = 0xFF then .nan
  else match x with
    | .fin n m e => .fin n m (e + scale - 127)
    | y => y

/-- An operand element as a value, with its FP4 scale byte. -/
def elemFp (f code scale : Nat) : Fp :=
  let x := (operandFmt f).decode code
  if f = 2 then scaleFp x scale else x

/-- An integer operand element. -/
def elemInt (f code : Nat) : Int := if f = 5 then sInt 8 code else (code : Int)

/-! ## One row update (R77, R78) -/

/-- Exponent of a value's leading bit. -/
def Fp.top : Fp → Option Int
  | .fin _ m e => if m = 0 then none else some (e + Nat.log2 m)
  | _ => none

/-- Discards from a product's magnitude the bits below 2^cut. -/
def Fp.truncBelow (cut : Int) : Fp → Fp
  | .fin n m e => if cut ≤ e then .fin n m e else .fin n (m / 2 ^ (cut - e).toNat) cut
  | x => x

/-- The largest leading exponent of the products. -/
def maxTop (ps : List Fp) : Option Int :=
  ps.foldl (fun b p =>
    match b, p.top with
    | none, t => t
    | some x, some y => some (max x y)
    | b, none => b) none

/-- The block sum P of finite products: aligned to the largest, bits below 2^(e_max − 95) discarded, added exactly (R77). -/
def blockSum (ps : List Fp) : Fp :=
  match maxTop ps with
  | none => ps.foldl Fp.add (.fin true 0 0)
  | some e => (ps.map (Fp.truncBelow (e - 95))).foldl Fp.add (.fin true 0 0)

/-- The sign of an infinite product, where one is; NaN products are sorted out before. -/
def infSign (ps : List Fp) : Option Bool :=
  ps.findSome? fun p => match p with
    | .inf n => some n
    | _ => none

/-- tile[r][n] after one block in an FP32 tile (R77, R78). -/
def updateFp (tile : Nat) (ps : List Fp) : Nat :=
  let t := fp32.decode tile
  if t.isNan || ps.any Fp.isNan || (ps.contains (.inf true) && ps.contains (.inf false)) then fp32.nan
  else
    match infSign ps with
    | some n => fp32.encode (Fp.add t (.inf n))
    | none => fp32.encode (Fp.add t (blockSum ps))

/-- tile[r][n] after one block in an INT32 tile, and whether it saturated (R78). -/
def updateInt (tile : Nat) (ps : List Int) : Nat × Bool :=
  let v := sInt 32 tile + ps.foldl (· + ·) 0
  let c := max (-(2 ^ 31)) (min (2 ^ 31 - 1) v)
  (ofInt 32 c, c != v)

/-! ## The MMA's operands -/

/-- A element k of row r in k-block j of a buffer: code and scale byte. -/
def aElem (b : ABuf) (f r j k : Nat) : Nat × Nat :=
  (elemCode f (fun i => mget b.data (r * 256 + j * 32 + i)) k, (mget b.scale (r * 16 + j * 2 + k / 32)).toNat)

/-- Plain block j of a B operand as it is loaded from local memory (R70). -/
def plainBlock (s : State) (c base f j : Nat) : BBlock :=
  let a := base + j * bBlockBytes f
  { data := mwrite [] 0 (cellRead s c a 2048), scale := if f = 2 then mwrite [] 0 (cellRead s c (a + 2048) 128) else [] }

/-- Block j of an expansion, whose elements are in the plain order (R70). -/
def codedBlock (els : List Nat) (f j : Nat) : BBlock :=
  let n := kstep f * 64
  { data := mwrite [] 0 (((els.drop (j * n)).take n).flatMap (leBytes (if f = 3 then 2 else 1))) }

/-- Element (k, n) of the block in the array: code and scale byte. -/
def bElem (b : BBlock) (f k n : Nat) : Nat × Nat :=
  (elemCode f (mget b.data) (k * 64 + n), (mget b.scale (2 * n + k / 32)).toNat)

/-- One row's update over one block: the new 64 values and whether one saturated. -/
def rowUpdate (isInt : Bool) (af bf : Nat) (tile : Nat → Nat) (a : Nat → Nat × Nat) (b : Nat → Nat → Nat × Nat) :
    List (Nat × Bool) :=
  (List.range 64).map fun n =>
    let ks := List.range (kstep af)
    if isInt then updateInt (tile n) (ks.map fun k => elemInt af (a k).1 * elemInt bf (b k n).1)
    else (updateFp (tile n) (ks.map fun k => (elemFp af (a k).1 (a k).2).mul (elemFp bf (b k n).1 (b k n).2)), false)

/-- Writes a row of a tile. -/
def tileRow (t : Tile) (r : Nat) (vs : List (Nat × Bool)) : Tile :=
  let vals := (vs.mapIdx fun n v => (r * 64 + n, v.1)).foldl (fun m p => tsetD m p.1 (BitVec.ofNat 32 p.2) 0) t.vals
  { t with vals := vals, sat := if vs.any (·.2) then insertNat r t.sat else t.sat }

/-- One k-block over rows 0 to M − 1 (R75). -/
def blockUpdate (af bf m j koff : Nat) (buf : ABuf) (b : BBlock) (t : Tile) : Tile :=
  (List.range m).foldl (fun t r =>
    tileRow t r (rowUpdate t.isInt af bf (fun n => (tgetD t.vals (r * 64 + n) 0).toNat)
      (fun k => aElem buf af r (koff + j) k) (bElem b bf))) t

/-- The k-blocks of `js` are loaded into the stationary buffer and streamed in turn (R67, R75). -/
def streamBlocks (m : Nat) (buf : ABuf) (load : Nat → BBlock) (js : List Nat) (x : Tile × List BBlock) : Tile × List BBlock :=
  js.foldl (fun x j =>
    let b := load j
    (blockUpdate (mAfmt m) (mBfmt m) (mRows m) j (mKoff m) buf b x.1, (b :: x.2).take 2)) x

/-! ## Issue (R71–R73) -/

/-- The tile's type and row count as the queued instructions will leave them. -/
def futureTile (e : Engine) (t : Nat) : Bool × Nat :=
  e.queue.foldl (fun d op => match op.insn with
    | .mma tile _ _ mode _ _ _ => if tile = t ∧ mZero mode.toNat then (fmtInt (mAfmt mode.toNat), mRows mode.toNat) else d
    | _ => d) ((tileOfEng e t).isInt, (tileOfEng e t).rows)

/-- A full queue holds the issuing worker READY and unchosen (R74): its instruction does not issue. -/
def queueFull (s : State) (c : Nat) : Bool := decide (16 ≤ (engGet s c).queue.length)

def Issue.enqueue (x : Issue) (s : State) (m : MatInsn) : State :=
  let d := iD x.i
  let e := engGet s x.c
  engSet s x.c { e with queue := e.queue ++ [{ worker := x.w, ctx := x.win.ctx, cen := bit d 3 == 1, ctr := bits d 5 4, insn := m }] }

def ctxProt (s : State) (ctx : Nat) : Bool := ((tget s.sched.ctxs ctx).map fun x => x.prot).getD false

/-- MMA: the checks of R73, the prism's of R100 for a compressed B, with what ECC found on the descriptor's line, a reference, and the
queue (R95). -/
def mmaEffect (ecc : Ecc) (s : State) (x : Issue) : State :=
  let m := x.g s (iB x.i)
  let addr := x.g s (iA x.i)
  let t := bits (iD x.i) 1 0
  let isInt := fmtInt (mAfmt m)
  let f := futureTile (engGet s x.c) t
  let n := if mBcomp m then 64 else mNk m * bBlockBytes (mBfmt m)
  if !x.win.engine then x.fault s causeIllegal 0
  else if !mResvOk m || 7 ≤ mAfmt m || 7 ≤ mBfmt m || !pairOk (mAfmt m) (mBfmt m) ||
      (mBcomp m && !(mBfmt m == 0 || mBfmt m == 1 || mBfmt m == 3)) || mNk m == 0 || 8 < mNk m || 8 < mKoff m + mNk m then
    x.fault s causeIllegal 0
  else if !mZero m && (f.1 != isInt || f.2 != mRows m) then x.fault s causeIllegal 0
  else if addr % 64 != 0 then x.fault s causeMisaligned addr
  else if x.win.size < addr + n then x.fault s causeBounds addr
  else if !mBcomp m then
    x.enqueue s (.mma t (bit (iD x.i) 2) addr (BitVec.ofNat 64 m) none none [])
  else
    let s := cellEcc s x.c (lineOf (x.win.base + addr)) ecc
    let bs := cellRead s x.c (x.win.base + addr) 64
    let d := parseCbDesc bs
    match checkCbDesc s x.c x.win (ctxProt s x.win.ctx) (cellPoisoned s x.c (lineOf (x.win.base + addr))) (mBfmt m) (mNk m) d with
    | .inl st =>
      let s := prismFail s x.c addr d.version 0 st
      x.enqueue s (.mma t (bit (iD x.i) 2) addr (BitVec.ofNat 64 m) none (some st) bs)
    | .inr j =>
      let sl := slotGet s x.c j
      let s := slotSet s x.c j { sl with refs := sl.refs + 1 }
      x.enqueue s (.mma t (bit (iD x.i) 2) addr (BitVec.ofNat 64 m) (some j) none bs)

/-- Bytes from the first row's start to the last row's end. -/
def rowsSpan (rows stride rowBytes : Nat) : Nat := (rows - 1) * stride + rowBytes

/-- MLDA (R71, R73). -/
def mldaEffect (s : State) (x : Issue) : State :=
  let imm := iImm x.i
  let rows := bits imm 5 0 + 1
  let kb := bits imm 8 6 + 1
  let fp4 := bit imm 9 == 1
  let stride := bits imm 31 16 * 64
  let addr := x.g s (iA x.i)
  if !x.win.engine || (stride == 0 && 1 < rows) then x.fault s causeIllegal 0
  else if addr % 64 != 0 then x.fault s causeMisaligned addr
  else if x.win.size < addr + rowsSpan rows stride (32 * kb + (if fp4 then 2 * kb else 0)) then x.fault s causeBounds addr
  else x.enqueue s (.mlda (bit (iD x.i) 0) addr rows kb fp4 stride)

/-- Bytes of one element in an MST output format (R79). -/
def outBytes (f : Nat) : Nat := match f with
  | 0 | 5 => 4
  | 1 | 2 => 2
  | _ => 1

/-- MST (R71, R73). -/
def mstEffect (s : State) (x : Issue) : State :=
  let imm := iImm x.i
  let t := bits (iD x.i) 1 0
  let fmt := bits imm 3 0
  let stride := bits imm 31 16 * 64
  let addr := x.g s (iA x.i)
  let f := futureTile (engGet s x.c) t
  if !x.win.engine || (stride == 0 && 1 < f.2) then x.fault s causeIllegal 0
  else if 7 ≤ fmt || (fmt < 5 && f.1) || (5 ≤ fmt && !f.1) || f.2 == 0 then x.fault s causeIllegal 0
  else if addr % 64 != 0 then x.fault s causeMisaligned addr
  else if addr < x.win.code || x.win.size < addr + rowsSpan f.2 stride (64 * outBytes fmt) then x.fault s causeBounds addr
  else x.enqueue s (.mst t addr fmt stride f.2)

/-- Bits of the tiles that a predicate names. -/
def tileBits (e : Engine) (p : Tile → Bool) : Nat := (List.range 4).foldl (fun n t => n + b2n (p (tileOfEng e t)) * 2 ^ t) 0

/-- MSTAT places the status word in D (R72). -/
def mstatEffect (s : State) (x : Issue) : State :=
  if !x.win.engine then x.fault s causeIllegal 0
  else
    let e := engGet s x.c
    setG s x.c x.w (iD x.i)
      (tileBits e (fun t => !t.poison.isEmpty) + 16 * tileBits e (fun t => t.isInt && !t.sat.isEmpty) +
       256 * e.queue.length + 8192 * b2n e.failed)

/-- A queued matrix instruction's issue: nothing issues while the queue is full (R74). DESIGN CHOICE (log entry 19): a full queue holds an
instruction of a context that does not own the engine too; it faults (R68) once it issues. -/
def matrixInsn (r : Row) (effect : State → Issue → State) (s : State) (c w : Nat) (i : Insn) :
    Host.Outcome State Fault Refusal :=
  if queueFull s c && rowOf i == some r then .next s else cellInsn r effect s c w i

/-! ## ECC in engine state (R84) -/

def engineEcc (s : State) (c : Nat) (x : EngineEcc) : State :=
  let e := engGet s c
  if x.uncorrectable then
    let e :=
      if x.inTile then
        let t := tileOfEng e x.n.val
        { e with tiles := tset e.tiles x.n.val { t with poison := insertNat x.row.val t.poison } }
      else
        let b := bufOfEng e (x.n.val % 2)
        { e with bufs := tset e.bufs (x.n.val % 2) { b with poison := insertNat x.row.val b.poison } }
    event (setEvent (engSet s c e) (rMxEvent c) 4) { sev := sevError, src := srcMatrix, status := stPoisoned, loc := c } 64
  else event (setEvent s (rMxEvent c) 3) { sev := sevCorrected, src := srcMatrix, loc := c } 1

/-! ## The residue check (R82, R83) -/

/-- The engine enters FAILED: a hard event (R83, R346). -/
def failEngine (s : State) (c : Nat) : State :=
  engSet s c { engGet s c with failed := true }

/-- The mismatches that a stream of k-blocks can meet, in the order in which they are settled: block by block, row by row (R75, R82). -/
def settledOrder (m skip : Nat) (l : List Mismatch) : List Mismatch :=
  sortBy (fun x => x.block.val * 64 + x.row.val)
    (l.filter fun x => decide (mKoff m + skip ≤ x.block.val) && decide (x.block.val < mKoff m + mNk m) && decide (x.row.val < mRows m))

/-- The mismatches up to the first whose repeat fails, which ends the stream (R82, R83). -/
def settledPart : List Mismatch → List Mismatch
  | [] => []
  | x :: l => if x.repeatPasses then x :: settledPart l else [x]

/-- cclk in which the array streams an A row, repeats included: all the blocks left, or up to the row whose repeat failed (R89). -/
def streamCycles (m skip : Nat) (dual : Bool) (l : List Mismatch) : Nat :=
  let k := if dual then 2 else 1
  let rows := match l.find? (fun x => !x.repeatPasses) with
    | some x => (x.block.val - mKoff m - skip) * mRows m + x.row.val + 1
    | none => (mNk m - skip) * mRows m
  rows * k + l.length

def applyMismatch (tile : Nat) (s : State) (c : Nat) (m : Mismatch) : State :=
  if m.repeatPasses then
    let s := satAdd (satAdd s (rMxCheckCount c) 15 0 1) rMxTransientTotal 31 0 1
    event (setEvent s (rMxEvent c) 0) { sev := sevCorrected, src := srcMatrix, loc := c } 64
  else if (engGet s c).failed then s
  else
    let s := failEngine s c
    let s := rput s (rMxCheckCount c) 16 16 1
    let s := rset s (rMxFailInfo c)
      (m.stage.val * 2 ^ 24 + m.row.val * 2 ^ 16 + m.column.val * 2 ^ 8 + tile * 8 + m.block.val)
    let s := event (setEvent s (rMxEvent c) 1) { sev := sevFault, src := srcMatrix, status := stCheckMismatch, loc := c }
    hardEvent s 3

/-! ## Completion, in queue order (R74) -/

/-- Where an instruction reads local memory as it runs, and where it writes it: window offsets and lengths. A compressed B is its code
stream. -/
def matRanges (op : MatInsn) : List (Nat × Nat) × List (Nat × Nat) :=
  match op with
  | .mma _ _ addr mode none none _ => ([(addr, mNk mode.toNat * bBlockBytes (mBfmt mode.toNat))], [])
  | .mma _ _ _ _ (some _) none desc => let d := parseCbDesc desc; ([(d.codes, streamBytes d)], [])
  | .mma .. => ([], [])
  | .mlda _ addr rows kb fp4 stride => ([(addr, rowsSpan rows stride (32 * kb + (if fp4 then 2 * kb else 0)))], [])
  | .mst _ addr fmt stride rows => ([], [(addr, rowsSpan rows stride (64 * outBytes fmt))])

/-- Some range of the one list meets one of the other. -/
def rangesMeet (l l' : List (Nat × Nat)) : Bool := l.any fun p => l'.any fun q => overlaps p.1 p.2 q.1 q.2

/-- The findings on the lines that an instruction reads, by line of the window (R48). -/
def matFindings (s : State) (c : Nat) (win : Win) (op : MatInsn) (found : Findings) : State :=
  found.foldl (fun s f =>
    if (matRanges op).1.any (fun p => decide (lineOf p.1 ≤ f.1) && decide (f.1 ≤ lineOf (p.1 + p.2 - 1))) then
      cellEcc s c (lineOf win.base + f.1) f.2
    else s) s

/-- The two instructions must take effect in queue order: the later one must see what the earlier wrote, and must not write what the
earlier still reads (R74, R80). -/
def matConflict (early late : MatInsn) : Bool :=
  let mem := rangesMeet (matRanges early).2 (matRanges late).1 || rangesMeet (matRanges early).1 (matRanges late).2
  match early, late with
  | .mma .., .mma .. => true
  | .mlda .., .mlda .. => true
  | .mst .., .mst .. => true
  | .mma _ b _ _ _ _ _, .mlda b' .. => b == b'
  | .mlda b .., .mma _ b' _ _ _ _ _ => b == b'
  | .mma t .., .mst t' .. => t == t' || mem
  | .mst t .., .mma t' .. => t == t' || mem
  | .mst .., .mlda .. => mem
  | .mlda .., .mst .. => true

def isMma : MatInsn → Bool
  | .mma .. => true
  | _ => false
def isMlda : MatInsn → Bool
  | .mlda .. => true
  | _ => false
def isMst : MatInsn → Bool
  | .mst .. => true
  | _ => false

/-- The first instruction of a kind, unless an earlier one it must follow is still queued; with the queue without it. -/
def takeMat (p : MatInsn → Bool) : List MatOp → List MatOp → Option (MatOp × List MatOp)
  | _, [] => none
  | before, op :: rest =>
    if p op.insn then
      (if before.any (fun b => matConflict b.insn op.insn) then none else some (op, before ++ rest))
    else takeMat p (before ++ [op]) rest

/-- A completed instruction leaves the queue, increments its counter and releases its reference (R71, R95). -/
def finishMat (s : State) (c : Nat) (op : MatOp) : State :=
  let s := match op.insn with
    | .mma _ _ _ _ (some j) _ _ =>
      let x := slotGet s c j
      slotSet s c j { x with refs := x.refs - 1 }
    | _ => s
  if op.cen then incCounter s c op.worker op.ctr else s

/-- Dual running applies to the cell: the committed MX_CFG, or the sampled phase of a SUSPECT device (R86, R349). -/
def dualRun (s : State) (c : Nat) : Bool :=
  if s.reliab.health == .suspect then c % 8 == s.reliab.phase
  else cfld s rMxCfg 8 8 == 1 && c % 8 == cfld s rMxCfg 2 0

/-- The activity code of a stream, 2 to 6 (R88). -/
def streamCode (af : Nat) (dual : Bool) : Nat :=
  if dual then 6 else if fmtInt af then 2 else if af < 2 then 3 else if af = 2 then 4 else 5

/-- The energy class of a stream: classes 1 to 5 are the activity codes 2 to 6 (R223). -/
def streamClass (af : Nat) (dual : Bool) : Nat := streamCode af dual - 1

/-- The codes that the prism reads for k-blocks `skip` to `nk` − 1 of a compressed B (R104). -/
def countCodes (s : State) (c : Nat) (win : Win) (op : MatInsn) (nk skip : Nat) : State :=
  match op with
  | .mma _ _ _ mode (some j) none desc =>
    let d := parseCbDesc desc
    let n := kstep (mBfmt mode.toNat) * 64
    let codes := fun k => (expandPart s c win d (slotGet s c j) (k * n)).i
    wrapAdd s (rPzCodes c) (codes nk - codes skip)
  | _ => s

/-- An MMA's result over its first `nk` k-blocks, `skip` of them written already (R75, R77, R210): the tile afterwards, with poison of
the A rows and of the lines it read, and the codes it read counted (R84, R104). Up to the last k-block the expansion of a compressed B
ends with its last checks (R101). -/
def mmaTile (s : State) (c : Nat) (win : Win) (op : MatInsn) (nk : Nat) (skip : Nat := 0) : State :=
  match op with
  | .mma t b addr mode slot fail desc =>
    let m := mode.toNat
    let e := engGet s c
    let rows := mRows m
    let t0 : Tile := if mZero m && skip == 0 then { isInt := fmtInt (mAfmt m), rows := rows } else tileOfEng e t
    let poisonAll := fun (x : Tile) => { x with poison := (List.range rows).foldl (fun p r => insertNat r p) x.poison }
    let put := fun (s : State) (x : Tile) => let e := engGet s c; engSet s c { e with tiles := tset e.tiles t x }
    if fail.isSome then put (setEvent s (rMxEvent c) 2) (poisonAll t0)
    else if e.failed then put s (poisonAll t0)
    else
      let buf := bufOfEng e b
      let aBad := (List.range rows).filter buf.poison.contains
      let stream := fun (s : State) (load : Nat → BBlock) =>
        let e := engGet s c
        let r := streamBlocks m buf load ((List.range nk).drop skip) (t0, e.stationary)
        (engSet s c { e with stationary := r.2 }, { r.1 with poison := aBad.foldl (fun p r => insertNat r p) r.1.poison })
      let s := if aBad.isEmpty then s else setEvent s (rMxEvent c) 2
      match slot with
      | none =>
        let base := win.base + addr
        let bb := bBlockBytes (mBfmt m)
        let (s, x) := stream s (plainBlock s c base (mBfmt m))
        if cellRangePoisoned s c (base + skip * bb) ((nk - skip) * bb) then
          put (setEvent s (rMxEvent c) 2) (poisonAll x)
        else put s x
      | some j =>
        let d := parseCbDesc desc
        let n := kstep (mBfmt m) * 64
        let sl := slotGet s c j
        let part := expandPart s c win d sl (nk * n)
        let (st, els, codes) := if nk = mNk m then expand s c win d sl else (part.status, part.out.reverse, part.i)
        let s := countCodes s c win op nk skip
        let (s, x) := stream s (codedBlock els (mBfmt m))
        match st with
        | some st => put (setEvent (prismFail s c addr d.version codes st) (rMxEvent c) 2) (poisonAll x)
        | none => put s x
  | _ => s

/-- The governor holds the engine: for its own start, with its group for the cap, or with every engine (R326, R327, R332). -/
def engineHeld (s : State) (c : Nat) : Bool :=
  (engGet s c).held || s.power.holdAll || (s.grid.rotating && s.grid.heldGroup == c % 32)

/-- The engine's activity code in a cclk (R88): a stream's where the oldest MMA streams; else B load or MLDA, MST, or nothing. -/
def activityCode (s : State) (c : Nat) : Nat :=
  let e := engGet s c
  match takeMat isMma [] e.queue with
  | some ({ insn := .mma _ _ _ mode _ none _, .. }, _) =>
    if e.failed || e.cold || engineHeld s c then 1 else streamCode (mAfmt mode.toNat) (dualRun s c)
  | _ => if e.queue.any (fun op => !isMst op.insn) then 1 else if e.queue.isEmpty then 0 else 7

/-- cclk of streaming: counted in MX_BUSY, and charged to the client with the energy of their class (R89, R221, R223). -/
def streamed (s : State) (c ctx m : Nat) (dual : Bool) (cycles : Nat) : State :=
  charge (wrapAdd s (rMxBusy c) cycles) (ctxClient s ctx) 1 (streamClass (mAfmt m) dual) cycles

/-- What ECC found as an instruction ran: in the engine, on the lines it read, on the entries of its codebook slot (R48, R84). -/
def engineFindings (s : State) (c : Nat) (win : Win) (op : MatInsn) (found : EngineFound) : State :=
  let s := found.own.foldl (fun s x => engineEcc s c x) s
  let s := matFindings s c win op found.memory
  match op with
  | .mma _ _ _ _ (some j) none _ => storeFindings s c j found.store
  | _ => s

/-- MMA_COMPLETE: the oldest MMA finishes. A held engine and one that has not had its stagger slot stream nothing (R87, R88). -/
def mmaCompletes (s : State) (c : Nat) (mism : List Mismatch) (found : EngineFound) : State :=
  let e := engGet s c
  match takeMat isMma [] e.queue with
  | none => s
  | some (op, rest) =>
    match op.insn, winOfCtx s c op.ctx with
    | .mma t _ _ mode _ fail _, some win =>
      let streams := !(e.failed || fail.isSome)
      if streams && (engineHeld s c || e.cold) then s
      else
        let m := mode.toNat
        let s := if streams then engineFindings s c win op.insn found else found.own.foldl (fun s x => engineEcc s c x) s
        let mism := if streams then settledPart (settledOrder m op.skip mism) else []
        let s := match mism.find? (fun x => !x.repeatPasses) with
          | some x => countCodes s c win op.insn (x.block.val - mKoff m + 1) op.skip
          | none => s
        let s := mism.foldl (fun s x => applyMismatch t s c x) s
        let s := mmaTile s c win op.insn (mNk m) op.skip
        let dual := dualRun s c
        let s := if streams then streamed s c op.ctx m dual (streamCycles m op.skip dual mism) else s
        finishMat (engSet s c { engGet s c with queue := rest }) c op
    | _, _ => s

/-- MLDA_COMPLETE: the rows are in the A buffer (R71); rows that took data from a poisoned line are poisoned (R84). -/
def mldaCompletes (s : State) (c : Nat) (found : EngineFound) : State :=
  let e := engGet s c
  match takeMat isMlda [] e.queue with
  | none => s
  | some (op, rest) =>
    match op.insn, winOfCtx s c op.ctx with
    | .mlda b addr rows kb fp4 stride, some win =>
      let s := engineFindings s c win op.insn found
      let len := 32 * kb + (if fp4 then 2 * kb else 0)
      let bad := (List.range rows).filter fun r => cellRangePoisoned s c (win.base + addr + r * stride) len
      let buf := (List.range rows).foldl (fun (x : ABuf) r =>
        let row := cellRead s c (win.base + addr + r * stride) len
        let data := mwrite x.data (r * 256) (row.take (32 * kb))
        let scale := if fp4 then mwrite x.scale (r * 16) (row.drop (32 * kb)) else x.scale
        let poison := if bad.contains r then insertNat r x.poison else if kb = 8 then x.poison.filter (· != r) else x.poison
        { data := data, scale := scale, poison := poison }) (bufOfEng (engGet s c) b)
      let e := engGet s c
      let s := engSet s c { e with bufs := tset e.bufs b buf, queue := rest }
      let s := if bad.isEmpty then s else setEvent s (rMxEvent c) 2
      finishMat s c op
    | _, _ => s

/-- One element of a tile in an output format (R79): FP8 saturates, the others follow IEEE 754. -/
def storeElem (fmt : Nat) (v : Word) : Nat :=
  let x := fp32.decode v.toNat
  let fp8 := fun (f : Fmt) => match x with
    | .nan => 0x7F
    | .inf n => b2n n * 128 + (f.infCode - 1)
    | .fin n m e => b2n n * 128 + (f.roundMag m e).getD (f.infCode - 1)
  match fmt with
  | 0 | 5 => v.toNat
  | 1 => bf16.encode x
  | 2 => fp16.encode x
  | 3 => fp8 e4m3
  | 4 => fp8 e5m2
  | _ => ofInt 8 (max (-128) (min 127 (sInt 32 v.toNat)))

/-- MST_COMPLETE: the tile's rows are in local memory, a poisoned row's lines poisoned (R79, R84). -/
def mstCompletes (s : State) (c : Nat) (ecc : List EngineEcc) : State :=
  let e := engGet s c
  match takeMat isMst [] e.queue with
  | none => s
  | some (op, rest) =>
    match op.insn, winOfCtx s c op.ctx with
    | .mst t addr fmt stride rows, some win =>
      let s := ecc.foldl (fun s x => engineEcc s c x) s
      let x := tileOfEng (engGet s c) t
      let s := (List.range rows).foldl (fun s r =>
        let bs := (List.range 64).flatMap fun n => leBytes (outBytes fmt) (storeElem fmt (tgetD x.vals (r * 64 + n) 0))
        cellWrite s c (win.base + addr + r * stride) bs (x.poison.contains r)) s
      finishMat (engSet s c { engGet s c with queue := rest }) c op
    | _, _ => s

/-! ## Abort and swap-out (R85) -/

/-- The engine stops for a context: a running MMA stops at a k-block boundary, how many blocks in being a matter of time (a free
value). The answer is the context's queue, with the blocks of the running MMA that are written (R85, R209). -/
def stopEngine (s : State) (c ctx : Nat) : State × List MatOp :=
  let e := engGet s c
  let mine := e.queue.filter fun op => op.ctx == ctx
  match takeMat isMma [] e.queue, winOfCtx s c ctx with
  | some (op, _), some win =>
    match op.insn with
    | .mma _ _ _ mode _ none _ =>
      if e.streaming && !e.failed && op.ctx == ctx then
        let m := mode.toNat
        let (k, s) := takeFree s 4
        let done := op.skip + k % (mNk m - op.skip + 1)
        let dual := dualRun s c
        let s := if done = op.skip then s else
          streamed (mmaTile s c win op.insn done op.skip) c ctx m dual ((done - op.skip) * mRows m * (if dual then 2 else 1))
        (s, replaceFirst (fun x => isMma x.insn) (fun x => { x with skip := done }) mine)
      else (s, mine)
    | _ => (s, mine)
  | _, _ => (s, mine)

/-- The queue is discarded: no counter increments, and references are released (R85, R95). The answer is the discarded queue. -/
def dropMatQueue (s : State) (c ctx : Nat) : State × List MatOp :=
  let (s, mine) := stopEngine s c ctx
  let s := mine.foldl (fun s op => finishMat s c { op with cen := false }) s
  (engSet s c { engGet s c with queue := (engGet s c).queue.filter fun op => op.ctx != ctx }, mine)

/-! ## Stagger and holds (R87, R88, R326, R327) -/

/-- A cold engine with work starts its first stream in the cclk whose stagger count is 4g mod 128, g the flat number mod 32. -/
def staggerStart (s : State) (c count : Nat) : State :=
  let e := engGet s c
  if e.cold && e.queue.any (fun op => isMma op.insn) && count % 128 == 4 * (c % 32) then
    engSet s c { e with cold := false, streaming := true }
  else s

/-- The governor's hold on one engine: it is released when its start fits the slew limit, and stands while it does not (R326). -/
def holdRelease (s : State) (c : Nat) (fits : Bool) : State :=
  let e := engGet s c
  if e.held == fits then engSet s c { e with held := !fits } else s

/-! ## Meanings -/

def execMma (c : CellId) (w : WorkerId) (i : MmaInsn) (s : State) := matrixInsn .mma (mmaEffect i.desc) s c.val w.val i.insn
def execMlda (c : CellId) (w : WorkerId) (i : Insn) (s : State) := matrixInsn .mlda mldaEffect s c.val w.val i
def execMst (c : CellId) (w : WorkerId) (i : Insn) (s : State) := matrixInsn .mst mstEffect s c.val w.val i
def execMstat (c : CellId) (w : WorkerId) (i : Insn) (s : State) := cellInsn .mstat mstatEffect s c.val w.val i
def execMmaComplete (c : CellId) (mism : List Mismatch) (found : EngineFound) (s : State) : Host.Outcome State Fault Refusal :=
  .next (quiet s (mmaCompletes s c.val mism found))
def execMldaComplete (c : CellId) (found : EngineFound) (s : State) : Host.Outcome State Fault Refusal :=
  .next (quiet s (mldaCompletes s c.val found))
def execMstComplete (c : CellId) (ecc : List EngineEcc) (s : State) : Host.Outcome State Fault Refusal :=
  .next (quiet s (mstCompletes s c.val ecc))
def execEngineStaggerStart (c : CellId) (count : Nat) (s : State) : Host.Outcome State Fault Refusal :=
  .next (quiet s (staggerStart s c.val count))
def execGovernorHoldRelease (c : CellId) (fits : Bool) (s : State) : Host.Outcome State Fault Refusal :=
  .next (quiet s (holdRelease s c.val fits))

end Sys2Proof.Machine
end

