-- ==== Sys2Proof/Machine/Sem.lean ====
section
/-!
DEFINITION. Semaphores and critical sections (R212–R215).
-/

namespace Sys2Proof.Machine

def semOf (s : State) (n : Nat) : Option Sem := tget s.sched.sems n
def semSet (s : State) (n : Nat) (x : Sem) : State := { s with sched := { s.sched with sems := tset s.sched.sems n x } }

/-- Grants from the head of the queue while the count covers it (R214). -/
def grantF (n : Nat) : Nat → State → State
  | 0, s => s
  | k + 1, s =>
    match semOf s n with
    | none => s
    | some x =>
      match x.queue with
      | [] => s
      | q :: rest =>
        if q.units ≤ x.count then
          let s := semSet s n { x with
            count := x.count - q.units, queue := rest, held := tsetD x.held q.ctx (tgetD x.held q.ctx 0 + q.units) 0 }
          grantF n k (incCounter s q.cell q.worker q.ctr)
        else s
def grantSem (s : State) (n : Nat) : State := grantF n (((semOf s n).map fun x => x.queue.length).getD 0) s

/-- A semaphore operation acts on a semaphore LIVE for its context's client, else it faults (R213). -/
def withSem (s : State) (x : Issue) (k : State → Sem → State) : State :=
  match semOf s (iImm x.i % 1024) with
  | none => x.fault s causeIllegal 0
  | some m => if m.client == ctxClient s x.win.ctx then k s m else x.fault s causeIllegal 0

def semacqEffect (s : State) (x : Issue) : State :=
  withSem s x fun s m =>
    let n := x.g s (iA x.i)
    if 65535 < n then x.fault s causeIllegal 0
    else if n = 0 then incCounter s x.c x.w (iD x.i % 4)
    else
      let q : SemReq := { cell := x.c, worker := x.w, ctx := x.win.ctx, units := n, ctr := iD x.i % 4 }
      grantSem (semSet s (iImm x.i) { m with queue := m.queue ++ [q] }) (iImm x.i)

def semrelEffect (s : State) (x : Issue) : State :=
  withSem s x fun s m =>
    let n := x.g s (iA x.i)
    let held := tgetD m.held x.win.ctx 0
    if held < n then x.fault s causeIllegal 0
    else grantSem (semSet s (iImm x.i) { m with count := m.count + n, held := tsetD m.held x.win.ctx (held - n) 0 }) (iImm x.i)

def semtryEffect (s : State) (x : Issue) : State :=
  withSem s x fun s m =>
    let n := x.g s (iA x.i)
    if m.queue.isEmpty && n ≤ m.count then
      let s := semSet s (iImm x.i) { m with
        count := m.count - n, held := tsetD m.held x.win.ctx (tgetD m.held x.win.ctx 0 + n) 0 }
      setG s x.c x.w (iD x.i) 1
    else setG s x.c x.w (iD x.i) 0

def semrdEffect (s : State) (x : Issue) : State := withSem s x fun s m => setG s x.c x.w (iD x.i) m.count

def semcancelEffect (s : State) (x : Issue) : State :=
  withSem s x fun s m =>
    let mine := fun (q : SemReq) => q.cell == x.c && q.worker == x.w
    let s := semSet s (iImm x.i) { m with queue := m.queue.filter fun q => !mine q }
    grantSem (setG s x.c x.w (iD x.i) (m.queue.filter mine).length) (iImm x.i)

def semheldEffect (s : State) (x : Issue) : State :=
  withSem s x fun s m => setG s x.c x.w (iD x.i) (tgetD m.held x.win.ctx 0)

def critEnterEffect (s : State) (x : Issue) : State :=
  let w := workerGet s x.c x.w
  if 255 ≤ w.crit then x.fault s causeIllegal 0 else workerSet s x.c x.w { w with crit := w.crit + 1 }

def critExitEffect (s : State) (x : Issue) : State :=
  let w := workerGet s x.c x.w
  if w.crit = 0 then x.fault s causeIllegal 0 else workerSet s x.c x.w { w with crit := w.crit - 1 }

/-- The semaphore numbers in use. -/
def liveSems (s : State) : List Nat := s.sched.sems.map (·.1)

/-- A context's units return to the counts and its queued requests are withdrawn; grants proceed (R215, R216). -/
def releaseSems (s : State) (ctx : Nat) : State :=
  (liveSems s).foldl (fun s n =>
    match semOf s n with
    | none => s
    | some m =>
      let held := tgetD m.held ctx 0
      if held = 0 && !m.queue.any (fun q => q.ctx == ctx) then s
      else grantSem (semSet s n { m with
        count := m.count + held, held := terase m.held ctx, queue := m.queue.filter fun q => q.ctx != ctx }) n) s

/-- A context holds units of some semaphore. -/
def holdsUnits (s : State) (ctx : Nat) : Bool := s.sched.sems.any fun e => 0 < tgetD e.2.held ctx 0

/-- Withdraws a context's queued requests for its swap record: semaphore, cell, worker, units, counter (R209). -/
def withdrawSems (s : State) (ctx : Nat) : State × List (Nat × Nat × Nat × Nat × Nat) :=
  let out := s.sched.sems.flatMap fun e =>
    (e.2.queue.filter fun q => q.ctx == ctx).map fun q => (e.1, q.cell, q.worker, q.units, q.ctr)
  let s := { s with sched := { s.sched with sems := s.sched.sems.map fun e =>
    (e.1, { e.2 with queue := e.2.queue.filter fun q => q.ctx != ctx }) } }
  ((liveSems s).foldl grantSem s, out)

/-- OP_SEM_INIT (R212). -/
def semInit (s : State) (cmd fn number count : Nat) : State :=
  if 1023 < number then refuseCmd s cmd stBadField
  else
    let set := fun (_ : Unit) => finishCmd (semSet s number { client := fn, count := count }) cmd stOk 0
    match semOf s number with
    | none => set ()
    | some m =>
      if m.client != fn then refuseCmd s cmd stClientMismatch
      else if m.held.any (fun e => 0 < e.2) || !m.queue.isEmpty then refuseCmd s cmd stBusyReferenced
      else set ()

/-! ## Meanings -/

def execSemacq (c : CellId) (w : WorkerId) (i : Insn) (s : State) := cellInsn .semacq semacqEffect s c.val w.val i
def execSemrel (c : CellId) (w : WorkerId) (i : Insn) (s : State) := cellInsn .semrel semrelEffect s c.val w.val i
def execSemtry (c : CellId) (w : WorkerId) (i : Insn) (s : State) := cellInsn .semtry semtryEffect s c.val w.val i
def execSemrd (c : CellId) (w : WorkerId) (i : Insn) (s : State) := cellInsn .semrd semrdEffect s c.val w.val i
def execCritEnter (c : CellId) (w : WorkerId) (i : Insn) (s : State) := cellInsn .critEnter critEnterEffect s c.val w.val i
def execCritExit (c : CellId) (w : WorkerId) (i : Insn) (s : State) := cellInsn .critExit critExitEffect s c.val w.val i
def execSemcancel (c : CellId) (w : WorkerId) (i : Insn) (s : State) := cellInsn .semcancel semcancelEffect s c.val w.val i
def execSemheld (c : CellId) (w : WorkerId) (i : Insn) (s : State) := cellInsn .semheld semheldEffect s c.val w.val i

end Sys2Proof.Machine
end

