-- ==== Sys2Proof/Machine/Cache.lean ====
section
/-!
DEFINITION. The attention cache (spec/06_attention_cache.md): layouts (R109–R111), pages and their references, pins and copies
(R114–R120, R436), staging (R121–R124, R133), append records (R125, R126), collectives (R127), spill and prefetch (R131, R132).
-/

namespace Sys2Proof.Machine

/-! ## Peers (R140, R142) -/

def peerOf (s : State) (n : Nat) : Option Peer := s.forager.peers.find? fun p => p.entry.node == n
def peerUp (s : State) (n : Nat) : Bool := ((peerOf s n).map fun p => p.state == .up).getD false
def peerRole (s : State) (n : Nat) : Nat := ((peerOf s n).map fun p => p.entry.role).getD 0
def setPeer (s : State) (n : Nat) (st : PeerState) : State :=
  { s with forager := { s.forager with
      peers := s.forager.peers.map fun p => if p.entry.node == n then { p with state := st } else p } }
/-- The partner of a CACHE node. -/
def partnerOf (s : State) (n : Nat) : Option Nat := (peerOf s n).bind fun p => p.entry.partner
/-- The lead of a node's group. -/
def leadOf (s : State) (n : Nat) : Nat := ((peerOf s n).map fun p => p.entry.lead).getD n
/-- The devices of a lead's group, in ascending node order. -/
def groupNodes (s : State) (lead : Nat) : List Nat :=
  sortBy id ((s.forager.peers.filter fun p => p.entry.lead == lead).map fun p => p.entry.node)
/-- The members of this node's group beside itself. -/
def members (s : State) : List Nat := (groupNodes s (nodeNum s)).filter (· != nodeNum s)
def isLead (s : State) : Bool := leadOf s (nodeNum s) == nodeNum s

/-! ## Layouts (R109–R111, R115) -/

/-- The layout of a context: the protected one for a protected context (R135). -/
def layoutOf (s : State) (ctx : Nat) : Option Layout :=
  s.sched.image.bind fun p => if ctxProt s ctx then p.1.prot else some p.1.main

/-- Bytes per position and head of one format. -/
def posBytes (l : Layout) (fmt : Byte) : Nat :=
  let f := fmt.toNat
  if l.plain then l.dh * elemBytes (fmtEntry f) else l.dh * codeWidth (fmtKcode f) / (8 * fmtD f)
def kBytes (l : Layout) : Nat := posBytes l l.kfmt
def vBytes (l : Layout) : Nat := posBytes l l.vfmt
/-- Page data bytes, frame size, summary size. -/
def pageData (l : Layout) : Nat := 64 * l.hg * (kBytes l + vBytes l)
def frameSize (l : Layout) : Nat := 32768 / l.fpt / 64 * 64
def roundUp (n k : Nat) : Nat := (n + k - 1) / k * k
def sumSize (l : Layout) : Nat := roundUp (l.hg * l.dh * 4) 64
def groupsOf (l : Layout) : Nat := l.hkv / l.hg
/-- Groups this member holds, and the number of its i-th (R115). -/
def localGroups (l : Layout) : Nat := if l.split = 0 then groupsOf l / l.n else groupsOf l
def groupOf (l : Layout) (i : Nat) : Nat := if l.split = 0 then l.member * (groupsOf l / l.n) + i else i
/-- This member holds the pages of block `b` (R111). -/
def holdsBlock (l : Layout) (b : Nat) : Bool := l.split == 0 || b / 2 % l.n == l.member
def noPage : Nat := 0xFFFFFFFF
def mapBlocks (l : Layout) : Nat := (l.maxpos + 63) / 64
/-- Entries of a page map, and the offset of one. -/
def mapEntries (l : Layout) : Nat := mapBlocks l * l.layers * localGroups l
def mapAt (l : Layout) (base b layer g : Nat) : Nat := base + 4 * ((b * l.layers + layer) * localGroups l + g)
def mapGet (s : State) (l : Layout) (base b layer g : Nat) : Nat := rangeNat s (mapAt l base b layer g) 4
def mapSet (s : State) (l : Layout) (base b layer g page : Nat) : State := rangePut s (mapAt l base b layer g) (leBytes 4 page)

/-- A map that names no page. -/
def clearMap (s : State) (l : Layout) (base : Nat) : State := rangePut s base (List.replicate (4 * mapEntries l) 0xFF)

/-! ## Pages (R114–R120) -/

def pageOf (s : State) (n : Nat) : Option Page := tget s.cache.pages n
def pageSet (s : State) (n : Nat) (p : Page) : State := { s with cache := { s.cache with pages := tset s.cache.pages n p } }

/-- The layout that wrote a page. -/
def pageLayout (s : State) (p : Page) : Option Layout :=
  s.sched.image.bind fun im => if p.plain then im.1.prot else some im.1.main
def pageFs (s : State) (p : Page) : Nat := ((pageLayout s p).map frameSize).getD 32768

/-- Offset of a page's summary entry (R113). -/
def sumAt (s : State) (l : Layout) (page : Nat) : Nat := cbase s rKvSumBaseLo rKvSumBaseHi + page * sumSize l

/-- The lowest FREE page number. -/
def firstGap : Nat → List Nat → Nat
  | n, [] => n
  | n, x :: xs => if n < x then n else firstGap (max n (x + 1)) xs

/-- The free frame of the pool with the lowest offset (R436). -/
def freeFrame (s : State) (l : Layout) : Option Nat :=
  let base := cbase s rKvPoolBaseLo rKvPoolBaseHi
  let count := cget s rKvPoolTiles * l.fpt
  let used := s.cache.pages.map fun e => (e.2.frame, pageFs s e.2)
  ((List.range (min count ((used.length + 1) * 9))).map fun i => base + i / l.fpt * tileSize + i % l.fpt * frameSize l).find? fun a =>
    !used.any fun u => overlaps a (frameSize l) u.1 u.2

/-- Takes a new page, OPEN with one reference (R116, R436). -/
def allocPage (s : State) (l : Layout) (client group layer : Nat) : Option (Nat × State) :=
  let n := firstGap 0 (s.cache.pages.map (·.1))
  if n < cget s rKvPtCount then
    (freeFrame s l).map fun a =>
      (n, pageSet (touchOwn s (cbase s rKvPtBaseLo rKvPtBaseHi + 32 * n) 32) n {
        frame := a, refs := 1, pins := 0, plain := l.plain, kver := if l.plain then 0 else l.kver
        vver := if l.plain then 0 else l.vver, client := client, group := group, layer := layer, beat := now s })
  else none

/-- Records a cache failure (R433). -/
def kvError (s : State) (st : Half) (page : Nat) : State := (errRecord s rKvErr st.toNat [(rKvErrPage, page)]).1

/-- A page whose REFS and PINS are both zero becomes FREE (R120). -/
def reclaim (s : State) (n : Nat) : State :=
  match pageOf s n with
  | some p => if p.refs = 0 && p.pins = 0 then { s with cache := { s.cache with pages := terase s.cache.pages n } } else s
  | none => s

/-- Adds a reference; false where it is refused (R117). -/
def addRef (s : State) (n : Nat) : State × Bool :=
  match pageOf s n with
  | none => (s, false)
  | some p =>
    if 0xFFFF ≤ p.refs then (kvError (setEvent s rKvEvent 5) stNoResource n, false)
    else (pageSet s n { p with refs := p.refs + 1 }, true)

/-- Frees one reference; one that would take REFS below zero, as of a page that is FREE, is refused (R120). -/
def freeRef (s : State) (n : Nat) : State :=
  match pageOf s n with
  | none => kvError (setEvent s rKvEvent 5) stBadField n
  | some p =>
    if p.refs = 0 then kvError (setEvent s rKvEvent 5) stBadField n
    else reclaim (pageSet s n { p with refs := p.refs - 1 }) n

def pin (s : State) (n : Nat) : State :=
  match pageOf s n with
  | some p => pageSet s n { p with pins := p.pins + 1 }
  | none => s
def unpin (s : State) (n : Nat) : State :=
  match pageOf s n with
  | some p => reclaim (pageSet s n { p with pins := p.pins - 1 }) n
  | none => s

/-- A request's end frees every page its map names. -/
def freeMap (s : State) (l : Layout) (base : Nat) : State :=
  (List.range (mapEntries l)).foldl (fun s i =>
    let n := rangeNat s (base + 4 * i) 4
    if n = noPage then s else freeRef s n) s

/-- The tile a page's frame lies in is in HBM. -/
def pageInHbm (s : State) (p : Page) : Bool :=
  match tileGet s (tileOf p.frame) with
  | some x => tierOf x.place == 0
  | none => true

/-! ## Writing pages (R118, R126) -/

/-- A write of the range as one step of a page write: the error `true` says that no tile could be found (R227), `false` that no page
number or frame was FREE (R126). -/
def putRange (s : State) (a : Nat) (bs : List Byte) (poison : Bool := false) : Except Bool State :=
  match rangeWrite s a bs poison with
  | (s, true) => .ok s
  | (_, false) => .error true

/-- Copies `n` bytes within the range, line poison with them. -/
def copyRange (s : State) (src dst n : Nat) : Except Bool State :=
  (List.range ((n + 63) / 64)).foldl (fun o i => o.bind fun s =>
    putRange s (dst + 64 * i) (rangeRead s (src + 64 * i) (min 64 (n - 64 * i))) (linePoisoned s (lineOf (src + 64 * i)))) (.ok s)

/-- The page a write through a map goes to: in place, a private copy, or a new page (R118). -/
def writablePage (s : State) (l : Layout) (client base b layer g : Nat) : Except Bool (Nat × State) :=
  let n := mapGet s l base b layer g
  match (if n = noPage then none else pageOf s n) with
  | none =>
    match allocPage s l client (groupOf l g) layer with
    | none => .error false
    | some (k, s) => .ok (k, mapSet s l base b layer g k)
  | some p =>
    if p.refs + p.pins ≤ 1 then .ok (n, s)
    else
      match allocPage s l client p.group p.layer with
      | none => .error false
      | some (k, s) =>
        let s := match pageOf s k with
          | some q => pageSet s k { q with kver := p.kver, vver := p.vver, written := p.written, sumv := p.sumv }
          | none => s
        let frame := ((pageOf s k).map fun q => q.frame).getD 0
        ((copyRange s p.frame frame (pageData l)).bind fun s => copyRange s (sumAt s l n) (sumAt s l k) (sumSize l)).map fun s =>
          (k, satAdd (freeRef (mapSet s l base b layer g k) n) rKvCowCount 31 0 1)

/-- An append record (R125). -/
structure Append where
  first : Nat
  count : Nat
  group : Nat
  sum : Bool
  data : Nat
  resv : Bool
  cell : Nat
  base : Nat
  poison : Bool

def readAppend (s : State) (ctx : Nat) (c : StageCell) : Option Append :=
  (winOfCtx s c.cell ctx).map fun w =>
    let bs := cellRead s c.cell (w.base + c.append) 64
    let n := fun o k => leNat ((bs.drop o).take k)
    { first := n 0 4, count := n 4 2, group := n 6 1, sum := bit (n 7 1) 0 == 1, data := n 8 4
      resv := bits (n 7 1) 7 1 != 0 || n 12 52 != 0 || n 8 4 % 64 != 0 || w.size < n 8 4, cell := c.cell, base := w.base
      poison := cellPoisoned s c.cell (lineOf (w.base + c.append)) }

/-- The rows' bytes of a record. -/
def rowsBytes (l : Layout) (a : Append) : Nat := a.count * l.hg * (kBytes l + vBytes l)

/-- The records of one group cover CLEN to E − 1 exactly, without overlap. -/
def coverExact (clen e : Nat) (as : List Append) : Bool :=
  let as := sortBy (fun a => a.first) (as.filter fun a => a.count != 0)
  (as.foldl (fun (p : Option Nat) a => p.bind fun x => if a.first = x then some (x + a.count) else none) (some clen)) == some e

/-- The refusal of a layer's records, if any (R126). DESIGN CHOICE (log 95): R126's table names no status for a record whose DATA runs
past the window or is no multiple of 64, or whose GROUP is not its list's; the model counts them among its first row. -/
def appendBad (l : Layout) (clen e : Nat) (groups : List (List Append)) : Bool :=
  (groups.mapIdx fun i as =>
    as.any (fun a => a.resv || a.group != groupOf l i || (a.sum && (a.first + a.count) % 64 != 0)) || !coverExact clen e as).any (· == true)

/-- A row chunk of a record for one position and head: bytes and whether a source line is poisoned. DESIGN CHOICE (log 95): a record
that itself lies on a poisoned line poisons the rows it covers, as a poisoned data line does, and the append goes on. -/
def rowChunk (s : State) (a : Append) (off n : Nat) : List Byte × Bool :=
  (cellRead s a.cell (a.base + a.data + off) n, a.poison || cellRangePoisoned s a.cell (a.base + a.data + off) n)

/-- Writes one position of a record into a page's frame. -/
def writePosition (l : Layout) (a : Append) (frame : Nat) (s : State) (i : Nat) : Except Bool State :=
  let p := (a.first + i) % 64
  let kb := kBytes l
  let vb := vBytes l
  (List.range l.hg).foldl (fun o j => o.bind fun s =>
    let src := j * a.count * (kb + vb)
    let dst := frame + j * 64 * (kb + vb)
    let (kbs, kp) := rowChunk s a (src + i * kb) kb
    let (vbs, vp) := rowChunk s a (src + a.count * kb + i * vb) vb
    (putRange s (dst + p * kb) kbs kp).bind fun s => putRange s (dst + 64 * kb + p * vb) vbs vp) (.ok s)

/-- The record's summary goes to the page's entry. -/
def writeSummary (l : Layout) (a : Append) (n : Nat) (s : State) : Except Bool State :=
  let (bs, po) := rowChunk s a (roundUp (rowsBytes l a) 64) (sumSize l)
  putRange s (sumAt s l n) bs po

/-- Applies the part of a record that lies in block `b`. -/
def applyBlock (l : Layout) (client base layer g clen : Nat) (a : Append) (s : State) (b : Nat) : Except Bool State :=
  let lo := max a.first (64 * b)
  let hi := min (a.first + a.count) (64 * b + 64)
  if !holdsBlock l b then .ok s
  else
    (writablePage s l client base b layer g).bind fun r =>
      let (n, s) := r
      match pageOf s n with
      | none => .ok s
      | some p =>
        let sum := a.sum && hi == a.first + a.count
        let rows : Except Bool State :=
          (List.range (hi - lo)).foldl (fun (o : Except Bool State) k => o.bind fun s => writePosition l a p.frame s (lo - a.first + k)) (.ok s)
        (rows.bind fun s => if sum then writeSummary l a n s else .ok s).map fun s =>
          pageSet (chargeRange s client p.frame (pageData l) true) n { p with
            written := max p.written (hi - 64 * b), beat := now s, sumv := p.sumv || sum
            full := p.full || (sum && 64 * (b + 1) ≤ clen) }

def applyRecord (l : Layout) (client base layer g clen : Nat) (s : State) (a : Append) : Except Bool State :=
  if a.count = 0 then .ok s
  else ((List.range ((a.first + a.count - 1) / 64 - a.first / 64 + 1)).map (a.first / 64 + ·)).foldl
    (fun o b => o.bind fun s => applyBlock l client base layer g clen a s b) (.ok s)

/-- The write of one layer of a step (R126): the state after it, or the status that ends the step without committing. -/
def appendLayer (s : State) (l : Layout) (ctx client base clen e : Nat) (t : AttEntry) : State × Option Half :=
  let groups := t.cells.map fun cs => cs.filterMap (readAppend s ctx)
  if appendBad l clen e groups then (setEvent (kvError s stBadField noPage) rKvEvent 3, some stBadField)
  else
    match (groups.mapIdx fun i as => (i, as)).foldl (fun (o : Except Bool State) p => p.2.foldl (fun (o : Except Bool State) a =>
        o.bind fun s => applyRecord l client base t.layer p.1 clen s a) o) (.ok s) with
    | .ok s => (s, none)
    | .error noTile =>
      let s := if noTile then setEvent s rMtEvent 1 else s
      (setEvent (kvError s stNoResource noPage) rKvEvent 4, some stNoResource)

/-- After a commit the pages of blocks now committed become FULL, where their summary is valid (R116). -/
def fillBlocks (s : State) (l : Layout) (base old new : Nat) : State :=
  ((List.range (new / 64 - old / 64)).map (old / 64 + ·)).foldl (fun s b =>
    if !holdsBlock l b then s
    else
      (List.range l.layers).foldl (fun s layer =>
        (List.range (localGroups l)).foldl (fun s g =>
          let n := mapGet s l base b layer g
          match pageOf s n with
          | some p => if p.full then s else if p.sumv then pageSet s n { p with full := true } else setEvent s rKvEvent 6
          | none => s) s) s) s

/-! ## Staging (R121–R124, R133) -/

/-- Key tiles below E that this member holds. -/
def heldTiles (l : Layout) (e : Nat) : List Nat :=
  (List.range ((e + 127) / 128)).filter fun t => l.split == 0 || t % l.n == l.member

def tileBlocks (e t : Nat) : List Nat := [2 * t, 2 * t + 1].filter fun b => decide (64 * b < e)

/-- The slots of one group, cell by cell in their order, and the fully masked pairs that are skipped (R123). -/
def stageGroup (l : Layout) (t : AttEntry) (clen e g : Nat) : List StageItem × Nat :=
  let cs := t.cells.getD g []
  let tiles := heldTiles l e
  let item := fun (c : StageCell) (b q : Nat) =>
    ({ cell := c.cell, ring := c.ring, slots := c.slots, worker := c.worker, ctr := c.counter, block := b, group := g, qtile := q
       page := noPage } : StageItem)
  if cs.isEmpty then ([], 0)
  else if t.byKey then
    (tiles.flatMap fun k => match cs[k % cs.length]? with
      | some c => (tileBlocks e k).map fun b => item c b 0xFFFF
      | none => [], 0)
  else
    let us := (List.range ((e - 1) / 128 + 1 - clen / 128)).map (clen / 128 + ·)
    (us.flatMap fun u => match cs[u % cs.length]? with
      | some c => (tiles.filter (· ≤ u)).flatMap fun k => (tileBlocks e k).map fun b => item c b u
      | none => [],
     (us.map fun u => (tiles.filter (u < ·)).length).sum)

/-- A layer's stage starts (R122): each read resolves its map entry now and pins the page until its data is placed (R117, R119). -/
def beginStage (s : State) (l : Layout) (handle : DWord) (base clen e due : Nat) (t : AttEntry) : State :=
  let gs := (List.range (localGroups l)).map (stageGroup l t clen e)
  let items := (gs.flatMap (·.1)).map fun i =>
    let n := mapGet s l base i.block t.layer i.group
    { i with page := if (pageOf s n).isSome then n else noPage }
  let s := satAdd s rKvSkipCount 31 0 (gs.map (·.2)).sum
  if items.isEmpty then s
  else
    let s := items.foldl (fun s i => pin s i.page) s
    { s with cache := { s.cache with stages := s.cache.stages ++ [{ handle := handle, layer := t.layer, due := due, items := items }] } }

/-- The stages of a request are given up with its step: their reads are over (R117). -/
def dropStages (s : State) (handle : DWord) : State :=
  let gone := s.cache.stages.filter fun x => x.handle == handle
  let s := { s with cache := { s.cache with stages := s.cache.stages.filter fun x => x.handle != handle } }
  (gone.flatMap fun x => x.items).foldl (fun s i => unpin s i.page) s

/-- The 64-byte record of a slot (R122). -/
def slotRecord (page first layer group kind count poison qtile kver vver : Nat) : List Byte :=
  leBytes 4 page ++ leBytes 4 first ++ leBytes 2 layer ++ leBytes 1 group ++ leBytes 1 kind ++ leBytes 1 count ++ leBytes 1 poison ++
  leBytes 2 qtile ++ leBytes 2 kver ++ leBytes 2 vver ++ leBytes 44 0

/-- Copies range lines into a cell, poison with them; the answer says whether a line was poisoned. -/
def rangeToCell (s : State) (src c dst n : Nat) : State × Bool :=
  (List.range ((n + 63) / 64)).foldl (fun (r : State × Bool) i =>
    let po := linePoisoned r.1 (lineOf (src + 64 * i))
    (cellWrite r.1 c (dst + 64 * i) (rangeRead r.1 (src + 64 * i) (min 64 (n - 64 * i))) po, r.2 || po)) (s, false)

/-- Poisons `n` bytes of lines of a cell. -/
def poisonCell (s : State) (c a n : Nat) : State :=
  let x := cellGet s c
  cellSet s c { x with poison := (linesOf a n).foldl (fun p k => insertNat k p) x.poison }

/-- Fills the next slot of a cell's ring with the next item of a stage, where the ring has room and the page can be read
(R122–R124). -/
def fillSlotOf (s : State) (l : Layout) (st : Stage) (ctx e c : Nat) (found : Findings) : State :=
  match st.items.find? (fun i => i.cell == c), winOfCtx s c ctx with
  | some it, some w =>
    let ring := w.base + it.ring
    let filled := leNat (cellRead s c ring 4)
    let done := leNat (cellRead s c (ring + 4) 4)
    let n := it.page
    let room := decide ((filled + 2 ^ 32 - done) % 2 ^ 32 < it.slots)
    let page := pageOf s n
    let ready := match page with
      | some p => it.summary || pageInHbm s p
      | none => true
    if !room || !ready || it.slots = 0 then s
    else
      let at_ := ring + 64 + filled % it.slots * (64 + roundUp (max (frameSize l) (sumSize l)) 64)
      let rec_ := fun kind poison (kver vver : Nat) =>
        slotRecord (if page.isNone then noPage else n) (64 * it.block) st.layer (groupOf l it.group) kind (min 64 (e - 64 * it.block)) poison it.qtile kver vver
      let (s, poison) := match page with
        | none =>
          let s := poisonCell s c (at_ + 64) (pageData l)
          (kvError (cellWrite s c at_ (rec_ 2 1 0 0)) stPoisoned noPage, true)
        | some p =>
          let src := if it.summary then sumAt s l n else p.frame
          let len := if it.summary then sumSize l else pageData l
          let s := memoryFindings (chargeRange (touchRange s src len) p.client src len false) src len found
          let (s, po) := rangeToCell s src c (at_ + 64) len
          let s := cellWrite s c at_ (rec_ (b2n it.summary) (b2n po) p.kver p.vver)
          let s := match pageOf s n with
            | some q => pageSet s n { q with beat := now s }
            | none => s
          let s := unpin s n
          (if po then kvError s stPoisoned n else s, po)
      let s := if poison then setEvent s rKvEvent 2 else s
      let s := cellWrite s c ring (leBytes 4 (filled + 1))
      let s := incCounter s c it.worker it.ctr
      let same := fun (x : Stage) => x.handle == st.handle && x.layer == st.layer
      { s with cache := { s.cache with stages := (s.cache.stages.map fun x =>
          if same x then { x with items := removeFirst (fun i => i == it) x.items } else x).filter fun x => !x.items.isEmpty } }
  | _, _ => s

/-- At DUE_OFF the pages that are late and not in HBM are to be staged as summaries; the answer says whether there was one (R133). -/
def summarise (s : State) (st : Stage) : State × Bool :=
  let late := fun (i : StageItem) => match pageOf s i.page with
    | some p => !pageInHbm s p
    | none => false
  let pages := ((st.items.filter late).map fun i => i.page).eraseDups
  if pages.isEmpty then (s, false)
  else
    let s := setEvent (satAdd s rKvSummaryCount 31 0 pages.length) rKvEvent 1
    ({ s with cache := { s.cache with stages := s.cache.stages.map fun x =>
        if x.handle == st.handle && x.layer == st.layer then
          { x with items := x.items.map fun i => if late i then { i with summary := true } else i } else x } }, true)

/-! ## Collectives (R127) -/

/-- An operation on FP32 values rounded once. -/
def f32 (p : Fp) : Fp := fp32.decode (fp32.encode p)

/-- a ÷ b with 64 bits of quotient and a sticky bit. -/
def fpDiv : Fp → Fp → Fp
  | .nan, _ => .nan
  | _, .nan => .nan
  | .inf _, .inf _ => .nan
  | .inf a, .fin b _ _ => .inf (a != b)
  | .fin a _ _, .inf b => .fin (a != b) 0 0
  | .fin a m e, .fin b n g =>
    if n = 0 then (if m = 0 then .nan else .inf (a != b))
    else
      let k := 64 + Nat.log2 n
      .fin (a != b) (2 * (m * 2 ^ k / n) + b2n (m * 2 ^ k % n != 0)) (e - g - k - 1)

/-- e^(−y · 2^−300) in units of 2^−300, for 0 ≤ y < 2^300 · 1/2: the alternating series. -/
def expSeries (y : Nat) : Nat → Nat → Int → Int
  | _, 0, acc => acc
  | k, n + 1, acc =>
    -- Horner from the innermost factor: acc ← 1 − y/k · acc
    expSeries y (k - 1) n ((2 ^ 300 : Int) - (y : Int) * acc / (2 ^ 300 * (k : Int)))

/-- e^x for x ≤ 0, exact to far more than the 24 bits an FP32 result keeps (R127). -/
def fpExp : Fp → Fp
  | .nan => .nan
  | .inf true => .fin false 0 0
  | .inf false => .inf false
  | .fin neg m e =>
    if m = 0 then .fin false 1 0
    else if !neg then .inf false
    else if Fp.lt (.fin false 128 0) (.fin false m e) then .fin false 0 0
    else
      -- y = |x| / 512 in units of 2^−300
      let y := if 0 ≤ e + 291 then m * 2 ^ (e + 291).toNat else m / 2 ^ (-(e + 291)).toNat
      let r := (expSeries y 60 60 (2 ^ 300)).toNat
      let sq := (List.range 9).foldl (fun (v : Nat) _ => v * v / 2 ^ 300) r
      .fin false (2 * sq + 1) (-301)

/-- SUM: ascending member order, each addition rounded. -/
def collSum (inputs : List (List Nat)) (i : Nat) : Nat :=
  match inputs.map fun x => fp32.decode (x.getD i 0) with
  | [] => 0
  | x :: xs => fp32.encode (xs.foldl (fun a b => f32 (a.add b)) x)

def fpMax (a b : Fp) : Fp := if a.isNan || b.isNan then .nan else if Fp.lt a b then b else a

/-- LSE of one row and head: the buffers hold m, l and the DH elements of a, from word `o`. -/
def collLse (inputs : List (List Nat)) (dh o : Nat) : List Nat :=
  let ms := inputs.map fun x => fp32.decode (x.getD o 0)
  let m := ms.foldl fpMax (.inf true)
  if m == .inf true then List.replicate dh 0
  else
    let ws := ms.map fun mi => f32 (fpExp (f32 (mi.add m.neg)))
    let acc := fun k => match (inputs.zip ws).map fun p => f32 ((fp32.decode (p.1.getD k 0)).mul p.2) with
      | [] => Fp.fin false 0 0
      | x :: xs => xs.foldl (fun a b => f32 (a.add b)) x
    let l := acc (o + 1)
    (List.range dh).map fun k => fp32.encode (fpDiv (acc (o + 2 + k)) l)

/-- This member's buffer goes to a member of its group in COLLECTIVE packets of the entry's fabric slot (R127, R253, R272), of 256 bytes and
a rest; encrypted where the context is protected (R368). The offset, TAG and AUX of these packets are stated nowhere and are free. -/
def sendCollective (s : State) (ctx resid due : Nat) (bytes : List Byte) (node : Nat) : State :=
  (List.range ((bytes.length + 255) / 256)).foldl (fun s i =>
    let (v, s) := takeFree s 114
    let piece := (bytes.drop (256 * i)).take 256
    let p := barePacket 8 3 (node * 2 ^ 50 + v % 2 ^ 50) (v / 2 ^ 50) (v / 2 ^ 82) due (ctxProt s ctx) (fitBytes ((piece.length + 7) / 8 * 8) piece)
    let (p, s) := protectPacket s { p with src := BitVec.ofNat 14 (nodeNum s), sub := BitVec.ofNat 8 resid }
    inject s p none none) s

/-- A collective entry starts: this member's buffer is read and sent to the other members of the group. -/
def startColl (s : State) (ctx : Nat) (lse : Bool) (dh due resid : Nat) (src dst : CollBuf) : State :=
  match winOfCtx s src.cell ctx with
  | none => s
  | some w =>
    let a := w.base + src.addr
    let own : List Word := (List.range src.len).map fun i => BitVec.ofNat 32 (leNat (cellRead s src.cell (a + 4 * i) 4))
    let c : Coll := {
      id := s.cache.nextColl, ctx := ctx, lse := lse, dh := dh, due := due, src := src, dst := dst, own := own
      poison := cellRangePoisoned s src.cell a (4 * src.len) }
    let s := emit { s with cache := { s.cache with nextColl := s.cache.nextColl + 1, colls := s.cache.colls ++ [c] } } (.collective resid own)
    (members s).foldl (fun s n => sendCollective s ctx resid due (own.flatMap fun w => leBytes 4 w.toNat) n) s

/-- A collective has every member's buffer: the combine is written to the destination (R127). `inputs` holds the members' buffers in
ascending order; this member's own is the one it read. -/
def completeColl (s : State) (id : Nat) (inputs : List (List Word)) : State :=
  match s.cache.colls.find? (fun c => c.id == id) with
  | none => s
  | some c =>
    let member := ((s.sched.image.map fun p => p.1.main.member).getD 0)
    let ins := (inputs.mapIdx fun i x => if i = member then c.own else x).map fun x => x.map (·.toNat)
    let out := if c.lse then
        (List.range (c.src.len / (c.dh + 2))).flatMap fun r => collLse ins c.dh (r * (c.dh + 2))
      else (List.range c.src.len).map (collSum ins)
    let s := collStatus { s with cache := { s.cache with colls := s.cache.colls.filter fun x => x.id != id } } c.ctx stOk
    match winOfCtx s c.dst.cell c.ctx with
    | none => s
    | some w => cellWrite s c.dst.cell (w.base + c.dst.addr) (out.flatMap (leBytes 4)) c.poison

/-! ## Spill and prefetch (R131, R132) -/

/-- The tiles of pages, and the pages of a tile. -/
def pagesOfTile (s : State) (t : Nat) : List Page := (s.cache.pages.filter fun e => tileOf e.2.frame == t).map (·.2)
def pageTiles (s : State) : List Nat := (s.cache.pages.map fun e => tileOf e.2.frame).eraseDups

/-- Tiles of the pool in a lower tier. -/
def poolIn (s : State) (tier : Nat) : List Nat :=
  (s.tiers.tiles.filter fun e => inPool s e.1 && tierOf e.2.place == tier).map (·.1)

/-- Free pool tiles in DDR5 and in HBM; a ZERO tile of the pool counts as HBM's, where it will be placed (R131). -/
def freePoolDdr (s : State) : Nat := ((poolIn s 1).filter fun t => !(pageTiles s).contains t).length
def freePoolHbm (s : State) : Nat :=
  cget s rKvPoolTiles - ((pageTiles s) ++ poolIn s 1 ++ poolIn s 2).eraseDups.length

/-- A tile may be spilled: every page FULL with a summary and no pin, none on its way to HBM for the forager or by OP_PREFETCH (R131). -/
def spillable (s : State) (t : Nat) : Bool :=
  let ps := pagesOfTile s t
  !ps.isEmpty && ps.all (fun p => p.full && p.sumv && p.pins == 0) &&
  !s.tiers.reqs.any fun r => (r.rank == 2 || r.dest == 0) && (r.tiles.contains t || r.waiting.contains t)

def tileAge (s : State) (t : Nat) : Nat := (pagesOfTile s t).foldl (fun n p => max n p.beat) 0

/-- Tiles of the pool on their way out of a tier by the forager's requests. -/
def spilling (s : State) (tier : Nat) : Nat :=
  ((poolIn s tier).filter fun t => s.tiers.reqs.any fun r => r.rank == 2 && r.dest == tier + 1 && (r.tiles.contains t || r.waiting.contains t)).length

def spillTier (s : State) (tier free low high : Nat) : State :=
  if low ≤ free then s
  else
    let cands := sortBy (fun t => tileAge s t) (sortBy id (((poolIn s tier)).filter fun t => spillable s t &&
      ((tileGet s t).map fun x => x.moving.isNone).getD false))
    let ts := cands.take (high - (free + spilling s tier))
    if ts.isEmpty then s
    else settleMoves (addMove (setEvent (satAdd s rKvSpillCount 31 0 ts.length) rKvEvent 0) 2 (tier + 1) 7 ts)

/-- Spill at a boundary. -/
def spillPages (s : State) : State :=
  if cfld s rKvCfg 0 0 = 0 then s
  else
    let s := spillTier s 0 (freePoolHbm s) (cget s rKvHbmLow) (cget s rKvHbmHigh)
    spillTier s 1 (freePoolDdr s) (cget s rKvDdrLow) (cget s rKvDdrHigh)

/-- The tiles of a request's pages below `e` that are not in HBM, by layer, then block (R132). -/
def awayTiles (s : State) (l : Layout) (base e : Nat) : List Nat :=
  ((List.range l.layers).flatMap fun layer => (List.range ((e + 63) / 64)).flatMap fun b =>
    (List.range (localGroups l)).filterMap fun g =>
      match pageOf s (mapGet s l base b layer g) with
      | some p => if pageInHbm s p then none else some (tileOf p.frame)
      | none => none).eraseDups

/-- Asks for tiles to come to HBM, but for those already asked for. -/
def prefetchTiles (s : State) (ts : List Nat) : State :=
  let ts := ts.filter fun t => !s.tiers.reqs.any fun r => r.rank == 2 && r.dest == 0 && (r.tiles.contains t || r.waiting.contains t)
  if ts.isEmpty then s else settleMoves (addMove (satAdd s rKvPrefetchCount 31 0 ts.length) 2 0 7 ts)

/-! ## OP_PAGE_PIN and OP_PAGE_UNPIN (R117, R312) -/

/-- The checks both commands share. -/
def pageCheck (s : State) (fn page : Nat) : Half ⊕ Page :=
  if cget s rKvPtCount ≤ page then .inl stBounds
  else
    match pageOf s page with
    | none => .inl stBadField
    | some p => if fn != 0 && p.client != fn then .inl stClientMismatch else .inr p

def opPagePin (s : State) (cmd fn page : Nat) : State :=
  match pageCheck s fn page with
  | .inl st => refuseCmd s cmd st
  | .inr p =>
    if 0xFFFF ≤ p.pins then refuseCmd s cmd stNoResource
    else
      let s := pageSet s page { p with pins := p.pins + 1, cmdPins := tset p.cmdPins fn (tgetD p.cmdPins fn 0 + 1) }
      if pageInHbm s p then finishCmd s cmd stOk (p.pins + 1)
      else
        let s := prefetchTiles s [tileOf p.frame]
        { s with cache := { s.cache with pinWaits := s.cache.pinWaits ++ [(cmd, page)] } }

/-- Replies of OP_PAGE_PIN whose tile has come to HBM; the result is PINS (R311). -/
def answerPins (s : State) : State :=
  let done := s.cache.pinWaits.filter fun w => ((pageOf s w.2).map (pageInHbm s)).getD true
  let s := { s with cache := { s.cache with pinWaits := s.cache.pinWaits.filter fun w => !done.contains w } }
  done.foldl (fun s w => finishCmd s w.1 stOk ((pageOf s w.2).map (·.pins) |>.getD 0)) s

def opPageUnpin (s : State) (cmd fn page : Nat) : State :=
  match pageCheck s fn page with
  | .inl st => refuseCmd s cmd st
  | .inr p =>
    let mine := tgetD p.cmdPins fn 0
    let f := if 0 < mine then some fn else (p.cmdPins.find? fun e => 0 < e.2).map (·.1)
    match f with
    | none => refuseCmd s cmd stBadField
    | some f =>
      let s := pageSet s page { p with pins := p.pins - 1, cmdPins := tsetD p.cmdPins f (tgetD p.cmdPins f 0 - 1) 0 }
      finishCmd (reclaim s page) cmd stOk (p.pins - 1)

/-- The pins a function took by OP_PAGE_PIN are dropped (R401). -/
def dropFnPins (s : State) (f : Nat) : State :=
  (s.cache.pages.map (·.1)).foldl (fun s n =>
    match pageOf s n with
    | none => s
    | some p =>
      let k := tgetD p.cmdPins f 0
      if k = 0 then s else reclaim (pageSet s n { p with pins := p.pins - k, cmdPins := terase p.cmdPins f }) n) s

end Sys2Proof.Machine
end

