-- ==== Sys2Proof/Machine/Sampling.lean ====
section
/-!
DEFINITION. Sampling one row (R176): correctly rounded exp and ln, the noise, candidate sets, and grammars as functions of their
entries (R183).
-/

namespace Sys2Proof.Machine

/-! ## exp and ln, rounded once to FP64 (R176) -/

/-- An operation on FP64 values rounded once. -/
def f64 (p : Fp) : Fp := fp64.decode (fp64.encode p)

/-- Fixed point with 320 bits of fraction. -/
def unit320 : Nat := 2 ^ 320

/-- 2·artanh(z) for 0 ≤ z ≤ 1/3, in fixed point: 110 terms of the series. -/
def artanh2 (z : Nat) : Nat :=
  let zz := z * z / unit320
  let r := (List.range 110).foldl (fun (p : Nat × Nat) k => (p.1 + p.2 / (2 * k + 1), p.2 * zz / unit320)) (0, z)
  2 * r.1

/-- ln 2 in fixed point. -/
def ln2Fixed : Nat := artanh2 (unit320 / 3)

/-- ln of m·2^e for m > 0, in fixed point. -/
def lnFixed (m : Nat) (e : Int) : Int :=
  let k := Nat.log2 m
  let p := 2 ^ k
  (e + k) * ln2Fixed + artanh2 ((m - p) * unit320 / (m + p))

/-- ln x: exact to far more bits than an FP64 result keeps, with a sticky last bit; ln 1 is +0. -/
def fpLn : Fp → Fp
  | .nan => .nan
  | .inf false => .inf false
  | .inf true => .nan
  | .fin neg m e =>
    if m = 0 then .inf true
    else if neg then .nan
    else if (Fp.fin false m e).exactInt == some 1 then .fin false 0 0
    else
      let v := lnFixed m e
      .fin (decide (v < 0)) (2 * v.natAbs + 1) (-321)

/-- e^(−r) for 0 ≤ r < 1, in fixed point: the alternating series by Horner's rule. -/
def expNegFixed (r : Nat) : Nat :=
  ((List.range 80).foldl (fun (acc : Int) i => (unit320 : Int) - (r : Int) * acc / ((unit320 : Int) * (80 - i : Nat))) (unit320 : Int)).toNat

/-- e^x for x ≤ 0 (R176 takes no other argument), with a sticky last bit. -/
def fpExp64 : Fp → Fp
  | .nan => .nan
  | .inf true => .fin false 0 0
  | .inf false => .inf false
  | .fin neg m e =>
    if m = 0 then .fin false 1 0
    else if !neg then .inf false
    else if Fp.lt (.fin false 2048 0) (.fin false m e) then .fin false 0 0
    else
      let y := if 0 ≤ e + 320 then m * 2 ^ (e + 320).toNat else m / 2 ^ (-(e + 320)).toNat
      let k := y / ln2Fixed
      .fin false (2 * expNegFixed (y % ln2Fixed) + 1) (-321 - k)

/-! ## The row and its candidates -/

/-- What the sampling block says of a request (R171). -/
structure Sampler where
  sample : Bool
  topk : Nat
  temp : Nat
  topp : Nat
  seed : Nat
  handle : DWord
  eos : Nat

/-- The noise of token `i` at position `p`. -/
def noise (x : Sampler) (p i : Nat) : Fp :=
  let key : BitVec 128 := BitVec.ofNat 128 (x.seed + 2 ^ 64 * x.handle.toNat)
  let h := (sipHash key (leBytes 4 p ++ leBytes 4 i)).toNat / 2 ^ 40
  let u : Fp := .fin false (2 * h + 1) (-25)
  (f64 (fpLn (f64 (fpLn u)).neg)).neg

/-- A logit of a row as an FP32 value: BF16 is widened exactly. -/
def logit (bf : Bool) (row : List Byte) (i : Nat) : Fp :=
  if bf then bf16.decode (leNat ((row.drop (2 * i)).take 2)) else fp32.decode (leNat ((row.drop (4 * i)).take 4))

/-- The element with the largest value, the earliest where several are largest. -/
def argMax (l : List (Nat × Fp)) : Option Nat :=
  (l.foldl (fun best x =>
    match best with
    | none => some x
    | some b => if Fp.lt b.2 x.2 then some x else best) (none : Option (Nat × Fp))).map (·.1)

/-- Inserts by falling value, after elements of equal value. -/
def insertDesc (x : Nat × Fp) : List (Nat × Fp) → List (Nat × Fp)
  | [] => [x]
  | y :: ys => if Fp.lt y.2 x.2 then x :: y :: ys else y :: insertDesc x ys

/-- By falling value, ties to the lower token, of a list in ascending token order. -/
def sortDesc (l : List (Nat × Fp)) : List (Nat × Fp) := l.foldl (fun acc x => insertDesc x acc) []

/-- The shortest leading run whose shares reach `topp`; all of the list where none does. -/
def nucleus (topp m tot : Fp) : List (Nat × Fp) → Fp → List (Nat × Fp)
  | [], _ => []
  | x :: xs, run =>
    let run := f64 (run.add (f64 (fpDiv (f64 (fpExp64 (f32 (x.2.add m.neg)))) tot)))
    if !run.isNan && !Fp.lt run topp then [x] else x :: nucleus topp m tot xs run

/-- Samples a row for position `p`: the token, or none where every allowed token has a NaN logit (R176). -/
def sampleRow (x : Sampler) (p : Nat) (z : Nat → Fp) (mask : List Nat) : Option Nat :=
  let allowed := (mask.map fun i => (i, z i)).filter fun c => !c.2.isNan
  if !x.sample then argMax allowed
  else
    let s := allowed.map fun c => (c.1, f32 (fpDiv c.2 (fp32.decode x.temp)))
    let one := fp32.encode (.fin false 1 0)
    let c :=
      if x.topk = 0 && x.topp == one then s
      else
        let top := (sortDesc s).take (if x.topk = 0 then 1024 else x.topk)
        if x.topp == one then top
        else
          let m := s.foldl (fun a b => if Fp.lt a b.2 then b.2 else a) (.inf true)
          let tot := s.foldl (fun a b => f64 (a.add (f64 (fpExp64 (f32 (b.2.add m.neg)))))) (.fin false 0 0)
          nucleus (fp32.decode x.topp) m tot top (.fin false 0 0)
    argMax ((sortBy (·.1) c).map fun c => (c.1, f64 (c.2.add (noise x p c.1))))

/-! ## Grammars (R182, R183) -/

/-- The automaton of a sequence: its state entries and range entries, by index. -/
structure Automaton where
  nstates : Nat
  nranges : Nat
  stateE : Nat → Nat
  rangeE : Nat → Nat

def rLo (e : Nat) : Nat := bits e 17 0
def rHi (e : Nat) : Nat := bits e 35 18
def rNext (e : Nat) : Nat := bits e 51 36
def rPrio (e : Nat) : Nat := bits e 59 52
def rDeny (e : Nat) : Bool := bit e 60 == 1
def gAccept (e : Nat) : Bool := bit e 48 == 1

/-- The ranges of state `g`. -/
def Automaton.ranges (a : Automaton) (g : Nat) : List Nat :=
  let e := a.stateE g
  (List.range (bits e 47 32)).map fun k => a.rangeE (bits e 31 0 + k)

/-- The winner for token `t` among ranges: the highest PRIO. -/
def winner (rs : List Nat) (t : Nat) : Option Nat :=
  (rs.filter fun e => decide (rLo e ≤ t) && decide (t ≤ rHi e)).foldl (fun best e =>
    match best with
    | none => some e
    | some b => if rPrio b < rPrio e then some e else best) none

/-- Whether token `t` is allowed in state `g`, and the state it leads to (R183). -/
def Automaton.next (a : Automaton) (eos g t : Nat) : Option Nat :=
  match winner (a.ranges g) t with
  | some e => if rDeny e then none else some (rNext e)
  | none => if t = eos && gAccept (a.stateE g) then some g else none

/-- The tokens below V that a state allows. -/
def Automaton.mask (a : Automaton) (eos g v : Nat) : List Nat :=
  let rs := a.ranges g
  let acc := gAccept (a.stateE g)
  (List.range v).filter fun t =>
    match winner rs t with
    | some e => !rDeny e
    | none => t == eos && acc

/-- State or tokens of a sequence, `none` for an unconstrained one: mask and next state. -/
def maskOf (a : Option Automaton) (eos g v : Nat) : List Nat :=
  match a with
  | some a => a.mask eos g v
  | none => List.range v
def nextOf (a : Option Automaton) (eos g t : Nat) : Option Nat :=
  match a with
  | some a => a.next eos g t
  | none => some 0

end Sys2Proof.Machine
end

