-- ==== Sys2Proof/Machine/Forager.lean ====
section
/-!
DEFINITION. Request state (spec/07_request_state.md), what every part of it shares: handles (R138), peers (R140–R142), forager messages and
their transfers (R143–R145, R294), prefix hashes (R147), descriptors (R149, R150).
-/

namespace Sys2Proof.Machine

/-! ## Handles and roles -/

def hJob (h : DWord) : Nat := bits h.toNat 63 48
def hHome (h : DWord) : Nat := bits h.toNat 47 34
def hSeq (h : DWord) : Nat := bits h.toNat 19 0
def mkHandle (job home origin seq : Nat) : DWord := BitVec.ofNat 64 (job * 2 ^ 48 + home * 2 ^ 34 + origin * 2 ^ 20 + seq)

/-- Role codes of OP_SET_ROLE (R312): 1 PROMPT, 2 GENERATION, 3 CACHE, 4 MIXED. -/
def rolePrompt : Nat := 1
def roleGeneration : Nat := 2
def roleCache : Nat := 3
def roleMixed : Nat := 4
def isCompute (r : Nat) : Bool := r == rolePrompt || r == roleGeneration || r == roleMixed
/-- The role serves the prompt phase or the generation phase (R159). -/
def servesPhase (r : Nat) (prompt : Bool) : Bool := r == roleMixed || r == (if prompt then rolePrompt else roleGeneration)

/-! ## Homes (R145) -/

/-- Where a message to the home of `h` goes: the home while it is UP, else its partner while that is (R145). -/
def homeDest (s : State) (h : DWord) : Option Nat :=
  if peerUp s (hHome h) then some (hHome h)
  else (partnerOf s (hHome h)).bind fun p => if peerUp s p then some p else none

/-! ## Errors and events of the forager block (R168) -/

def fgError (s : State) (type : Nat) (st : Half) (h : DWord) : State :=
  (errRecord s rFgErr (type * 2 ^ 16 + st.toNat) [(rFgErrHandleLo, h.toNat % 2 ^ 32), (rFgErrHandleHi, h.toNat / 2 ^ 32)]).1

/-- The types whose refusal with ST_NOT_OWNER is one under R146: those with EPOCH checked (R144). -/
def epochChecked (type : Nat) : Bool := [2, 3, 4, 5, 6, 7, 9, 13].contains type

/-- A refused message, or a refused command (type 0): recorded; flagged and counted where R141 or R146 refuses it (R168). -/
def noteRefusal (s : State) (type : Nat) (st : Half) (h : DWord) : State :=
  let s := if st == stNotOwner then setEvent s rFgEvent 3 else s
  let s := if st == stNotOwner && epochChecked type then satAdd s rFgRefuseCount 31 16 1 else s
  let s := if st == stRoleStale then setEvent (satAdd s rFgRefuseCount 15 0 1) rFgEvent 4 else s
  fgError s type st h

/-- Refuses a request command (R168). -/
def refuseReq (s : State) (cmd : Nat) (st : Half) (h : DWord) : State := refuseCmd (noteRefusal s 0 st h) cmd st

/-- A notice that names an older epoch is refused, and nothing in it is applied (R16). -/
def staleNotice (s : State) (m : FHdr) : State := noteRefusal s 12 stNotOwner m.handle

/-! ## Sending messages (R143, R294) -/

/-- The job's forager key. -/
def foragerKey (s : State) : DWord :=
  match s.sched.image with
  | some (im, _) => keyOf 0 (foragerSecret im.hkey im.job)
  | none => 0

/-- The slots of a destination that this node may use, in ascending order (R294). -/
def ownSlots (s : State) : List Nat :=
  let n := s.forager.peers.length
  let i := (s.forager.peers.findIdx? fun p => p.entry.node == nodeNum s).getD 0
  if n = 0 then [] else (List.range ((1024 - i + n - 1) / n)).map fun k => i + k * n

/-- The first own slot at `dst` with no transfer in flight. -/
def freeSlotAt (s : State) (dst : Nat) : Option Nat :=
  if 1024 ≤ sendsInFlight s then none
  else (ownSlots s).find? fun k => !s.remote.sends.any fun t => t.forager && t.inFlight && t.node == dst && t.slot == k

def nextGen (s : State) (dst slot : Nat) : Nat := tgetD s.forager.gens (dst * 1024 + slot) 1

/-- Starts the waiting transfers to a node while slots are free. -/
def startForagerTo (s : State) (dst : Nat) : State :=
  (s.remote.sends.filter fun t => t.forager && !t.inFlight && t.attempts == 0 && t.node == dst).foldl (fun s t =>
    match freeSlotAt s dst with
    | none => s
    | some k =>
      let s := sendMod s t.tag fun t => { t with slot := k, gen := nextGen s dst k }
      match s.remote.sends.find? (fun x => x.tag == t.tag) with
      | some t => attemptSend s t
      | none => s) s

/-- Transfers are over: the pages they moved are unpinned (R117). DEDUCED (log 23): a transfer may be sent again until it settles, so its
last byte has left only then. -/
def dropSends (s : State) (p : SendTx → Bool) : State :=
  let gone := s.remote.sends.filter p
  let s := { s with remote := { s.remote with sends := s.remote.sends.filter fun t => !p t } }
  (gone.flatMap fun t => t.pages).foldl unpin s

/-- Sends a forager message to a node, with the pages it moves pinned. The beat fields of a message the device sends are zero. -/
def tell (s : State) (dst : Nat) (h : DWord) (epoch : Nat) (st : Half) (hashv fork : Bool) (b : FBody) (pages : List Nat := []) : State :=
  let hdr : FHdr := {
    src := BitVec.ofNat 14 (nodeNum s), roleEpoch := BitVec.ofNat 32 (((peerOf s dst).map fun p => p.entry.roleEpoch).getD 0)
    handle := h, epoch := BitVec.ofNat 32 epoch, status := st, hashv := hashv, fork := fork, notBefore := 0, deadline := 0, resv := false }
  let tag := s.remote.nextTag
  let t : SendTx := {
    tag := tag, fn := 0, cmd := 0, node := dst, slot := 0, key := foragerKey s, gen := 0, src := 0, len := 0
    forager := true, msg := some (hdr, b), pages := pages }
  let s := pages.foldl pin s
  startForagerTo { s with remote := { s.remote with nextTag := tag + 1, sends := s.remote.sends ++ [t] } } dst

def bodyHash : FBody → Bool
  | .commit _ h _ => h.isSome
  | _ => false

/-- Sends a message that is answered by a REPLY, and remembers it until then. -/
def ask (s : State) (dst : Nat) (h : DWord) (epoch : Nat) (b : FBody) (fork mirror follow : Bool := false) : State :=
  let a : Asked := { dst := dst, handle := h, epoch := epoch, fork := fork, mirror := mirror, follow := follow, body := b }
  tell { s with forager := { s.forager with asked := s.forager.asked ++ [a] } } dst h epoch 0 (bodyHash b) fork b

/-- Sends a message to the home of a handle; nothing where home and partner are both lost. -/
def askHome (s : State) (h : DWord) (epoch : Nat) (b : FBody) (fork : Bool := false) : State :=
  match homeDest s h with
  | some d => ask s d h epoch b fork
  | none => s

def reply (s : State) (dst : Nat) (h : DWord) (st : Half) (r : ReplyTo) : State := tell s dst h 0 st false false (.reply r)
def notice (s : State) (dst : Nat) (h : DWord) (kind epoch : Nat) (st : Half) (sum : Option ReqSummary) : State :=
  tell s dst h epoch st false false (.notice kind epoch sum)

def noticeGrant : Nat := 1
def noticeReleased : Nat := 2
def noticeExpired : Nat := 3
def noticeAdopt : Nat := 4
def noticeJoin : Nat := 5
def noticeCleared : Nat := 6

/-- The lead relays a notice to the members of its group (R150). -/
def relay (s : State) (h : DWord) (kind epoch : Nat) (st : Half) (sum : Option ReqSummary) : State :=
  (members s).foldl (fun s n => notice s n h kind epoch st sum) s

/-! ## Receiving (R141, R143) -/

/-- The beat fields of a message, judged as R32 judges a command's. -/
def beatStatus (s : State) (m : FHdr) : Half :=
  let n := m.notBefore.toNat
  let d := m.deadline.toNat
  if (n != 0 && d != 0 && decide (d ≤ n)) || decide (now s + 2 ^ 32 < n) then stBadField
  else if s.beat.state != .lost && d != 0 && decide (d ≤ now s) then stDeadlineMissed
  else stOk

/-- The checks common to every message: the role epoch, then whether the role serves the type, then reserved bytes and the beat fields
(R141, R143). -/
def msgStatus (s : State) (m : FHdr) (cacheType : Bool) : Half :=
  if m.roleEpoch != s.boot.roleEpoch then stRoleStale
  else if (if cacheType then s.boot.role != roleCache else !isCompute s.boot.role) then stWrongRole
  else if m.resv then stBadField
  else beatStatus s m

/-- A message that arrives: refused, or held for its not-before beat and while the beat is lost, or applied (R26, R33, R141). -/
def receiveMsg (s : State) (i : Instr) (m : FHdr) (type : Nat) (cacheType : Bool) (rt : ReplyTo) (k : State → State) : State :=
  let st := msgStatus s m cacheType
  if st != stOk then
    let s := noteRefusal s type st m.handle
    if type = 14 then s else reply s m.src.toNat m.handle st rt
  else if s.beat.state == .lost || (m.notBefore != 0 && decide (now s < m.notBefore.toNat)) then
    { s with forager := { s.forager with held := s.forager.held ++ [i] } }
  else k s

/-! ## Prefix hashes (R147) -/

/-- Hashes of consecutive blocks of 64 token ids from a parent. -/
def chainHashes (key : BitVec 128) : Nat → DWord → List Nat → List DWord
  | 0, _, _ => []
  | n + 1, parent, toks =>
    let h := sipHash key (leBytes 8 parent.toNat ++ (toks.take 64).flatMap (leBytes 4))
    let h := if h == 0 then 1 else h
    h :: chainHashes key n h (toks.drop 64)

def hashKey (s : State) : BitVec 128 := (s.sched.image.map fun p => p.1.hkey).getD 0

/-! ## Descriptors (R149, R150) -/

def descOf (s : State) (h : DWord) : Option Desc := s.forager.descs.find? fun d => d.handle == h
def descMod (s : State) (h : DWord) (f : Desc → Desc) : State :=
  { s with forager := { s.forager with descs := s.forager.descs.map fun d => if d.handle == h then f d else d } }
/-- The lowest FREE descriptor index. -/
def freeDescIdx (s : State) : Option Nat :=
  let n := firstGap 0 (sortBy id (s.forager.descs.map fun d => d.idx))
  if n < cget s rFgDescCount then some n else none
def addDesc (s : State) (d : Desc) : State :=
  let s := touchOwn s (cbase s rFgDescBaseLo rFgDescBaseHi + 128 * d.idx) 128
  { s with forager := { s.forager with descs := s.forager.descs ++ [d] } }

/-- Prompt phase on this node, judged from the descriptor's own fields (R159). -/
def inPrompt (d : Desc) : Bool := decide (d.clen < d.plen)
/-- The token ids at positions of a descriptor's token buffer. -/
def tokenAt (s : State) (d : Desc) (p : Nat) : Nat := rangeNat s (d.tbuf + 4 * p) 4
def putToken (s : State) (d : Desc) (p id : Nat) : State := rangePut s (d.tbuf + 4 * p) (leBytes 4 id)
/-- Hashes of blocks CB to `b` of a descriptor, chained from TIP. -/
def hashesFrom (s : State) (d : Desc) (b : Nat) : List DWord :=
  chainHashes (hashKey s) (b + 1 - d.cb) d.tip ((List.range (64 * (b + 1 - d.cb))).map fun i => tokenAt s d (64 * d.cb + i))
/-- The hash of block `b` ≥ CB. -/
def blockHash (s : State) (d : Desc) (b : Nat) : DWord := ((hashesFrom s d b).getLast?).getD d.tip

def stepOf (s : State) (h : DWord) : Option Step := s.sched.steps.find? fun x => x.handle == h
def stepMod (s : State) (h : DWord) (f : Step → Step) : State :=
  { s with sched := { s.sched with steps := s.sched.steps.map fun x => if x.handle == h then f x else x } }
/-- A step is over: its stages end, and SLEN is CLEN again unless the step commits (R129). -/
def dropStep (s : State) (h : DWord) : State :=
  let s := if (stepOf s h).isSome then descMod s h fun d => { d with slen := d.clen } else s
  dropStages { s with sched := { s.sched with steps := s.sched.steps.filter fun x => x.handle != h } } h

/-- Pages of block `b` that this node's map names. -/
def blockPages (s : State) (l : Layout) (d : Desc) (b : Nat) : List (Nat × Nat × Nat) :=
  if !holdsBlock l b then []
  else (List.range l.layers).flatMap fun layer => (List.range (localGroups l)).filterMap fun g =>
    let n := mapGet s l d.map b layer g
    if n = noPage then none else some (layer, g, n)

/-- The descriptor holds a page map with a context's layout. -/
def descLayout (s : State) (d : Desc) : Option Layout :=
  if d.ctx = 0xFFFF then none else s.sched.image.bind fun p => if d.prot then p.1.prot else some p.1.main

/-- Unpins the pages of an outstanding COMMIT's block (R117, R160). -/
def unpinBlock (s : State) (d : Desc) (b : Nat) : State :=
  match descLayout s d with
  | none => s
  | some l => (blockPages s l d b).foldl (fun s p => unpin s p.2.2) s

/-- References that a descriptor holds on a grammar slot (R186). -/
def dropGrammarRef (s : State) (h : DWord) : State :=
  { s with lens := { s.lens with slots := s.lens.slots.map fun e => (e.1, { e.2 with refs := e.2.refs.filter (· != h) }) } }

/-- A descriptor returns to FREE: its outstanding sends are unpinned, its map is freed, its references are released (R150, R120). -/
def freeDesc (s : State) (h : DWord) : State :=
  match descOf s h with
  | none => s
  | some d =>
    let s := d.commits.foldl (fun s c => unpinBlock s d c.1) s
    let s := match descLayout s d with
      | some l => freeMap s l d.map
      | none => s
    let s := dropStep (dropGrammarRef s h) h
    { s with forager := { s.forager with
        descs := s.forager.descs.filter fun d => d.handle != h
        asked := s.forager.asked.filter fun a => a.handle != h || bodyType a.body == 11 || bodyType a.body == 10 } }

/-- An unsolicited reply of a request: END on the ring of its command, or NOTICE on ring 0 (R305, R306). -/
def endReply (s : State) (d : Desc) (st : Half) : State :=
  if d.lead then postReply s d.client { cid := d.cid, status := st, kind := 2, ring := d.ring, result := d.handle } else s
def noticeReply (s : State) (d : Desc) (st : Half) : State :=
  if d.lead then postReply s d.client { cid := 0, status := st, kind := 3, ring := 0, result := d.handle } else s

/-- Writes a TOKEN reply (R305, R306) and counts the token (R221). -/
def tokenReply (s : State) (d : Desc) (st : Half) (pos id : Nat) : State :=
  let s := charge0 s d.client
  postReply s d.client { cid := d.cid, status := st, kind := 1, ring := d.ring, result := BitVec.ofNat 64 (id + pos * 2 ^ 32) }
where
  charge0 (s : State) (client : Nat) : State :=
    let k := client * 12 + 11
    { s with sched := { s.sched with acct := tset s.sched.acct k (min (tgetD s.sched.acct k 0 + 1) (2 ^ 64 - 1)) } }

/-- Enters FENCED: no further step, no COMMIT, TOKENS or DIRECT; held tokens are dropped, and a running step's reply carries the status
(R150, R153). A pending command completes with the status. -/
def fenceDesc (s : State) (h : DWord) (st : Half) : State :=
  match descOf s h with
  | none => s
  | some d =>
    if d.state == .fenced then s
    else
      let s := if st == stNotOwner then setEvent s rFgEvent 3 else if st == stLeaseExpired then setEvent s rFgEvent 2 else s
      let s := if (stepOf s h).isSome || !d.tokensOut.isEmpty then noticeReply s d st else s
      let s := if d.cmd = 0 then s else finishCmd s d.cmd st 0
      let s := d.commits.foldl (fun s c => unpinBlock s d c.1) s
      let s := if d.lead then relay s h noticeExpired d.epoch st none else s
      let s := descMod s h fun d => { d with state := .fenced, cmd := 0, tokensOut := [], commits := [], retry := [], unsent := [] }
      { s with forager := { s.forager with asked := s.forager.asked.filter fun a => a.handle != h || bodyType a.body == 11 } }

/-- Ends a request whose home copies are both lost (R150). -/
def loseDesc (s : State) (h : DWord) : State :=
  match descOf s h with
  | none => s
  | some d =>
    let s := if d.cmd = 0 then endReply s d stRequestLost else finishCmd s d.cmd stRequestLost 0
    freeDesc (if d.cmd = 0 then s else descMod s h fun d => { d with cmd := 0 }) h

/-- END leaves the lead once the TOKENS of the request's steps are answered, and once the lead holds an epoch: a request ended while its
CREATE or CLAIM is out waits for that answer (R146, R161, R166, log 39). -/
def tryEnd (s : State) (h : DWord) : State :=
  match descOf s h with
  | none => s
  | some d =>
    if d.state == .ending && d.lead && d.epoch != 0 && !d.proposed && d.tokensOut.isEmpty then
      askHome (descMod s h fun d => { d with proposed := true }) h d.epoch (.end_ d.endStatus)
    else s

/-- A request that was ended before it held an epoch gets none: nothing is left to end at a home, and its END is written (R216). -/
def endUnowned (s : State) (d : Desc) : State := freeDesc (endReply s d d.endStatus) d.handle

/-- The descriptor is one of a request that was ended while its CREATE or CLAIM was out. -/
def endedUnowned (d : Desc) : Bool := d.state == .ending && d.epoch == 0

/-- ENDING (R150, R166). -/
def endRequest (s : State) (h : DWord) (st : Half) (cmd : Nat) : State :=
  tryEnd (descMod (dropStep s h) h fun d => { d with state := .ending, endStatus := st, cmd := cmd, proposed := false }) h

/-! ## Commits of this node (R160) -/

/-- The pages of a block as a COMMIT or PAGES payload carries them. -/
def pagePayload (s : State) (l : Layout) (d : Desc) (b : Nat) : List PageData :=
  (blockPages s l d b).filterMap fun p =>
    (pageOf s p.2.2).map fun x => {
      block := b, layer := p.1, group := groupOf l p.2.1, data := rangeRead s x.frame (pageData l)
      poison := rangePoisoned s x.frame (pageData l)
      summary := if x.sumv then some (rangeRead s (sumAt s l p.2.2) (sumSize l)) else none }

/-- Sends the COMMIT of a block to the home or to its partner. -/
def sendCommit (s : State) (h : DWord) (b : Nat) (toMirror : Bool) : State :=
  match descOf s h with
  | none => s
  | some d =>
    match descLayout s d with
    | none => s
    | some l =>
      let hash := if d.lead then some (blockHash s d b) else none
      let body := FBody.commit b hash (pagePayload s l d b)
      if toMirror then (if peerUp s d.partner && peerUp s d.home then ask s d.partner h d.epoch body false true else s)
      else askHome s h d.epoch body

/-- The COMMIT of a committed block leaves for each copy, the pages pinned until both are answered. Only FULL pages are sent (R116).
DESIGN CHOICE (log 49): a block of which this member holds a page that is still OPEN for want of a summary is sent once all are FULL,
since R160 has one COMMIT carry them. -/
def offerBlock (s : State) (h : DWord) (b : Nat) : State :=
  match descOf s h with
  | none => s
  | some d =>
    match descLayout s d with
    | none => s
    | some l =>
      let ps := blockPages s l d b
      if ps.isEmpty && !d.lead then s
      else if ps.any fun p => !((pageOf s p.2.2).map fun x => x.full).getD true then
        descMod s h fun d => { d with unsent := insertNat b d.unsent }
      else
        let s := ps.foldl (fun s p => pin s p.2.2) s
        let both := peerUp s d.home && peerUp s d.partner
        let s := descMod s h fun d => { d with commits := d.commits ++ [(b, true, both)], unsent := d.unsent.filter (· != b) }
        let s := sendCommit s h b false
        if both then sendCommit s h b true else s

/-- Blocks that a step's end commits (R160). -/
def commitBlocks (s : State) (h : DWord) (old new : Nat) : State :=
  ((List.range (new / 64 - old / 64)).map (old / 64 + ·)).foldl (fun s b => offerBlock s h b) s

/-- A COMMIT of a block has been accepted by a copy, or that copy is lost: unpinned when both are through. -/
def commitDone (s : State) (h : DWord) (b : Nat) (toMirror : Bool) : State :=
  match descOf s h with
  | none => s
  | some d =>
    let upd := d.commits.map fun c => if c.1 = b then (b, c.2.1 && toMirror, c.2.2 && !toMirror) else c
    let through := upd.any fun c => c.1 = b && !c.2.1 && !c.2.2
    let s := if through then unpinBlock s d b else s
    descMod s h fun d => { d with
      commits := upd.filter fun c => !(c.1 = b && !c.2.1 && !c.2.2)
      retry := d.retry.filter fun r => r != (b, toMirror) }

end Sys2Proof.Machine
end

