-- ==== Sys2Proof/Machine/Home.lean ====
section
/-!
DEFINITION. The home side of the foragers (R145–R164): records and their replicas, the prefix table (R148), admission (R156, R157), commits
(R160), the token log (R161), handoff (R163), reassignment (R154), the mirror, and the loss of peers (R140, R164).
-/

namespace Sys2Proof.Machine

/-! ## Records -/

def recOf (s : State) (h : DWord) : Option HomeRec := s.forager.recs.find? fun r => r.data.handle == h
/-- Puts a record in its place; the entry's tile is written (R151, R226). -/
def recPut (s : State) (r : HomeRec) : State :=
  let a := cbase s rFgHomeBaseLo rFgHomeBaseHi + 64 * r.idx
  if s.forager.recs.any (fun x => x.data.handle == r.data.handle) then
    let s := touchEntry s a 64
    { s with forager := { s.forager with recs := s.forager.recs.map fun x => if x.data.handle == r.data.handle then r else x } }
  else
    let s := touchOwn s a 64
    { s with forager := { s.forager with recs := s.forager.recs ++ [r] } }
def recMod (s : State) (h : DWord) (f : HomeRec → HomeRec) : State :=
  match recOf s h with
  | some r => recPut s (f r)
  | none => s

/-- Codes of the record states (R151). -/
def recOwned : Nat := 1
def recPending : Nat := 2
def recOrphaned : Nat := 3
def recEnding : Nat := 4

/-- This node serves as home for a handle (R151, R164, R167). -/
def servesHome (s : State) (h : DWord) : Bool :=
  (hHome h == nodeNum s && !s.forager.spareOf) || s.forager.acting.contains (hHome h)

/-- The lowest FREE record index. -/
def freeRecIdx (s : State) : Option Nat :=
  let n := firstGap 0 (sortBy id (s.forager.recs.map fun r => r.idx))
  if n < cget s rFgHomeCount then some n else none

/-- The layout a CACHE node uses: every group is held here (R151). -/
def homeLayout (l : Layout) : Layout := { l with split := 0, n := 1, member := 0 }
def mainLayout (s : State) : Option Layout := s.sched.image.map fun p => homeLayout p.1.main
def mapKey (l : Layout) (b layer g : Nat) : Nat := (b * l.layers + layer) * groupsOf l + g

/-- The layers and groups of one block, in the order of R115. -/
def blockCells (l : Layout) : List (Nat × Nat) :=
  (List.range l.layers).flatMap fun y => (List.range (groupsOf l)).map fun g => (y, g)

/-- A record returns to FREE: the pages its map names and those placed for uncommitted blocks are freed, the log is released. -/
def freeRec (s : State) (h : DWord) : State :=
  match recOf s h with
  | none => s
  | some r =>
    let s := r.map.foldl (fun s e => freeRef s e.2) s
    let s := r.placed.foldl (fun s e => e.2.foldl (fun s p => freeRef s p.2.2) s) s
    let s := dropPins s fun o => o == .tokenLog h
    { s with forager := { s.forager with
        recs := s.forager.recs.filter fun x => x.data.handle != h
        homeOps := s.forager.homeOps.filter fun o => o.handle != h
        ackWaits := s.forager.ackWaits.filter fun o => o.1 != h } }

/-- A new record's token log is pinned to HBM where it lies (R151, R230), and `n` ids are written to it. -/
def pinLog (s : State) (h : DWord) (maxlen n : Nat) : State :=
  let a := (Config.tokenLogAt h).toNat
  touchOwn (addPin s (tileOf a) (tilesOf a (4 * maxlen)).length 0 (.tokenLog h)) a (4 * n)

/-- The tiles of the map entries of a record's blocks 0 to `n` − 1 are written (R151). -/
def touchMap (s : State) (h : DWord) (n : Nat) : State :=
  match mainLayout s with
  | some l => touchOwn s (Config.homeMapAt h).toNat (4 * mapKey l n 0 0)
  | none => s

/-! ## The prefix table (R148) -/

/-- The line of a prefix table entry reads as poisoned. -/
def pfxPoisoned (s : State) (e : PfxEntry) : Bool := rangePoisoned s (cbase s rFgPfxBaseLo rFgPfxBaseHi + 32 * e.index) 32

/-- The entry of a block under a client. One that reads as poisoned is a miss (R341). -/
def pfxFind (s : State) (hash : DWord) (client : Nat) : Option PfxEntry :=
  s.forager.pfx.find? fun e => e.hash == hash && e.client == client && !pfxPoisoned s e
def pfxHit (s : State) (index : Nat) : State :=
  { s with forager := { s.forager with pfx := s.forager.pfx.map fun e => if e.index == index then { e with hit := now s } else e } }

/-- Removes an entry and frees its references. -/
def pfxEvict (s : State) (e : PfxEntry) : State :=
  e.pages.foldl freeRef { s with forager := { s.forager with pfx := s.forager.pfx.filter fun x => x.index != e.index } }

/-- The entry with the oldest HIT, ties to the lower index. -/
def oldestPfx (s : State) : Option PfxEntry :=
  (sortBy (fun (e : PfxEntry) => e.hit) (sortBy (fun (e : PfxEntry) => e.index) s.forager.pfx)).head?

/-- References every page of a list; where one is refused, those taken are released and the answer is false. -/
def addRefs (s : State) (ps : List Nat) : State × Bool :=
  let r := ps.foldl (fun (r : State × List Nat × Bool) n =>
    if r.2.2 then
      let (s, ok) := addRef r.1 n
      if ok then (s, n :: r.2.1, true) else (s, r.2.1, false)
    else r) (s, [], true)
  if r.2.2 then (r.1, true) else (r.2.1.foldl freeRef r.1, false)

/-- Inserts an entry for a block's pages, each referenced once more; nothing where one is refused or the table has no entries. -/
def pfxInsert (s : State) (hash : DWord) (client b : Nat) (mirrored : Bool) (pages : List Nat) : State :=
  let count := cget s rFgPfxCount
  if count = 0 || pages.any (fun n => ((pageOf s n).map fun p => p.plain).getD true) then s
  else
    let n := firstGap 0 (sortBy id (s.forager.pfx.map fun e => e.index))
    let s := if n < count then s else match oldestPfx s with
      | some e => pfxEvict s e
      | none => s
    let n := firstGap 0 (sortBy id (s.forager.pfx.map fun e => e.index))
    match addRefs s pages with
    | (s, false) => s
    | (s, true) =>
      let s := touchOwn s (cbase s rFgPfxBaseLo rFgPfxBaseHi + 32 * n) 32
      let s := touchOwn s (Config.pfxListAt n).toNat (4 * pages.length)
      { s with forager := { s.forager with
          pfx := s.forager.pfx ++ [{ index := n, hash := hash, client := client, mirrored := mirrored, block := b, pages := pages, hit := now s }] } }

/-- Leading hashes found under a client: M of a lookup that changes nothing (R158). -/
def lookupM (s : State) (client : Nat) : List DWord → Nat
  | [] => 0
  | h :: hs => if (pfxFind s h client).isSome then 1 + lookupM s client hs else 0

/-- Takes the leading blocks found: map entries, references and hits; stops before a reference that is refused (R156). -/
def takePrefix (l : Layout) (client : Nat) : State → List DWord → Nat → Tab Nat → State × Nat × Tab Nat
  | s, [], b, m => (s, b, m)
  | s, h :: hs, b, m =>
    match pfxFind s h client with
    | none => (s, b, m)
    | some e =>
      match addRefs s e.pages with
      | (s, false) => (s, b, m)
      | (s, true) =>
        let m := ((blockCells l).zip e.pages).foldl (fun m p => tset m (mapKey l b p.1.1 p.1.2) p.2) m
        takePrefix l client (pfxHit s e.index) hs (b + 1) m

/-- Blocks 0 to `n` of a map, referenced once more; none where one is refused, which the state records (R117, R157). -/
def shareMap (s : State) (l : Layout) (r : HomeRec) (n : Nat) : State × Option (Tab Nat) :=
  let m := r.map.filter fun e => decide (e.1 < mapKey l n 0 0)
  match addRefs s (m.map (·.2)) with
  | (s, true) => (s, some m)
  | (s, false) => (s, none)

/-! ## Placing pages (R160) -/

/-- The layout whose page data has this many bytes. -/
def layoutForBytes (s : State) (n : Nat) : Option Layout :=
  match s.sched.image with
  | none => none
  | some (im, _) =>
    if pageData im.main = n then some (homeLayout im.main)
    else im.prot.bind fun l => if pageData l = n then some (homeLayout l) else none

/-- Writes a received page into a FREE page, which enters FULL; none where no page, frame or tile is free (R160, R227). -/
def placePage (s : State) (l : Layout) (client : Nat) (p : PageData) : Option (Nat × State) :=
  (allocPage s l client p.group p.layer).bind fun r =>
    let (n, s) := r
    (pageOf s n).bind fun x =>
      let written := (putRange s x.frame p.data p.poison).bind fun s =>
        match p.summary with
        | some b => putRange s (sumAt s l n) b
        | none => .ok s
      written.toOption.map fun s => (n, pageSet s n { x with full := true, sumv := p.summary.isSome, written := 64, beat := now s })

/-- Places every page of a COMMIT, or none of them. -/
def placePages (s : State) (client : Nat) (ps : List PageData) : Option (List (Nat × Nat × Nat) × State) :=
  ps.foldl (fun o p => o.bind fun r =>
    match layoutForBytes s p.data.length with
    | none => some r
    | some l => (placePage r.2 l client p).map fun q => (r.1 ++ [(p.layer, p.group, q.1)], q.2)) (some ([], s))

/-- Every page of a block has been placed here, and the lead's COMMIT has brought its hash (R160). -/
def blockPlaced (s : State) (r : HomeRec) (b : Nat) : Bool :=
  match mainLayout s with
  | none => false
  | some l => (tget r.hashes b).isSome && (blockCells l).all fun c => (tgetD r.placed b []).any fun p => p.1 == c.1 && p.2.1 == c.2

/-- CB after block `b` is committed: the length of the leading run. -/
def leadingRun (cb : Nat) (done : List Nat) : Nat :=
  ((List.range (done.length + 1)).find? fun k => !done.contains (cb + k)).getD 0 + cb

/-- Commits a block at one copy: deduplicated against the prefix table, else inserted there (R160). -/
def commitLocal (s : State) (h : DWord) (b : Nat) : State :=
  match recOf s h, mainLayout s with
  | some r, some l =>
    let recv := (blockCells l).filterMap fun c => ((tgetD r.placed b []).find? fun p => p.1 == c.1 && p.2.1 == c.2).map fun p => p.2.2
    let cells := blockCells l
    let hash := tgetD r.hashes b 0
    let (s, pages) := match pfxFind s hash r.data.client with
      | some e =>
        let (s, out) := (recv.zip e.pages).foldl (fun (q : State × List Nat) (p : Nat × Nat) =>
          let (s, ok) := addRef q.1 p.2
          if ok then (freeRef s p.1, q.2 ++ [p.2]) else (s, q.2 ++ [p.1])) (s, [])
        (pfxHit s e.index, out)
      | none => (pfxInsert s hash r.data.client b r.replica recv, recv)
    recMod (touchMap s h (b + 1)) h fun r =>
      let done := insertNat b r.done
      let cb := leadingRun r.data.cb done
      { r with
        map := (cells.zip pages).foldl (fun m (p : (Nat × Nat) × Nat) => tset m (mapKey l b p.1.1 p.1.2) p.2) r.map
        placed := terase r.placed b, hashes := terase r.hashes b
        from_ := r.from_.filter (fun f => f.1 != b), done := done.filter (fun k => decide (cb ≤ k))
        data := { r.data with cb := cb, ownerCommitted := true } }
  | _, _ => s

/-! ## What a home operation comes to (R146, R152–R163) -/

/-- The sender of an epoch-checked message is the recorded owner, or for COMMIT and FETCH a member of its group. -/
def epochOk (s : State) (r : HomeRec) (m : FHdr) (member : Bool) : Bool :=
  m.epoch.toNat == r.data.epoch && (match r.data.owner with
    | some o => o == m.src.toNat || (member && leadOf s m.src.toNat == o)
    | none => false)

/-- The refusal of an epoch-checked message, where R146 refuses it. -/
def r146 (s : State) (m : FHdr) (member : Bool) : Option Half :=
  match recOf s m.handle with
  | none => some stNotOwner
  | some r =>
    if r.data.state = recEnding then some (if r.data.epoch = 0xFFFFFFFF then stRequestLost else stNotOwner)
    else if epochOk s r m member then none else some stNotOwner

/-- A verdict on a home operation: refused, answered without a change, or a change. -/
inductive Verdict where
  | refuse (st : Half)
  | same
  | change
  deriving DecidableEq, Repr

/-- R157's test of the parent record of a fork. -/
def forkParentOk (s : State) (m : FHdr) (parent : DWord) : Bool :=
  match recOf s parent with
  | none => false
  | some r => (r.data.state == recOwned || r.data.state == recPending) && r.data.owner == some m.src.toNat &&
      m.epoch.toNat == r.data.epoch

def judgeCreate (s : State) (m : FHdr) (parent : DWord) : Verdict :=
  if (recOf s m.handle).isSome then .refuse stHandleInUse
  else if m.fork && !forkParentOk s m parent then .refuse stNotOwner
  else if (freeRecIdx s).isNone then .refuse stNoResource
  else if m.fork then
    match recOf s parent, mainLayout s with
    | some r, some l => if (shareMap s l r r.data.cb).2.isSome then .change else .refuse stNoResource
    | _, _ => .refuse stNoResource
  else .change

/-- PROPOSE by the rows of R163. -/
def judgePropose (s : State) (m : FHdr) (target : Nat) : Verdict :=
  match recOf s m.handle with
  | none => .refuse stNotOwner
  | some r =>
    let d := r.data
    if d.state = recEnding then .refuse (if d.epoch = 0xFFFFFFFF then stRequestLost else stNotOwner)
    else if d.epoch = 0xFFFFFFFF then .refuse stNoResource
    else if !epochOk s r m false then .refuse stNotOwner
    else if d.owner == some target || !peerUp s target || !isCompute (peerRole s target) then .refuse stBadField
    else
      match d.pending with
      | some p =>
        if p != target then .refuse stOwnerConflict
        else if d.claimed then .change
        else .same
      | none => .change

/-- CLAIM by the rows of R163. -/
def judgeClaim (s : State) (m : FHdr) (expOwner : Half) (expEpoch : Nat) : Verdict :=
  match recOf s m.handle with
  | none => .refuse stNotOwner
  | some r =>
    let d := r.data
    let src := m.src.toNat
    let exp := if expOwner.getLsbD 15 then some (expOwner.toNat % 2 ^ 14) else none
    let epochBad := expEpoch != 0 && expEpoch != d.epoch
    if d.state = recEnding then .refuse (if d.epoch = 0xFFFFFFFF then stRequestLost else stNotOwner)
    else if d.epoch = 0xFFFFFFFF then .refuse stNoResource
    else if !servesPhase (peerRole s src) (decide (d.clenh < d.plen)) then .refuse stWrongRole
    else if d.state = recOrphaned && exp.isNone && !epochBad then .change
    else if exp != d.owner || epochBad then .refuse stNotOwner
    else
      match d.pending with
      | some p =>
        if p != src then .refuse stOwnerConflict
        else if d.proposed then .change
        else .same
      | none => .change

/-- The verdict on a home operation as the records stand. -/
def judge (s : State) (i : Instr) : Verdict :=
  match i with
  | .create m _ _ _ parent _ _ => judgeCreate s m parent
  | .renew m =>
    match r146 s m false with
    | some st => .refuse st
    | none => if ((recOf s m.handle).map fun r => decide (now s < r.data.lease)).getD false then .change else .refuse stNotOwner
  | .propose m t => judgePropose s m (t.toNat % 2 ^ 14)
  | .claim m o e => judgeClaim s m o e.toNat
  | .tokens m first count _ =>
    match r146 s m false with
    | some st => .refuse st
    | none =>
      if ((recOf s m.handle).map fun r => decide (r.data.maxlen < first.toNat + count.toNat)).getD true then .refuse stBounds else .change
  | .end_ m _ =>
    match r146 s m false with
    | some st => .refuse st
    | none => .change
  | .commit m b _ _ =>
    match recOf s m.handle with
    | some r => if blockPlaced s r b.toNat then .change else .same
    | none => .same
  | .leaseReassign h =>
    match recOf s h with
    | some r => if (r.data.state == recOwned || r.data.state == recPending) && decide (r.data.lease ≤ now s) then .change else .same
    | none => .same
  | .pendingCleared m =>
    match recOf s m.handle with
    | some r => if r.data.state = recPending then .change else .same
    | none => .same
  | _ => .same

/-! ## The record after a change -/

def leaseBeats (s : State) : Nat := cfld s rFgCfg 11 0

/-- The swap of R163. -/
def swapData (s : State) (d : RecordData) : RecordData :=
  { d with
    lastc := if d.ownerCommitted then d.owner else d.lastc
    owner := d.pending, epoch := d.epoch + 1, lease := now s + leaseBeats s, ownerCommitted := false
    pending := none, proposed := false, claimed := false, state := recOwned }

/-- The new owner of R154. -/
def reassignTo (s : State) (d : RecordData) : Option Nat :=
  match d.pending with
  | some p => if peerUp s p then some p else lastcTo
  | none => lastcTo
where
  lastcTo : Option Nat :=
    match d.lastc with
    | some c => if peerUp s c && d.owner != some c then some c else none
    | none => none

/-- A reassignment made at boundary `b` (R154). -/
def reassignData (s : State) (b : Nat) (d : RecordData) : RecordData :=
  let new := reassignTo s d
  { d with
    epoch := d.epoch + 1, pending := none, proposed := false, claimed := false
    state := if new.isSome then recOwned else recOrphaned
    owner := new, lease := if new.isSome then b + leaseBeats s else d.lease
    lastc := if d.ownerCommitted then d.owner else d.lastc, ownerCommitted := false }

/-- The record as an operation that came at beat `b` leaves it. -/
def dataAfter (s : State) (i : Instr) (b : Nat) (d : RecordData) : RecordData :=
  match i with
  | .renew _ => { d with lease := now s + leaseBeats s }
  | .propose _ t =>
    if d.claimed then swapData s d else { d with pending := some (t.toNat % 2 ^ 14), proposed := true, state := recPending }
  | .claim m _ _ =>
    if d.state = recOrphaned || d.proposed then swapData s { d with pending := some m.src.toNat }
    else { d with pending := some m.src.toNat, claimed := true, state := recPending }
  | .tokens _ first count _ => { d with clenh := first.toNat + count.toNat, ownerCommitted := true }
  | .end_ _ _ => { d with state := recEnding }
  | .leaseReassign _ => if d.epoch = 0xFFFFFFFF then { d with state := recEnding } else reassignData s b d
  | .pendingCleared _ => { d with pending := none, proposed := false, claimed := false, state := recOwned }
  | _ => d

/-- The record a CREATE makes: blocks taken from the prefix table, or from the parent of a fork (R156, R157). One that an acting home
makes is ACTING (R151). -/
def createRec (s : State) (m : FHdr) (client plen maxlen : Nat) (parent : DWord) (tokens : List Word) (hashes : List DWord)
    (replica : Bool) (partner : Nat) : Option (State × HomeRec) :=
  match freeRecIdx s, mainLayout s with
  | some idx, some l =>
    let base : RecordData := {
      handle := m.handle, state := recOwned, client := client, owner := some m.src.toNat, epoch := 1, lease := now s + leaseBeats s
      pending := none, proposed := false, claimed := false, primaryOk := true, mirrorOk := true
      acting := s.forager.acting.contains (hHome m.handle)
      lastc := none, partner := partner, cb := 0, clenh := 0, plen := plen, maxlen := maxlen, ownerCommitted := false }
    if m.fork then
      match recOf s parent with
      | none => none
      | some p =>
        match shareMap s l p p.data.cb with
        | (_, none) => none
        | (s, some map) =>
          some (touchMap (pinLog s m.handle maxlen p.tlog.length) m.handle p.data.cb, {
            idx := idx, replica := replica, tlog := p.tlog, map := map
            data := { base with cb := p.data.cb, clenh := p.data.clenh, plen := p.data.plen } })
    else
      let (s, k, mp) := takePrefix l client s hashes 0 []
      let log := tokens.mapIdx fun i t => (i, t)
      some (touchMap (pinLog s m.handle maxlen tokens.length) m.handle k, {
        idx := idx, replica := replica, tlog := log, map := mp, data := { base with cb := k, clenh := 64 * k } })
  | _, _ => none

/-- The request summary of R437. -/
def summaryOf (d : RecordData) : ReqSummary :=
  { client := BitVec.ofNat 8 d.client, plen := BitVec.ofNat 32 d.plen, maxlen := BitVec.ofNat 32 d.maxlen
    cb := BitVec.ofNat 32 d.cb, clenh := BitVec.ofNat 32 d.clenh, lease := BitVec.ofNat 48 d.lease }

/-- Ids go into a record's token log, whose tiles are written. -/
def writeLog (s : State) (h : DWord) (first : Nat) (ids : List Word) : State :=
  let s := touchOwn s ((Config.tokenLogAt h).toNat + 4 * first) (4 * ids.length)
  recMod s h fun r => { r with tlog := (ids.mapIdx fun i t => (first + i, t)).foldl (fun t p => tset t p.1 p.2) r.tlog }

/-- Where the ids of a TOKENS range stand: those below PLEN are in the log from CREATE (R161). -/
def idsFrom (plen first : Nat) : Nat := max first plen

/-! ## Applying a home operation: the change, its replies and its notices -/

/-- After a swap: GRANT to the new owner, RELEASED to the old, the count and the event. -/
def swapNotices (s : State) (h : DWord) (old : Option Nat) : State :=
  match recOf s h with
  | none => s
  | some r =>
    let s := setEvent (satAdd s rFgHandoffCount 31 0 1) rFgEvent 0
    let s := match r.data.owner with
      | some o => notice s o h noticeGrant r.data.epoch stOk (some (summaryOf r.data))
      | none => s
    match old with
    | some o => notice s o h noticeReleased r.data.epoch stOk none
    | none => s

/-- Applies an operation that came at beat `b`. -/
def applyOp (s : State) (i : Instr) (b : Nat) : State :=
  match i with
  | .create m client plen maxlen parent tokens hashes =>
    let partner := (partnerOf s (nodeNum s)).getD 0
    match createRec s m client.toNat plen.toNat maxlen.toNat parent tokens hashes (hHome m.handle != nodeNum s) partner with
    | none => reply s m.src.toNat m.handle stNoResource (.create 0 0)
    | some (s, r) => reply (recPut s r) m.src.toNat m.handle stOk (.create r.data.cb r.data.lease)
  | .renew m =>
    let s := recMod s m.handle fun r => { r with data := dataAfter s i b r.data }
    reply s m.src.toNat m.handle stOk (.renew (((recOf s m.handle).map fun r => r.data.lease).getD 0))
  | .propose m _ =>
    let old := (recOf s m.handle).bind fun r => r.data.owner
    let swap := ((recOf s m.handle).map fun r => r.data.claimed).getD false
    let s := recMod s m.handle fun r => { r with data := dataAfter s i b r.data }
    let s := reply s m.src.toNat m.handle stOk .propose
    if swap then swapNotices s m.handle old else s
  | .claim m _ _ =>
    let old := (recOf s m.handle).bind fun r => r.data.owner
    let swap := ((recOf s m.handle).map fun r => r.data.state == recOrphaned || r.data.proposed).getD false
    let s := recMod s m.handle fun r => { r with data := dataAfter s i b r.data }
    let s := reply s m.src.toNat m.handle stOk .claim
    if swap then swapNotices s m.handle old else s
  | .tokens m first _ ids =>
    let plen := ((recOf s m.handle).map fun r => r.data.plen).getD 0
    let s := recMod s m.handle fun r => { r with data := dataAfter s i b r.data }
    let s := writeLog s m.handle (idsFrom plen first.toNat) ids
    reply s m.src.toNat m.handle stOk .tokens
  | .end_ m _ => freeRec (reply s m.src.toNat m.handle stOk .end_) m.handle
  | .commit m k _ _ =>
    let froms := ((recOf s m.handle).map fun r => (r.from_.filter fun f => f.1 == k.toNat).map (·.2)).getD []
    let s := commitLocal s m.handle k.toNat
    let cb := ((recOf s m.handle).map fun r => r.data.cb).getD 0
    froms.foldl (fun s n => reply s n m.handle stOk (.commit k.toNat cb)) s
  | .leaseReassign h =>
    match recOf s h with
    | none => s
    | some r =>
      let d := dataAfter s i b r.data
      let s := setEvent (recPut s { r with data := d }) rFgEvent 2
      if r.data.epoch = 0xFFFFFFFF then
        let s := (r.map.map (·.2)).foldl freeRef s
        recMod s h fun r => { r with map := [] }
      else
        let s := satAdd s rFgExpireCount 31 0 1
        let s := match r.data.owner with
          | some o => notice s o h noticeExpired d.epoch stLeaseExpired none
          | none => s
        match d.owner with
        | some o => notice s o h noticeAdopt d.epoch stLeaseExpired (some (summaryOf d))
        | none => s
  | .pendingCleared m =>
    let s := recMod s m.handle fun r => { r with data := dataAfter s i b r.data }
    match (recOf s m.handle).bind fun r => r.data.owner with
    | some o => notice s o m.handle noticeCleared (((recOf s m.handle).map fun r => r.data.epoch).getD 0) stTargetLost none
    | none => s
  | _ => s

/-- The type, sender and reply form of a home message; none for the home's own operations. -/
def opSender (i : Instr) : Option (FHdr × Nat × ReplyTo) :=
  match i with
  | .create m .. => some (m, 1, .create 0 0)
  | .renew m => some (m, 2, .renew 0)
  | .propose m _ => some (m, 3, .propose)
  | .claim m _ _ => some (m, 4, .claim)
  | .tokens m .. => some (m, 6, .tokens)
  | .end_ m _ => some (m, 9, .end_)
  | _ => none

/-- The other copy of this node's records, while it is UP. -/
def otherCopy (s : State) : Option Nat :=
  (partnerOf s (nodeNum s)).bind fun p => if peerUp s p then some p else none

/-- A fork that this copy refuses for want of a reference leaves the refused reference on record (R117, R157). -/
def forkRefused (s : State) (m : FHdr) (parent : DWord) : State :=
  match (if m.fork then recOf s parent else none), mainLayout s with
  | some p, some l => (shareMap s l p p.data.cb).1
  | _, _ => s

/-- Both copies of a record that has answered ST_REQUEST_LOST are FREE (R152, R154). -/
def freeBoth (s : State) (h : DWord) : State :=
  match recOf s h, otherCopy s with
  | some r, some p => freeRec (ask s p h 0 (.replicate (.record r.data [] 0 true)) false true true) h
  | _, _ => freeRec s h

/-- Refuses a home message: counted, recorded, answered. -/
def refuseOp (s : State) (i : Instr) (st : Half) : State :=
  match opSender i with
  | none => s
  | some (m, type, rt) =>
    let s := match i with
      | .create _ _ _ _ parent _ _ => if st == stNoResource && (freeRecIdx s).isSome then forkRefused s m parent else s
      | _ => s
    let s := reply (noteRefusal s type st m.handle) m.src.toNat m.handle st rt
    if st == stRequestLost then freeBoth s m.handle else s

/-- An operation answered without a change. -/
def sameOp (s : State) (i : Instr) : State :=
  match i with
  | .propose m _ => reply s m.src.toNat m.handle stOk .propose
  | .claim m _ _ => reply s m.src.toNat m.handle stOk .claim
  | _ => s

/-! ## FETCH at the home (R162, step 7) -/

/-- The pages of a committed block of a record: layer and group, page number. -/
def recCells (s : State) (r : HomeRec) (b : Nat) (keep : Nat → Bool) : List ((Nat × Nat) × Nat) :=
  match mainLayout s with
  | none => []
  | some l => (blockCells l).filterMap fun c => if keep c.2 then (tget r.map (mapKey l b c.1 c.2)).map fun n => (c, n) else none

/-- The pages of a committed block as REPLICATE and PAGES carry them, each in the size of the layout that wrote it (R135). -/
def recPages (s : State) (r : HomeRec) (b : Nat) (keep : Nat → Bool) : List PageData :=
  (recCells s r b keep).filterMap fun c => (pageOf s c.2).bind fun x => (pageLayout s x).map fun l => {
    block := b, layer := c.1.1, group := c.1.2, data := rangeRead s x.frame (pageData l), poison := rangePoisoned s x.frame (pageData l)
    summary := if x.sumv then some (rangeRead s (sumAt s l c.2) (sumSize l)) else none }

/-- The head groups a member of the owner's group holds, and the blocks (R111). -/
def memberHolds (s : State) (owner node : Nat) (l : Layout) (split : Nat) : Nat → Nat → Bool :=
  let g := groupNodes s owner
  let n := max g.length 1
  let i := (g.findIdx? (· == node)).getD 0
  fun grp b => if split = 0 then grp * n / max (groupsOf l) 1 == i else b / 2 % n == i

/-- FETCH: the pages are pinned while they are sent (R117). -/
def onFetch (s : State) (m : FHdr) (first count : Nat) : State :=
  let src := m.src.toNat
  match r146 s m true, recOf s m.handle with
  | some st, _ =>
    let s := reply (noteRefusal s 7 st m.handle) src m.handle st .fetch
    if st == stRequestLost then freeBoth s m.handle else s
  | none, none => s
  | none, some r =>
    match mainLayout s, s.sched.image with
    | some l, some (im, _) =>
      let holds := memberHolds s (r.data.owner.getD 0) src l im.main.split
      let bs := (List.range (min count (r.data.cb - first))).map (first + ·)
      let ps := bs.flatMap fun b => recPages s r b fun g => holds g b
      let ns := bs.flatMap fun b => (recCells s r b fun g => holds g b).map (·.2)
      let lo := min r.data.plen (64 * r.data.cb)
      let hi := max r.data.clenh r.data.plen
      let e := r.data.epoch
      let s := if ps.isEmpty then s
        else tell s src m.handle e 0 false false (.pagesData (ps.map fun p => { p with summary := none })) ns
      let s := if r.data.owner == some src && decide (lo < hi) then
          tell s src m.handle e 0 false false (.pagesTokens lo ((List.range (hi - lo)).map fun i => tgetD r.tlog (lo + i) 0))
        else s
      let s := if ps.isEmpty then s
        else tell s src m.handle e 0 false false (.pagesSummaries (ps.map fun p => { p with data := [] })) ns
      reply s src m.handle stOk .fetch
    | _, _ => s

/-! ## Replication (R145) -/

/-- What an operation that came at beat `b` sends its mirror. -/
def replicates (s : State) (i : Instr) (b : Nat) (h : DWord) : List ReplData :=
  match i with
  | .create m client plen maxlen parent tokens hashes =>
    let partner := (partnerOf s (nodeNum s)).getD 0
    match createRec s m client.toNat plen.toNat maxlen.toNat parent tokens hashes false partner with
    | some (_, r) => [.record r.data hashes (if m.fork then parent else 0) false, .tokens 0 tokens]
    | none => []
  | .commit _ k _ _ => [.pages [] k.toNat ((recOf s h).bind fun r => tget r.hashes k.toNat)]
  | .tokens _ first _ ids =>
    match recOf s h with
    | some r => [.tokens (idsFrom r.data.plen first.toNat) ids, .record (dataAfter s i b r.data) [] 0 false]
    | none => []
  | .end_ .. =>
    match recOf s h with
    | some r => [.record (dataAfter s i b r.data) [] 0 true]
    | none => []
  | _ =>
    match recOf s h with
    | some r => [.record (dataAfter s i b r.data) [] 0 false]
    | none => []

/-- The handle of a home operation. -/
def opHandle (i : Instr) : DWord :=
  match i with
  | .create m .. => m.handle
  | .renew m => m.handle
  | .propose m _ => m.handle
  | .claim m _ _ => m.handle
  | .tokens m .. => m.handle
  | .end_ m _ => m.handle
  | .commit m .. => m.handle
  | .pendingCleared m => m.handle
  | .fetch m .. => m.handle
  | .query m _ => m.handle
  | .leaseReassign h => h
  | _ => 0

/-- Changes the first operation of a handle: the one at work, the others of its handle wait behind it. -/
def changeFirst (h : DWord) (f : HomeOp → HomeOp) : List HomeOp → List HomeOp
  | [] => []
  | o :: os => if o.handle == h then f o :: os else o :: changeFirst h f os

def opSet (s : State) (h : DWord) (f : HomeOp → HomeOp) : State :=
  { s with forager := { s.forager with homeOps := changeFirst h f s.forager.homeOps } }
def opDrop (s : State) (i : Instr) : State :=
  { s with forager := { s.forager with homeOps := removeFirst (fun o => o.msg == i) s.forager.homeOps } }

/-- Refuses a COMMIT (R160). -/
def refuseCommit (s : State) (m : FHdr) (b : Nat) (st : Half) : State :=
  let s := reply (noteRefusal s 5 st m.handle) m.src.toNat m.handle st (.commit b 0)
  if st == stRequestLost then freeBoth s m.handle else s

/-- Places a member's COMMIT at a copy of the record; false where it is refused (R146, R160). -/
def placeCommit (s : State) (m : FHdr) (b : Nat) (hash : DWord) (ps : List PageData) : State × Bool :=
  match r146 s m true, recOf s m.handle with
  | some st, _ => (refuseCommit s m b st, false)
  | none, none => (s, false)
  | none, some r =>
    if b < r.data.cb || r.done.contains b || r.from_.contains (b, m.src.toNat) then (refuseCommit s m b stDuplicateDropped, false)
    else
      match (if cget s rFgPfxCount = 0 then none else placePages s r.data.client ps) with
      | none => (refuseCommit (setEvent s rKvEvent 4) m b stNoResource, false)
      | some (pages, s) =>
        (recMod s m.handle fun r => { r with
          placed := tset r.placed b (tgetD r.placed b [] ++ pages), from_ := r.from_ ++ [(b, m.src.toNat)]
          hashes := if m.hashv then tset r.hashes b hash else r.hashes }, true)

/-- QUERY for a handle (R144, R166). -/
def answerQuery (s : State) (m : FHdr) : State :=
  match recOf s m.handle with
  | some r => reply s m.src.toNat m.handle stOk (.query (some r.data))
  | none => reply s m.src.toNat m.handle stBadField (.query none)

/-- What the first operation of a handle comes to: done at once, or the verdict on the change it asks for. A COMMIT that brings the last
page of its block is the change that commits the block. -/
def serveOp (s : State) (i : Instr) : State × Option Verdict :=
  match i with
  | .fetch m f n => (onFetch s m f.toNat n.toNat, none)
  | .query m _ => (answerQuery s m, none)
  | .commit m b hash ps =>
    match placeCommit s m b.toNat hash ps with
    | (s, true) =>
      let whole := ((recOf s m.handle).map fun r => blockPlaced s r b.toNat).getD false
      (s, if whole then some .change else none)
    | (s, false) => (s, none)
  | i => (s, some (judge s i))

/-- Starts the first queued operation of a handle, and on to the next while they finish at once: a change waits for the mirror's
acknowledgement while the mirror is UP (R137, R145). -/
def pumpOps (h : DWord) : Nat → State → State
  | 0, s => s
  | n + 1, s =>
    match s.forager.homeOps.find? (fun o => o.handle == h) with
    | none => s
    | some o =>
      if o.sent then s
      else
        match serveOp s o.msg with
        | (s, none) => pumpOps h n (opDrop s o.msg)
        | (s, some (.refuse st)) => pumpOps h n (refuseOp (opDrop s o.msg) o.msg st)
        | (s, some .same) => pumpOps h n (sameOp (opDrop s o.msg) o.msg)
        | (s, some .change) =>
          match otherCopy s with
          | none => pumpOps h n (applyOp (opDrop s o.msg) o.msg o.came)
          | some p =>
            let rs := replicates s o.msg o.came h
            let carried := rs.findSome? fun d => match d with
              | .record r _ _ false => some r
              | _ => none
            let s := opSet s h fun x => { x with sent := true, acks := rs.length, carried := carried }
            rs.foldl (fun s d => ask s p h 0 (.replicate d) false true) s

def pumpHome (s : State) (h : DWord) : State := pumpOps h (s.forager.homeOps.length + 1) s

/-- A home operation arrives, after those of its handle that came before it. -/
def homeOp (s : State) (i : Instr) : State :=
  let h := opHandle i
  pumpHome { s with forager := { s.forager with
    homeOps := s.forager.homeOps ++ [{ handle := h, msg := i, came := now s }] } } h

/-- The replica gets the record as the change left it, where the REPLICATE carried other values. DEDUCED (log 45): the lease, and the M of
a CREATE, are those of the beat in which the home applies the change, and R145 has that beat known only by the acknowledgement. -/
def followUp (s : State) (o : HomeOp) : State :=
  match o.carried, recOf s o.handle, otherCopy s with
  | some d, some r, some p => if d == r.data then s else ask s p o.handle 0 (.replicate (.record r.data [] 0 false)) false true true
  | _, _, _ => s

/-- The operation whose REPLICATEs are out is applied, judged as the records now stand. -/
def finishOp (s : State) (o : HomeOp) : State :=
  let s := opDrop s o.msg
  let s := match judge s o.msg with
    | .refuse st => refuseOp s o.msg st
    | .same => sameOp s o.msg
    | .change => followUp (applyOp s o.msg o.came) o
  pumpHome s o.handle

/-- The mirror has answered one REPLICATE of a handle. -/
def ackOp (s : State) (h : DWord) (st : Half) : State :=
  match s.forager.homeOps.find? (fun o => o.handle == h && o.sent) with
  | none => s
  | some o =>
    if st != stOk && st != stDuplicateDropped then pumpHome (refuseOp (opDrop s o.msg) o.msg st) h
    else if o.acks ≤ 1 then finishOp s o
    else opSet s h fun x => { x with acks := x.acks - 1 }

/-! ## A COMMIT at either copy (R160) -/

/-- Acknowledgements of block commits that waited for this mirror's own pages. -/
def releaseAcks (s : State) (h : DWord) (b : Nat) : State :=
  match s.forager.ackWaits.find? (fun a => a.1 == h && a.2.1 == b), recOf s h with
  | some a, some r =>
    if blockPlaced s r b then
      let s := commitLocal s h b
      reply { s with forager := { s.forager with ackWaits := s.forager.ackWaits.filter fun x => x != a } } a.2.2 h stOk .replicate
    else s
  | _, _ => s

/-- A member's COMMIT arrives at a copy of the record: at the home in the order of its handle's operations (R137). -/
def onCommit (s : State) (m : FHdr) (b : Nat) (hash : DWord) (ps : List PageData) : State :=
  if servesHome s m.handle then homeOp s (.commit m (BitVec.ofNat 32 b) hash ps)
  else
    match placeCommit s m b hash ps with
    | (s, true) => releaseAcks (reply s m.src.toNat m.handle stOk (.commit b 0)) m.handle b
    | (s, false) => s

/-! ## The mirror and the spare (R145, R164) -/

def onReplicate (s : State) (m : FHdr) (d : ReplData) : State :=
  let src := m.src.toNat
  let ack := fun s => reply s src m.handle stOk .replicate
  match d with
  | .record r hashes parent free =>
    if free then ack (freeRec s m.handle)
    else
      match recOf s m.handle with
      | some x => ack (recPut s { x with data := r })
      | none =>
        let hdr : FHdr := { m with src := BitVec.ofNat 14 (r.owner.getD 0), fork := parent != 0 }
        match createRec s hdr r.client r.plen r.maxlen parent [] hashes (hHome m.handle != nodeNum s) (r.partner) with
        | none => reply (forkRefused s hdr parent) src m.handle stNoResource .replicate
        | some (s, x) => ack (recPut s { x with data := r })
  | .tokens first ids => ack (writeLog s m.handle first ids)
  | .pages ps b hash =>
    let s := match hash with
      | some k => recMod s m.handle fun r => { r with hashes := tset r.hashes b k }
      | none => s
    if ps.isEmpty then
      match recOf s m.handle with
      | none => ack s
      | some r =>
        if blockPlaced s r b then ack (commitLocal s m.handle b)
        else { s with forager := { s.forager with ackWaits := s.forager.ackWaits ++ [(m.handle, b, src)] } }
    else
      match (recOf s m.handle).bind fun r => placePages s r.data.client ps with
      | none => reply (setEvent s rKvEvent 4) src m.handle stNoResource .replicate
      | some (pages, s) =>
        let s := recMod s m.handle fun r => { r with placed := tset r.placed b (tgetD r.placed b [] ++ pages) }
        let cb := ((recOf s m.handle).map fun r => r.data.cb).getD 0
        let s := commitLocal s m.handle b
        ack (recMod s m.handle fun r => { r with data := { r.data with cb := max cb r.data.cb } })

/-- The hash of a committed block, from the token ids of its record's log (R147). -/
def recHash (s : State) (r : HomeRec) (b : Nat) : Option DWord :=
  (chainHashes (hashKey s) (b + 1) (BitVec.ofNat 64 r.data.client)
    ((List.range (64 * (b + 1))).map fun i => (tgetD r.tlog i 0).toNat)).getLast?

/-- The survivor sends a spare everything the pair shares (R164), the pages pinned while they are sent (R117). -/
def resilver (s : State) (n : Nat) : State :=
  s.forager.recs.foldl (fun s r =>
    let h := r.data.handle
    let s := tell s n h 0 0 false false (.replicate (.record r.data [] 0 false))
    let s := tell s n h 0 0 false false (.replicate (.tokens 0 (r.tlog.map (·.2))))
    (List.range r.data.cb).foldl (fun s b =>
      tell s n h 0 0 false false (.replicate (.pages (recPages s r b fun _ => true) b (recHash s r b)))
        ((recCells s r b fun _ => true).map (·.2))) s)
    { s with forager := { s.forager with resilver := insertNat n s.forager.resilver } }

/-- Resilvering to node `n` is complete; on the spare, to itself (R164). -/
def resilverDone (s : State) (n : Nat) : State :=
  if s.forager.resilver.contains n || (s.forager.spareOf && n == nodeNum s) then
    setEvent { s with forager := { s.forager with
      resilver := s.forager.resilver.filter (· != n), resilvered := insertNat n s.forager.resilvered } } rFgEvent 5
  else s

/-- At the boundary after completion both copies are whole, and home duty is with the home's node number again. -/
def returnDuty (s : State) : State :=
  if s.forager.resilvered.isEmpty then s
  else
    { s with forager := { s.forager with
        resilvered := []
        spareOf := s.forager.spareOf && !s.forager.resilvered.contains (nodeNum s)
        acting := s.forager.acting.filter fun n => !s.forager.resilvered.contains n
        recs := s.forager.recs.map fun r => { r with data := { r.data with primaryOk := true, mirrorOk := true, acting := false } } } }

/-- The partner of a lost home begins to act (R164). -/
def beginActing (s : State) : State :=
  if s.forager.actingNext.isEmpty then s
  else
    let ns := s.forager.actingNext
    let s := { s with forager := { s.forager with
      actingNext := [], acting := ns.foldl (fun a n => insertNat n a) s.forager.acting
      recs := s.forager.recs.map fun r =>
        if ns.contains (hHome r.data.handle) then { r with data := { r.data with acting := true, primaryOk := false } } else r } }
    setEvent s rFgEvent 6

/-! ## A lost peer (R140, R164) -/

/-- The other copy of the home that a message was addressed to. -/
def altDest (s : State) (a : Asked) : Option Nat :=
  (partnerOf s a.dst).bind fun p => if peerUp s p then some p else none

/-- Ends a QUERY or lookup command that nobody can answer. -/
def loseQuery (s : State) (h : DWord) (st : Half) : State :=
  match s.forager.queries.find? (fun q => q.2.1 == h) with
  | none => s
  | some q =>
    refuseCmd { s with forager := { s.forager with queries := removeFirst (fun x => x == q) s.forager.queries } } q.1 st

/-- A query that was put to one node is put to another. -/
def moveQuery (s : State) (h : DWord) (old new : Nat) : State :=
  let f := fun (l : List (Nat × DWord × Nat × Nat)) => match l.find? (fun q => q.2.1 == h && q.2.2.1 == old) with
    | some q => removeFirst (fun x => x == q) l ++ [(q.1, h, new, q.2.2.2)]
    | none => l
  { s with forager := { s.forager with queries := f s.forager.queries } }

/-- A message whose addressee is lost or refuses it with ST_NOT_HOME: redirected to the other copy of the home, or its effect on this node. -/
def redirect (s : State) (a : Asked) : State :=
  match a.body with
  | .replicate _ => if a.follow then s else ackOp s a.handle stOk
  | .commit b _ _ =>
    if a.mirror then commitDone s a.handle b true
    else
      match altDest s a with
      | some d =>
        let waiting := ((descOf s a.handle).map fun d => d.commits.any fun c => c.1 == b && c.2.2).getD false
        if waiting then commitDone (descMod s a.handle fun d => { d with
            commits := d.commits.map fun c => if c.1 = b then (b, c.2.2, c.2.1) else c }) a.handle b true
        else if (descOf s a.handle).isSome then ask s d a.handle a.epoch a.body else s
      | none => s
  | .query => match altDest s a with
    | some d => ask s d a.handle a.epoch a.body
    | none => loseQuery s a.handle stRequestLost
  | .lookup .. => match altDest s a with
    | some d => ask (moveQuery s a.handle a.dst d) d a.handle a.epoch a.body
    | none => loseQuery s a.handle stWrongRole
  | _ =>
    match altDest s a with
    | some d => ask s d a.handle a.epoch a.body a.fork
    | none => loseDesc s a.handle

/-- A peer becomes DOWN or STALE. -/
def peerLost (s : State) (n : Nat) (st : PeerState) : State :=
  match peerOf s n with
  | none => s
  | some p =>
    if p.state != .up then s
    else
      let s := setPeer s n st
      let gone := s.forager.asked.filter fun a => a.dst == n
      let s := { s with forager := { s.forager with asked := s.forager.asked.filter fun a => a.dst != n } }
      let s := dropSends s fun t => t.forager && t.node == n
      -- this node's partner is lost: as home it runs on one copy, as mirror it acts from the next boundary
      let mine := partnerOf s (nodeNum s) == some n && s.boot.role == roleCache
      let s := if mine then
          let s := { s with forager := { s.forager with
            recs := s.forager.recs.map fun r =>
              if hHome r.data.handle == nodeNum s then { r with data := { r.data with mirrorOk := false } } else r
            actingNext := insertNat n s.forager.actingNext
            resilver := s.forager.resilver.filter (· != n) } }
          setEvent s rFgEvent 7
        else s
      let s := gone.foldl redirect s
      -- handoffs to the lost node are cleared
      let s := (s.forager.recs.filter fun r => servesHome s r.data.handle && r.data.state == recPending && r.data.pending == some n).foldl
        (fun s r => homeOp s (.pendingCleared {
          src := 0, roleEpoch := 0, handle := r.data.handle, epoch := 0, status := 0, hashv := false, fork := false
          notBefore := 0, deadline := 0, resv := false })) s
      -- requests whose home copies are both lost end here
      (s.forager.descs.filter fun d => (homeDest s d.handle).isNone).foldl (fun s d => loseDesc s d.handle) s

/-- A spare is brought in under a lost node's number (R140, R164). -/
def peerBack (s : State) (n : Nat) (roleEpoch : Word) : State :=
  if n == nodeNum s then
    if s.boot.role == roleCache && jobStarted s then { s with forager := { s.forager with spareOf := true } } else s
  else
    match peerOf s n with
    | none => s
    | some p =>
      let s := { s with forager := { s.forager with
        peers := s.forager.peers.map fun q =>
          if q.entry.node == n then { entry := { q.entry with roleEpoch := roleEpoch.toNat }, state := .up } else q
        actingNext := s.forager.actingNext } }
      if p.state != .up && partnerOf s (nodeNum s) == some n && s.boot.role == roleCache then resilver s n else s

/-! ## How transfers of messages end (R294) -/

/-- The outcome of a message's transfer. -/
def settleForager (s : State) (t : SendTx) (st : Half) : State :=
  let h := (t.msg.map fun m => m.1.handle).getD 0
  let type := (t.msg.map fun m => bodyType m.2).getD 0
  let drop := fun (s : State) => dropSends s fun x => x.tag == t.tag
  if st == stOk || st == stDuplicateDropped || st == stStaleGeneration || st == stPoisoned then
    let gen := if t.gen + 1 < 2 ^ 32 then t.gen + 1 else 1
    let s := { s with forager := { s.forager with gens := tset s.forager.gens (t.node * 1024 + t.slot) gen } }
    if t.part + 1 < (t.msg.map fun m => messageParts m.1 m.2).getD 1 then
      let s := sendMod s t.tag fun t => { t with part := t.part + 1, gen := gen, attempts := 0, checks := 0, last := none }
      match s.remote.sends.find? (fun x => x.tag == t.tag) with
      | some t => attemptSend s t
      | none => s
    else startForagerTo (drop s) t.node
  else if st == stNoBuffer || st == stNoResource then
    sendMod s t.tag fun t => { t with inFlight := false, attempts := t.attempts - 1, last := none, until_ := 0, checks := 0 }
  else if st == stCheckMismatch then
    if cfld s rFgCfg 19 16 ≤ t.checks then peerLost s t.node .down
    else
      let s := sendMod s t.tag fun t => { t with checks := t.checks + 1, attempts := t.attempts - 1 }
      match s.remote.sends.find? (fun x => x.tag == t.tag) with
      | some t => attemptSend s t
      | none => s
  else if st == stTargetLost then peerLost s t.node .down
  else startForagerTo (fgError (drop s) type st h) t.node

/-- A FLUSH_RESP for a message's transfer; the answer says whether there was one. -/
def foragerAnswer (s : State) (p : Packet) : State × Bool :=
  match s.remote.sends.find? (fun t => t.forager && t.inFlight && t.tag % 2 ^ 32 == p.tag.toNat && t.node == p.src.toNat) with
  | none => (s, false)
  | some t =>
    let st : Half := BitVec.ofNat 16 p.aux.toNat
    if checkWord t.key p != p.echk || (openPacket s p).isNone then (s, true)
    else if settles true st || st == stNoBuffer || st == stNoResource then (settleForager (noteAnswer s st) t st, true)
    else (sendMod s t.tag fun t => { t with last := some st }, true)

/-- A RETURN with ST_BAD_FIELD settles a message's transfer, which fails (R290, R294). -/
def foragerReturn (s : State) (p : Packet) : State :=
  let tag := leNat ((p.payload.drop 16).take 4)
  let type := leNat (p.payload.take 1)
  match s.remote.sends.find? (fun t => t.forager && t.inFlight && t.tag % 2 ^ 32 == tag) with
  | some t => if (type = 4 || type = 6) && p.aux.toNat = stBadField.toNat then settleForager s t stBadField else s
  | none => s

/-- Message transfers at a boundary: resends, and attempts that are over. -/
def foragerSends (s : State) : State :=
  (s.remote.sends.filter fun t => t.forager).foldl (fun s t0 =>
    match s.remote.sends.find? (fun t => t.tag == t0.tag) with
    | none => s
    | some t =>
      if sendLate s t then s
      else if !t.inFlight then
        (match freeSlotAt s t.node with
          | some k =>
            let s := sendMod s t.tag fun t => { t with slot := k, gen := nextGen s t.node k }
            (match s.remote.sends.find? (fun x => x.tag == t.tag) with
              | some t => attemptSend s t
              | none => s)
          | none => s)
      else if attemptOver s t.until_ t.last then
        if t.attempts ≤ cfld s rRaCfg 11 8 then attemptSend s t else settleForager s t (t.last.getD stTargetLost)
      else s) s

end Sys2Proof.Machine
end

