-- ==== Sys2Proof/Machine/Lens.lean ====
section
/-!
DEFINITION. The lens (spec/08_decode_path.md): grammar slots and banks (R182–R191), the sampling setup (R172), lens requests (R173–R175),
drafts and verification (R177–R180), what a step's end commits and logs (R129, R161, R438), the fallback (R193).
-/

namespace Sys2Proof.Machine

/-! ## Grammar slots and banks (R184–R187, R189) -/

def gslotOf (s : State) (j : Nat) : GSlot := tgetD s.lens.slots j {}
def gslotSet (s : State) (j : Nat) (g : GSlot) : State :=
  { s with lens := { s.lens with slots := tsetD s.lens.slots j g {} } }
def lensOn (s : State) : Bool := s.power.ready.getLsbD 46

def bankBits (bs : List Nat) : BitVec 64 := bs.foldl (fun m b => m ||| BitVec.ofNat 64 (2 ^ b)) 0

/-- The automaton a slot holds. -/
def slotAutomaton (s : State) (g : GSlot) : Automaton :=
  let entry := fun i => (tgetD s.lens.store (g.banks.getD (i / 32768) 0 * 32768 + i % 32768) 0).toNat
  { nstates := g.nstates, nranges := g.nranges, stateE := entry, rangeE := fun i => entry (g.nstates + i) }

/-- A slot becomes FREE: its banks are released and its entries are gone; a pending load and pending retirements end with the
statuses given (R185). -/
def freeGrammar (s : State) (j : Nat) (loadSt retireSt : Half) : State :=
  let g := gslotOf s j
  let s := if g.cmd = 0 then s else finishCmd s g.cmd loadSt 0
  let s := g.retires.foldl (fun s c => finishCmd s c retireSt 0) s
  { gslotSet s j {} with lens := { (gslotSet s j {}).lens with
      store := s.lens.store.filter fun e => !g.banks.contains (e.1 / 32768) } }

/-- Slots at a boundary, step 1 of R28. -/
def grammarBoundary (s : State) : State :=
  s.lens.slots.foldl (fun s e =>
    let g := gslotOf s e.1
    match g.state with
    | .loading =>
      if g.copied then finishCmd (gslotSet s e.1 { g with state := .live, cmd := 0 }) g.cmd stOk 0 else s
    | .retiring => if g.refs.isEmpty then freeGrammar s e.1 stOk stOk else s
    | .failed => if g.refs.isEmpty then freeGrammar s e.1 stOk stOk else s
    | _ => s) s

/-- A slot whose grammar a running step or a queued sampling references (R189). -/
def grammarLive (s : State) (j : Nat) : Bool :=
  let uses := fun (h : DWord) => ((descOf s h).map fun d => d.gslot == some j).getD false
  s.sched.steps.any (fun x => uses x.handle) ||
  s.lens.queue.any fun q => uses (BitVec.ofNat 64 (leNat ((vregBytes q.bytes).take 8)))

/-- Banks at a boundary: those of live grammars active, the others in retention. -/
def bankBoundary (s : State) : State :=
  let on := s.lens.slots.foldl (fun m e => if grammarLive s e.1 then m ||| bankBits e.2.banks else m) (0 : BitVec 64)
  { s with lens := { s.lens with on := on, searchable := s.lens.searchable &&& on } }

/-- The banks of the grammar a placed step references become active. -/
def activateBanks (s : State) (j : Nat) : State := { s with lens := { s.lens with on := s.lens.on ||| bankBits (gslotOf s j).banks } }

/-- A bank leaving retention can be searched 400 ns after the boundary. -/
def bankSearchable (s : State) (b : Nat) : State :=
  if s.lens.on.getLsbD b then { s with lens := { s.lens with searchable := s.lens.searchable ||| BitVec.ofNat 64 (2 ^ b) } } else s

/-- Offset of the shadow of store entry `i`, counted over the banks (R184). -/
def shadowAt (s : State) (i : Nat) : Nat := cbase s rLnShadowBaseLo rLnShadowBaseHi + 8 * i
/-- The shadow of a store entry, and whether its line is poisoned. -/
def shadowOf (s : State) (i : Nat) : DWord := BitVec.ofNat 64 (rangeNat s (shadowAt s i) 8)
def shadowBad (s : State) (i : Nat) : Bool := linePoisoned s (lineOf (shadowAt s i))
/-- A store entry that a grammar has written differs from its shadow. -/
def entryDiffers (s : State) (i : Nat) : Bool := ((tget s.lens.store i).map fun v => v != shadowOf s i).getD false
/-- Rewrites a store entry from its shadow. -/
def repairEntry (s : State) (i : Nat) : State :=
  { s with lens := { s.lens with store := tset s.lens.store i (shadowOf s i) } }

/-- A bank failed for good, or a shadow line is poisoned (R191): slot FAILED, banks marked, the hard event. -/
def failBanks (s : State) (j : Nat) (banks : List Nat) (poisoned : Bool) : State :=
  let g := gslotOf s j
  let s := gslotSet s j { g with state := .failed, poisoned := poisoned }
  if poisoned then s
  else
    let s := setEvent { s with lens := { s.lens with failed := s.lens.failed ||| bankBits banks } } rLnEvent 2
    let s := event s { sev := sevFault, src := srcLens, status := stLensMismatch, loc := 0x400 + ((sortBy id banks).head?).getD 0 }
    hardEvent s 4

/-- The LIVE or RETIRING slot that holds a bank. -/
def slotOfBank (s : State) (b : Nat) : Option Nat :=
  (s.lens.slots.find? fun e => (e.2.state == .live || e.2.state == .retiring) && e.2.banks.contains b).map (·.1)

/-- The sweep compares one entry of an active bank, `upset` where the store no longer holds what was written (R190); a poisoned shadow
line fails the slot (R185). -/
def sweepBank (i : Nat) (upset : Bool) (s : State) (b : Nat) : State :=
  let k := b * 32768 + i
  if shadowBad s k then ((slotOfBank s b).map fun j => failBanks s j [] true).getD s
  else if entryDiffers s k || upset then
    event (setEvent (satAdd (repairEntry s k) rLnShadowCount 31 16 1) rLnEvent 0) { sev := sevCorrected, src := srcLens, loc := 0x400 + b } 1
  else s

/-- One hclk of the sweep over the active banks (R190). -/
def shadowSweep (s : State) (upsets : List (Fin 64 × Fin 32768)) : State :=
  if cfld s rLnCfg 0 0 = 0 then s
  else
    let i := s.lens.sweep
    let s := ((List.range 64).filter s.lens.on.getLsbD).foldl (fun s b =>
      sweepBank i (upsets.any fun d => d.1.val == b && d.2.val == i) s b) s
    { s with lens := { s.lens with sweep := (i + 1) % 32768 } }

/-- A grammar image's payload (R182). -/
def gHeader (bs : List Byte) (o n : Nat) : Nat := leNat ((bs.drop o).take n)

/-- The row of R184 that refuses a verified grammar image, with the banks it would take. -/
def grammarCheck (s : State) (slot : Nat) (bs : List Byte) : Half ⊕ List Nat :=
  let id := gHeader bs 0 2
  let ns := gHeader bs 4 4
  let nr := gHeader bs 8 4
  let st := fun i => gHeader bs (32 + 8 * i) 8
  let rg := fun i => gHeader bs (32 + 8 * ns + 8 * i) 8
  let a : Automaton := { nstates := ns, nranges := nr, stateE := st, rangeE := rg }
  let headResv := gHeader bs 2 2 != 0 || gHeader bs 16 16 != 0
  let states := List.range ns
  let g := gslotOf s slot
  let used := (s.lens.slots.filter fun e => e.1 != slot).flatMap fun e => e.2.banks
  let free := (List.range 64).filter fun b => !used.contains b && !s.lens.failed.getLsbD b
  let need := (ns + nr + 32767) / 32768
  if ns = 0 then .inl stBadLength
  else if headResv || id == 0 || 7 < slot || 65536 < ns || decide (2097152 < nr + ns) || gHeader bs 12 4 != s.lens.vocab ||
      s.lens.slots.any (fun e => e.1 != slot && e.2.state != .free && e.2.id == id) ||
      states.any (fun i => bits (st i) 63 49 != 0) || (List.range nr).any (fun i => bits (rg i) 63 61 != 0) then .inl stBadField
  else if states.any (fun i => decide (nr < bits (st i) 31 0 + bits (st i) 47 32) || decide (2048 < bits (st i) 47 32)) ||
      (List.range nr).any (fun i => decide (rHi (rg i) < rLo (rg i)) || decide (s.lens.vocab ≤ rHi (rg i)) || decide (ns ≤ rNext (rg i))) then
    .inl stBadField
  else if states.any (fun i =>
      let rs := a.ranges i
      (List.range rs.length).any fun x => (List.range x).any fun y =>
        let p := rs.getD x 0
        let q := rs.getD y 0
        rPrio p == rPrio q && decide (rLo p ≤ rHi q) && decide (rLo q ≤ rHi p)) then .inl stBadField
  else if states.any (fun i => !gAccept (st i) && (a.mask 0xFFFFFFFF i s.lens.vocab).isEmpty) then .inl stBadField
  else if g.state == .loading || g.state == .retiring || g.state == .failed || (g.state == .live && !g.refs.isEmpty) then
    .inl stBusyReferenced
  else if free.length < need then .inl stNoResource
  else .inr (free.take need)

/-- An accepted grammar image: the slot enters LOADING and the entries are written to banks and shadow (R184). -/
def acceptGrammar (s : State) (cmd slot : Nat) (bs : List Byte) : State :=
  match grammarCheck s slot bs with
  | .inl st => refuseCmd s cmd st
  | .inr banks =>
    let ns := gHeader bs 4 4
    let nr := gHeader bs 8 4
    let s := freeGrammar s slot stBusyReferenced stOk
    let base := cbase s rLnShadowBaseLo rLnShadowBaseHi
    let s := (List.range (ns + nr)).foldl (fun s i =>
      let e := gHeader bs (32 + 8 * i) 8
      let b := banks.getD (i / 32768) 0
      let s := { s with lens := { s.lens with store := tset s.lens.store (b * 32768 + i % 32768) (BitVec.ofNat 64 e) } }
      rangePut s (base + b * 262144 + 8 * (i % 32768)) (leBytes 8 e)) s
    gslotSet s slot { state := .loading, id := gHeader bs 0 2, nstates := ns, nranges := nr, banks := banks, cmd := cmd }

def grammarCopied (s : State) (slot : Nat) : State :=
  let g := gslotOf s slot
  if g.state == .loading then gslotSet s slot { g with copied := true } else s

/-- OP_RETIRE_GRAMMAR (R187). -/
def opRetireGrammar (s : State) (cmd fn id : Nat) : State :=
  if !lensOn s then finishCmd s cmd stOkNoop 0
  else if modelOwner s != some fn then refuseCmd s cmd stClientMismatch
  else if id = 0 then refuseCmd s cmd stBadField
  else
    match s.lens.slots.find? (fun e => e.2.id == id && e.2.state != .free) with
    | none => finishCmd s cmd stOkNoop 0
    | some (j, g) =>
      match g.state with
      | .loading => refuseCmd s cmd stBusyReferenced
      | .live => gslotSet s j { g with state := .retiring, retires := g.retires ++ [cmd] }
      | _ => finishCmd s cmd stOkNoop 0

/-! ## The sampling block (R171, R172) -/

def lensError (s : State) (kind : Nat) (st : Half) (h : DWord) : State :=
  (errRecord s rLnErr (kind % 4 * 2 ^ 16 + st.toNat) [(rLnErrHandleLo, h.toNat % 2 ^ 32), (rLnErrHandleHi, h.toNat / 2 ^ 32)]).1

def sbGet (s : State) (d : Desc) (o n : Nat) : Nat := rangeNat s (d.sample + o) n
def sbPut (s : State) (d : Desc) (o n v : Nat) : State := rangePut s (d.sample + o) (leBytes n v)
/-- A field of the 64 bytes that the accepted setup read. -/
def setupF (d : Desc) (o n : Nat) : Nat := leNat ((d.setup.drop o).take n)

def samplerOf (d : Desc) : Sampler :=
  { sample := setupF d 0 1 % 4 == 1, topk := setupF d 2 2, temp := setupF d 4 4, topp := setupF d 8 4, seed := setupF d 12 8
    handle := d.handle, eos := setupF d 28 4 }

/-- The largest DRAFT_SLOTS of the image's generation slots, 32 where it has none (R172). -/
def maxDraftSlots (s : State) : Nat :=
  match s.sched.image with
  | none => 32
  | some (im, _) =>
    let ds := im.entries.filterMap fun e => match e.kind with
      | .slot true _ _ ds _ => some ds
      | _ => none
    if ds.isEmpty then 32 else ds.foldl max 0

/-- TEMP lies in [2^−16, 256], TOPP in (0, 1]. -/
def tempOk (t : Nat) : Bool :=
  let v := fp32.decode t
  !v.isNan && !Fp.lt v (.fin false 1 (-16)) && !Fp.lt (.fin false 256 0) v
def toppOk (t : Nat) : Bool :=
  let v := fp32.decode t
  !v.isNan && Fp.lt (.fin false 0 0) v && !Fp.lt (.fin false 1 0) v

/-- The status of R172 for the first 64 bytes, with the grammar slot the block names. -/
def setupStatus (s : State) (bs : List Byte) : Half × Option Nat :=
  let f := fun o n => leNat ((bs.drop o).take n)
  let mode := f 0 1
  let gid := f 20 2
  let slot := s.lens.slots.find? fun e => e.2.id == gid && e.2.state == .live
  if 2 ≤ mode || f 22 2 != 0 || f 36 28 != 0 || 1024 < f 2 2 || maxDraftSlots s < f 1 1 ||
      (f 28 4 != 0xFFFFFFFF && decide (s.lens.vocab ≤ f 28 4)) then (stBadField, none)
  else if (mode == 1 && !tempOk (f 4 4)) || !toppOk (f 8 4) then (stBadField, none)
  else if gid = 0 then (stOk, none)
  else
    match slot with
    | none => (stGrammarAbsent, none)
    | some (j, g) => if g.nstates ≤ f 24 4 then (stBadField, none) else (stOk, some j)

/-- The grammar state after the logged generated tokens and the input token; none where one is not allowed (R188). -/
def replay (s : State) (d : Desc) (a : Automaton) (eos start : Nat) : Option Nat :=
  if d.clen < d.plen then some start
  else (List.range (d.clen + 1 - d.plen)).foldl (fun g i => g.bind fun g => a.next eos g (tokenAt s d (d.plen + i))) (some start)

/-- The request's sampling setup on this node. The status of a setup that failed ends the step without committing (R172). -/
def samplingSetup (s : State) (h : DWord) : State × Option Half :=
  match descOf s h with
  | none => (s, none)
  | some d =>
    if !d.setup.isEmpty then (s, if d.dead then some stLensMismatch else none)
    else
      let bs := rangeRead s d.sample 64
      let (st, slot) := setupStatus s bs
      if st != stOk then (s, some st)
      else
        let f := fun o n => leNat ((bs.drop o).take n)
        let s := match slot with
          | some j => gslotSet s j { gslotOf s j with refs := (gslotOf s j).refs ++ [h] }
          | none => s
        let g := match slot with
          | some j => replay s d (slotAutomaton s (gslotOf s j)) (f 28 4) (f 24 4)
          | none => some 0
        let s := descMod s h fun d => { d with setup := bs, gslot := slot, dead := g.isNone }
        let s := sbPut s d 64 4 (g.getD (f 24 4))
        let s := sbPut s d 68 4 (if d.plen ≤ d.clen then d.clen + 1 - d.plen else 0)
        let s := sbPut (sbPut (sbPut s d 72 1 (f 1 1)) d 73 1 0) d 74 6 0
        (s, if g.isNone then some stLensMismatch else none)

/-- Tokens the request may still generate under MAX_NEW; none for no limit. -/
def remaining (s : State) (d : Desc) : Option Nat :=
  if setupF d 32 4 = 0 then none else some (setupF d 32 4 - sbGet s d 68 4)

/-- The draft length of a step that starts, written to DSTEP; DCUR returns to DRAFT_MAX when RETRY is reached (R177, R180). -/
def fixDraft (s : State) (h : DWord) (start draftSlots : Nat) (failed : Bool) : State × Nat :=
  match descOf s h with
  | none => (s, 0)
  | some d =>
    if failed then (sbPut s d 80 1 0, 0)
    else
      let retry := sbGet s d 74 6
      let s := if retry != 0 && decide (retry ≤ start) then sbPut (sbPut s d 72 1 (setupF d 1 1)) d 74 6 0 else s
      let r := match remaining s d with
        | some r => r - 1
        | none => 32
      let n := min (min (sbGet s d 72 1) draftSlots) (min (d.maxlen - d.clen - 2) r)
      (sbPut s d 80 1 n, n)

/-! ## What a step logs and commits (R129, R161, R438) -/

/-- Positions whose entries a descriptor commits: CLEN and SLEN move on, the pages of whole blocks become FULL and are sent. -/
def advance (s : State) (h : DWord) (clen : Nat) : State :=
  match descOf s h with
  | none => s
  | some d =>
    let s := descMod s h fun d => { d with clen := clen, slen := clen }
    let s := match descLayout s d with
      | some l => fillBlocks s l d.map d.clen clen
      | none => s
    commitBlocks s h d.clen clen

/-- Every layer of the step has been written and staged, and no stage is left (R121). -/
def stepWritten (s : State) (x : Step) : Bool :=
  x.att.all (fun t => x.written.contains t.layer && x.staged.contains t.layer) && !s.cache.stages.any fun g => g.handle == x.handle

/-- A step ends without committing: CLEN and SLEN stand (R129), and its reply carries the status (R126, R172). DESIGN CHOICE (log 97):
R305 lists no kind of reply for a step without a token, so the reply is a NOTICE of the request. -/
def failStep (s : State) (h : DWord) (st : Half) : State :=
  let running := (stepOf s h).isSome
  let s := dropStep s h
  match descOf s h with
  | some d => if running then noticeReply s d st else s
  | none => s

/-- Tokens from position `first` are written to the token buffer. The lead logs at the home whatever lies beyond CLENH, ids from PLEN
on (R161); the tokens are emitted with `st` when the reply arrives. -/
def logTokens (s : State) (h : DWord) (first : Nat) (ids : List Nat) (st : Half) : State :=
  match descOf s h with
  | none => s
  | some d =>
    let s := (ids.mapIdx fun i t => (first + i, t)).foldl (fun s p => putToken s d p.1 p.2) s
    let hi := first + ids.length
    if d.state == .fenced || hi ≤ d.clenh then s
    else
      let s := descMod s h fun d => { d with clenh := hi }
      if !d.lead then s
      else
        let lo := max d.clenh d.plen
        let ws : List Word := (List.range (hi - lo)).map fun i => BitVec.ofNat 32 (tokenAt s d (lo + i))
        let s := descMod s h fun d => { d with tokensOut := d.tokensOut ++ [(first, ids.map fun i => BitVec.ofNat 32 i, st, hi)] }
        askHome s h d.epoch (.tokens d.clenh (hi - d.clenh) ws)

/-- A step ends where it can: a generation step whose accepted count is known, a recomputing step and a prefill chunk, when its layers
are written. The last prefill chunk ends with its FIRST token's TOKENS reply (R129, R159, R165). -/
def tryEndStep (s : State) (h : DWord) : State :=
  match stepOf s h, descOf s h with
  | some x, some d =>
    if !stepWritten s x then s
    else if x.recompute then advance (dropStep s h) h x.e
    else if x.gen then
      match x.accepted with
      | some a => advance (dropStep s h) h (x.clen + a + 1)
      | none => s
    else if x.e = d.plen then
      (match x.accepted with
        | some _ => advance (dropStep s h) h x.e
        | none => s)
    else
      match x.fail with
      | some st => failStep s h st
      | none => logTokens (advance (dropStep s h) h x.e) h x.e [] 0
  | _, _ => s

/-- Generation ends after tokens were logged (R438). -/
def generationEnds (s : State) (d : Desc) (last newClen : Nat) : Bool :=
  last == setupF d 28 4 || (setupF d 32 4 != 0 && decide (setupF d 32 4 ≤ sbGet s d 68 4)) || decide (d.maxlen ≤ newClen + 1)

/-! ## Lens requests (R173–R175) -/

/-- A 64-byte DMA to the request port adds a request to the queue. -/
def lensRequest (s : State) (c id : Nat) (e : Ecc) : State :=
  match dmaOf s c id with
  | none => s
  | some d =>
    if !d.started || !dmaToLens s d || d.srcSpace == 3 then s
    else if !lensOn s then finishDma s c id stNoResource
    else if 4096 ≤ s.lens.queue.length then finishDma (setEvent s rLnEvent 6) c id stNoResource
    else
      let s := sourceEcc s d.srcSpace d.srcAt 64 [(0, e)]
      let (bs, po) := placeLine s d.srcSpace d.srcAt
      let q : LensReq := { bytes := bytesVReg bs, client := ctxClient s d.ctx, ctx := d.ctx }
      finishDma { s with lens := { s.lens with queue := s.lens.queue ++ [q] } } c id (if po then stPoisoned else stOk)

/-- A request's fields. -/
structure Req where
  handle : DWord
  kind : Nat
  j : Nat
  bf : Bool
  pos : Nat
  rows : Nat
  cell : Nat
  worker : Nat
  ctr : Nat
  res : Nat
  fieldsOk : Bool
  /-- The context whose DMA queued it. -/
  ctx : Nat
  deriving DecidableEq, Repr

def parseReq (q : LensReq) : Req :=
  let b := vregBytes q.bytes
  let f := fun o n => leNat ((b.drop o).take n)
  { handle := BitVec.ofNat 64 (f 0 8), kind := f 8 1, j := f 9 1, bf := f 10 1 == 1, pos := f 12 4, rows := f 16 6, cell := f 24 2
    worker := f 26 1 % 16, ctr := f 26 1 / 16 % 4, res := f 28 4, ctx := q.ctx
    fieldsOk := f 11 1 == 0 && f 22 2 == 0 && decide (f 26 1 < 64) && f 27 1 == 0 && f 32 32 == 0 &&
      decide (f 8 1 < 3) && decide (f 10 1 < 2) && f 28 4 % 64 == 0 }

/-- Bytes of one row, and the stride between rows. -/
def rowBytes (s : State) (bf : Bool) : Nat := s.lens.vocab * (if bf then 2 else 4)
def rowAt (s : State) (q : Req) (r : Nat) : Nat := q.rows + r * ((rowBytes s q.bf + 63) / 64 * 64)

/-- The first matching row of R175 up to the setup. DESIGN CHOICE (log 54): no row names a DRAFT or VERIFY in a prefill step, a FIRST in
a generation step, or a request with no running step; the model gives them ST_BAD_FIELD. -/
def reqStatus (s : State) (q : Req) : Half :=
  match descOf s q.handle with
  | none => stNotOwner
  | some d =>
    if d.state == .fenced then stLeaseExpired
    else if d.state != .active && d.state != .adopted && d.state != .handingOut then stNotOwner
    else
      match stepOf s q.handle with
      | none => stBadField
      | some x =>
        let n := if q.kind = 1 then x.d + 1 else 1
        if !q.fieldsOk || (q.kind == 0 && q.j != x.lastJ + 1) || (q.kind == 1 && q.j != x.d + 1) || (q.kind == 2) == x.gen then stBadField
        else
          let ok := match tget s.sched.ctxs d.ctx, winOfCtx s q.cell d.ctx with
            | some cx, some w =>
              within q.rows (rowAt s q (n - 1) + rowBytes s q.bf - q.rows) cx.base cx.size &&
                decide (w.code ≤ q.res) && decide (q.res + 64 ≤ w.size)
            | _, _ => false
          if !ok then stBounds else x.fail.getD stOk

/-- The context in whose window the result lies: the one that owns the request. DEDUCED (log 54): of a HANDLE that names no descriptor
here, or one without a context, the context whose DMA queued the request, since R175 has its status answered too. -/
def resultCtx (s : State) (q : Req) : Nat :=
  match descOf s q.handle with
  | some d => if d.ctx = 0xFFFF then q.ctx else d.ctx
  | none => q.ctx

/-- The 64-byte result record, and the counter (R174). -/
def writeResult (s : State) (q : Req) (token accept flags : Nat) (st : Half) (gstate : Nat) : State :=
  match winOfCtx s q.cell (resultCtx s q) with
  | none => s
  | some w =>
    if q.res < w.code || w.size < q.res + 64 then s
    else
      let s := cellWrite s q.cell (w.base + q.res)
        (leBytes 4 token ++ leBytes 1 accept ++ leBytes 1 flags ++ leBytes 2 st.toNat ++ leBytes 4 gstate ++ leBytes 52 0)
      incCounter s q.cell q.worker q.ctr

/-- Answers a request with a failure: nothing of the sampling block changes, and the step commits nothing. TOKEN is not stated. A
DRAFT that fails for another cause than its J is still the last DRAFT of its step. -/
def failReq (s : State) (q : Req) (st : Half) : State :=
  let s := lensError s q.kind st q.handle
  let (tok, s) := takeFree s 32
  let g := ((descOf s q.handle).map fun d => sbGet s d 64 4).getD 0
  let s := writeResult s q tok 0 0 st g
  if q.kind = 0 then
    stepMod s q.handle fun x => { x with
      fail := some (x.fail.getD st), lastJ := if q.j = x.lastJ + 1 then q.j else x.lastJ }
  else if st == stLeaseExpired then s
  else failStep s q.handle st

/-- The entry of a grammar at its index, counted over the banks. -/
def storeIndex (g : GSlot) (i : Nat) : Nat := g.banks.getD (i / 32768) 0 * 32768 + i % 32768

/-- The store entries that a sampling in state `n` reads: the state's and its ranges' (R183, R191). -/
def entriesRead (s : State) (g : GSlot) (n : Nat) : List Nat :=
  let e := (tgetD s.lens.store (storeIndex g n) 0).toNat
  storeIndex g n :: (List.range (bits e 47 32)).map fun k => storeIndex g (g.nstates + bits e 31 0 + k)

/-- What the shadow comparison of a sampling in grammar state `n` comes to (R191); a status where the sampling fails. `e` is what upsets
of the store made of it; entries that differ from their shadows are rewritten and the comparison is made once more. -/
def shadowResult (s : State) (j : Option Nat) (n : Nat) (e : ShadowEnd) : State × Option Half :=
  match j with
  | none => (s, none)
  | some j =>
    let g := gslotOf s j
    let read := entriesRead s g n
    let wrong := read.filter (entryDiffers s)
    if g.state == .failed then (s, some (if g.poisoned then stPoisoned else stLensMismatch))
    else if read.any (shadowBad s) || e == .shadowPoisoned then (failBanks s j [] true, some stPoisoned)
    else if wrong.isEmpty && e == .equal then (s, none)
    else
      let s := wrong.foldl repairEntry s
      let again := ((entriesRead s g n).filter (entryDiffers s)).map fun i => i / 32768
      let banks := (match e with
        | .permanent banks => banks.filter g.banks.contains
        | _ => []) ++ again
      if banks.isEmpty then
        (event (setEvent (satAdd s rLnShadowCount 15 0 1) rLnEvent 1) { sev := sevCorrected, src := srcLens } 64, none)
      else (failBanks s j banks false, some stLensMismatch)

/-- The head of the queue is of a kind, and the banks it needs can be searched. A kind out of range is served as it comes. -/
def headReq (s : State) (kind : Nat) : Option Req :=
  match s.lens.queue with
  | [] => none
  | q :: _ =>
    let r := parseReq q
    let j := (descOf s r.handle).bind fun d => d.gslot
    let ready := match j with
      | some j => (gslotOf s j).banks.all fun b => s.lens.searchable.getLsbD b
      | none => true
    if lensOn s && ready && (r.kind == kind || 3 ≤ r.kind) then some r else none

def popReq (s : State) : State := { s with lens := { s.lens with queue := s.lens.queue.drop 1 } }

/-- A request of a recomputing step is answered from the log and samples nothing (R165). -/
def serveRecompute (s : State) (q : Req) (x : Step) : State :=
  let t := ((descOf s q.handle).map fun d => tokenAt s d x.e).getD 0
  writeResult s q t 0 0 stOk (((descOf s q.handle).map fun d => sbGet s d 64 4).getD 0)

/-- The lens serves the head of its queue where it is of a kind (R173). -/
def onHead (s : State) (kind : Nat) (k : State → Req → State) : State :=
  match headReq s kind with
  | none => s
  | some q =>
    match stepOf s q.handle with
    | some x => if x.recompute then serveRecompute (popReq s) q x else k (popReq s) q
    | none => k (popReq s) q

/-- The findings on the lines of row `r`. -/
def rowFindings (s : State) (q : Req) (m : LensMeets) (r : Nat) : Findings :=
  let k := (rowBytes s q.bf + 63) / 64
  m.found.filterMap fun f => if k != 0 && f.1 / k == r then some (f.1 % k, f.2) else none

/-- Reads row `r` of a request and samples it for position `p` in state `g`: the token or the failure (R175, R176, R191). A poisoned
row aborts the consuming context (R175, R341). -/
def sampleAt (s : State) (q : Req) (d : Desc) (r p g : Nat) (m : LensMeets) : State × (Half ⊕ Nat) :=
  let a := rowAt s q r
  let n := rowBytes s q.bf
  let s := memoryFindings (chargeRange (touchRange s a n) d.client a n false) a n (rowFindings s q m r)
  if rangePoisoned s a n then (abortCtx s d.ctx stContextAborted, .inl stPoisoned)
  else
    match shadowResult s d.gslot g (m.ends.getD r .equal) with
    | (s, some st) => (s, .inl st)
    | (s, none) =>
      let s := satAdd s rLnSamples 31 0 1
      let x := samplerOf d
      let row := rangeRead s a n
      let au := d.gslot.map fun j => slotAutomaton s (gslotOf s j)
      let mask := maskOf au x.eos g s.lens.vocab
      let s := if mask.any (fun i => (logit q.bf row i).isNan) then setEvent s rLnEvent 5 else s
      match sampleRow x p (logit q.bf row) mask with
      | some t => (s, .inr t)
      | none => (s, .inl stLogitsInvalid)

def nextG (s : State) (d : Desc) (g t : Nat) : Nat :=
  (nextOf (d.gslot.map fun j => slotAutomaton s (gslotOf s j)) (setupF d 28 4) g t).getD g

/-- DRAFT (R178). A draft that is EOS ends drafting: D becomes its j, and E and SLEN with it (R125, R128, R177). -/
def serveDraft (s : State) (m : LensMeets) : State :=
  onHead s 0 fun s q =>
    let st := reqStatus s q
    if st != stOk then failReq s q st
    else
      match descOf s q.handle, stepOf s q.handle with
      | some d, some x =>
        let g := x.drafts.foldl (fun g (t : Word) => nextG s d g t.toNat) (sbGet s d 64 4)
        match sampleAt s q d 0 (x.clen + q.j) g m with
        | (s, .inl st) => failReq s q st
        | (s, .inr t) =>
          let dl := if x.d != 0 && t == setupF d 28 4 then q.j else x.d
          let s := draftTaken (sbPut s d (124 + 4 * q.j) 4 t) d x q.j dl (BitVec.ofNat 32 t)
          let flags := (if x.d = 0 then 4 else b2n (q.j == dl)) + 8 * b2n x.degraded
          writeResult s q t 0 flags stOk (nextG s d g t)
      | _, _ => s
where
  draftTaken (s : State) (d : Desc) (x : Step) (j dl : Nat) (t : Word) : State :=
    let s := if x.d = 0 then s else satAdd s rLnDrafts 31 0 1
    let s := stepMod s x.handle fun x => { x with lastJ := j, drafts := x.drafts ++ [t], tilde := if j = 1 then some t else x.tilde }
    if dl = x.d then s
    else
      let e := x.clen + dl + 1
      descMod (stepMod (sbPut s d 80 1 dl) x.handle fun x => { x with d := dl, e := e }) x.handle fun d => { d with slen := e }

/-- The loop of R179: samples row after row; the emitted tokens and the state, or the failure. -/
def verifyLoop (m : LensMeets) (q : Req) (d : Desc) (x : Step) (r : Option Nat) :
    Nat → State → Nat → Nat → List Nat → State × (Half ⊕ (List Nat × Nat))
  | 0, s, _, g, out => (s, .inr (out, g))
  | n + 1, s, j, g, out =>
    match sampleAt s q d j (x.clen + 1 + j) g m with
    | (s, .inl st) => (s, .inl st)
    | (s, .inr t) =>
      let out := out ++ [t]
      let g := nextG s d g t
      if t == setupF d 28 4 || r == some out.length || j == x.d || (x.drafts.getD j 0).toNat != t then (s, .inr (out, g))
      else verifyLoop m q d x r n s (j + 1) g out

/-- MISS, DCUR and RETRY after a VERIFY (R180). -/
def backOff (s : State) (d : Desc) (dl a : Nat) : State :=
  let miss := sbGet s d 73 1
  if dl = 0 then s
  else if 1 ≤ a then sbPut s d 73 1 0
  else if miss < 7 then sbPut s d 73 1 (miss + 1)
  else setEvent (sbPut (sbPut (sbPut s d 73 1 0) d 72 1 0) d 74 6 (now s + 256)) rLnEvent 4

/-- Status of the tokens a step emits: late, degraded or plain (R133, R193, R306). -/
def tokenStatus (x : Step) : Half := if x.late then stDeadlineMissed else if x.degraded then stOkDegraded else stOk

/-- The VERIFY of a step that took the fallback: its result is discarded when it arrives, be the step still running or over (R193). -/
def discarded (s : State) (q : Req) : Bool :=
  ((stepOf s q.handle).map fun x => x.fellBack).getD false ||
  ((descOf s q.handle).map fun d => d.state != .fenced && d.discard == some q.pos).getD false

/-- VERIFY (R179). -/
def serveVerify (s : State) (m : LensMeets) : State :=
  onHead s 1 fun s q =>
    if discarded s q then descMod s q.handle fun d => { d with discard := none }
    else
      let st := reqStatus s q
      if st != stOk then failReq s q st
      else
        match descOf s q.handle, stepOf s q.handle with
        | some d, some x =>
          match verifyLoop m q d x (remaining s d) (x.d + 1) s 0 (sbGet s d 64 4) [] with
          | (s, .inl st) => failReq s q st
          | (s, .inr (out, g)) =>
            let a := out.length - 1
            let s := sbPut (sbPut s d 64 4 g) d 68 4 (sbGet s d 68 4 + a + 1)
            let s := backOff (satAdd s rLnAccepted 31 0 a) d x.d a
            let last := out.getLastD 0
            let ends := generationEnds s d last (x.clen + a + 1)
            let s := writeResult s q last a (2 * b2n ends + 8 * b2n x.degraded) stOk g
            let s := stepMod s q.handle fun x => { x with accepted := some a }
            let s := logTokens s q.handle (x.clen + 1) out (tokenStatus x)
            tryEndStep s q.handle
        | _, _ => s

/-- FIRST (R173): samples the token at PLEN; the chunk's TOKENS range ends at PLEN + 1 (R161). -/
def serveFirst (s : State) (m : LensMeets) : State :=
  onHead s 2 fun s q =>
    let st := reqStatus s q
    if st != stOk then failReq s q st
    else
      match descOf s q.handle, stepOf s q.handle with
      | some d, some x =>
        match sampleAt s q d 0 d.plen (sbGet s d 64 4) m with
        | (s, .inl st) => failReq s q st
        | (s, .inr t) =>
          let g := nextG s d (sbGet s d 64 4) t
          let s := sbPut (sbPut s d 64 4 g) d 68 4 (sbGet s d 68 4 + 1)
          let ends := generationEnds s d t d.plen
          let s := writeResult s q t 0 (2 * b2n ends + 8 * b2n x.degraded) stOk g
          let s := logTokens s q.handle d.plen [t] (if x.degraded then stOkDegraded else stOk)
          if d.lead then s else tryEndStep (stepMod s q.handle fun x => { x with accepted := some 0 }) q.handle
      | _, _ => s

/-! ## The deadline monitor (R192–R194) -/

/-- A late full path: t̃ is logged with ST_OK_DEGRADED where it has been sampled, else the step's tokens will be late. `atEnd` says
that this is the step's own deadline (R194). -/
def takeFallback (s : State) (h : DWord) (atEnd : Bool) : State :=
  match stepOf s h, descOf s h with
  | some x, some d =>
    if !x.gen || x.accepted.isSome || x.fail.isSome then s
    else
      match x.tilde with
      | none => if atEnd then stepMod s h fun x => { x with late := true } else s
      | some t =>
        let g := nextG s d (sbGet s d 64 4) t.toNat
        let s := sbPut (sbPut s d 64 4 g) d 68 4 (sbGet s d 68 4 + 1)
        let s := setEvent (satAdd s rLnFallbacks 31 0 1) rLnEvent 3
        let s := stepMod s h fun x => { x with accepted := some 0, fellBack := true }
        let s := descMod s h fun d => { d with discard := some (x.clen + 1) }
        let s := logTokens s h (x.clen + 1) [t.toNat] stOkDegraded
        tryEndStep s h
  | _, _ => s

end Sys2Proof.Machine
end

