-- ==== Sys2Proof/Machine/Requests.lean ====
section
/-!
DEFINITION. The computing side of the foragers: the request commands (R139, R157, R158, R162, R166, R312, R439), notices (R150, R155, R437),
fetching (R162), replies (R144), leases (R153).
-/

namespace Sys2Proof.Machine

/-! ## Common checks of the request commands (R312, R439) -/

/-- CONTEXT of OP_SUBMIT_REQUEST and OP_HANDOFF_IN. -/
def contextStatus (s : State) (fn n : Nat) : Half :=
  match (if n < 4128 then tget s.sched.ctxs n else none) with
  | none => stBadField
  | some x => if x.client != fn then stClientMismatch else if x.state == .aborted then stContextAborted else stOk

def inAlloc (s : State) (ctx a n : Nat) : Bool :=
  match tget s.sched.ctxs ctx with
  | some x => within a n x.base x.size
  | none => false

/-- SAMPLE over 256 bytes and MAP over the size of R115 lie in the context's allocation. -/
def buffersOk (s : State) (ctx sample map : Nat) : Bool :=
  inAlloc s ctx sample 256 &&
  (match layoutOf s ctx with
   | some l => inAlloc s ctx map (4 * mapEntries l)
   | none => false)

def nextSeq (s : State) : Nat := if s.forager.seq = 0xFFFFF then 1 else s.forager.seq + 1

/-- The UP CACHE peers in ascending node order. -/
def cachePeers (s : State) : List Nat :=
  sortBy id ((s.forager.peers.filter fun p => p.entry.role == roleCache && p.state == .up).map fun p => p.entry.node)

def tokensAt (s : State) (a n : Nat) : List Nat := (List.range n).map fun i => rangeNat s (a + 4 * i) 4

/-- The hashes a CREATE carries: blocks 0 to ⌊(PLEN − 1) ÷ 64⌋ − 1 (R147). -/
def promptHashes (s : State) (client tbuf plen : Nat) : List DWord :=
  let n := (plen - 1) / 64
  chainHashes (hashKey s) n (BitVec.ofNat 64 client) (tokensAt s tbuf (64 * n))

/-- Sends CREATE for an ADMITTING descriptor (R139, R156, R157). -/
def sendCreate (s : State) (h : DWord) : State :=
  match descOf s h with
  | none => s
  | some d =>
    let fork := d.parent != 0
    let toks : List Word := if fork then [] else (tokensAt s d.tbuf d.plen).map fun i => BitVec.ofNat 32 i
    let pe := if fork then ((descOf s d.parent).map fun p => p.epoch).getD d.epoch else 0
    askHome s h pe (.create d.client d.plen d.maxlen d.parent toks (if fork then [] else d.hashes)) fork

/-- Blocks 0 to ⌈CLEN ÷ 64⌉ − 1 of the parent's map, referenced once more for a child; false where a reference is refused, which the
state records (R117, R157). -/
def forkMap (s : State) (p : Desc) (l : Layout) (map : Nat) : State × Bool :=
  let cells := (List.range ((p.clen + 63) / 64)).flatMap fun b => (blockPages s l p b).map fun x => (b, x)
  match addRefs s (cells.map fun c => c.2.2.2) with
  | (s, false) => (s, false)
  | (s, true) => (cells.foldl (fun s c => mapSet s l map c.1 c.2.1 c.2.2.1 c.2.2.2) (clearMap s l map), true)

/-! ## OP_SUBMIT_REQUEST (R139, R157, R439) -/

/-- The home of a new request, or the refusal. -/
def chooseHome (s : State) (fn : Nat) (a : SubmitArg) (parent : Option Desc) : Half ⊕ Nat :=
  let home := a.home.toNat
  let named := if bit home 15 = 1 then some (home % 2 ^ 14) else none
  let ps := cachePeers s
  match parent with
  | some p =>
    if named.isSome && named != some p.home then .inl stNotOwner
    else if named.isSome && !ps.contains p.home then .inl stWrongRole
    else .inr p.home
  | none =>
    match named with
    | some n => if ps.contains n then .inr n else .inl stWrongRole
    | none =>
      if ps.isEmpty then .inl stWrongRole
      else
        let h0 := match promptHashes s fn a.tbuf.toNat a.plen.toNat with
          | h :: _ => h.toNat
          | [] => fn
        .inr (ps.getD (h0 % ps.length) 0)

def opSubmit (s : State) (cmd : Nat) (hdr : CmdHdr) (a : SubmitArg) : State :=
  let fn := hdr.fn.val
  let ctx := a.context.toNat
  let plen := a.plen.toNat
  let maxlen := a.maxlen.toNat
  let st := contextStatus s fn ctx
  let maxpos := ((layoutOf s ctx).map fun l => l.maxpos).getD 0
  if st != stOk then refuseReq s cmd st a.parent
  else if plen = 0 then refuseReq s cmd stBadLength a.parent
  else if maxlen = 0 || maxlen ≤ plen || maxpos < maxlen then refuseReq s cmd stBadField a.parent
  else if !inAlloc s ctx a.tbuf.toNat (4 * maxlen) || !buffersOk s ctx a.sample.toNat a.map.toNat then refuseReq s cmd stBounds a.parent
  else
    let parent := if a.parent = 0 then none else (descOf s a.parent)
    if a.parent != 0 && !((parent.map fun p => p.state == .active && p.epoch != 0).getD false) then refuseReq s cmd stNotOwner a.parent
    else
      match chooseHome s fn a parent with
      | .inl st => refuseReq s cmd st a.parent
      | .inr home =>
        match freeDescIdx s, layoutOf s ctx with
        | some idx, some l =>
          let forked := match parent with
            | some p => forkMap s p l a.map.toNat
            | none => (clearMap s l a.map.toNat, true)
          match forked with
          | (s, false) => refuseReq s cmd stNoResource a.parent
          | (s, true) =>
            let seq := nextSeq s
            let h := mkHandle (imageJob s) home (nodeNum s) seq
            let base : Desc := {
              idx := idx, handle := h, state := .admitting, client := fn, ctx := ctx, prot := ctxProt s ctx, plen := plen, maxlen := maxlen, map := a.map.toNat
              tbuf := a.tbuf.toNat, home := home, partner := (partnerOf s home).getD 0, tip := BitVec.ofNat 64 fn, parent := a.parent
              sample := a.sample.toNat, created := now s, lead := isLead s, cmd := cmd, ring := hdr.ring.val, cid := hdr.cid
              order := s.forager.nextOrder, hashes := promptHashes s fn a.tbuf.toNat plen }
            let d := match parent with
              | some p => { base with plen := p.plen, clen := p.clen, slen := p.clen, clenh := p.clenh, cb := p.cb, tip := p.tip }
              | none => base
            let s := match parent with
              | some p => rangePut s d.tbuf (rangeRead s p.tbuf (4 * min p.maxlen d.maxlen))
              | none => s
            let s := addDesc { s with forager := { s.forager with seq := seq, nextOrder := s.forager.nextOrder + 1 } } d
            sendCreate s h
        | _, _ => refuseReq s cmd stNoResource a.parent

/-! ## OP_CANCEL_REQUEST, OP_HANDOFF_OUT, OP_HANDOFF_IN -/

/-- OP_CANCEL_REQUEST. DESIGN CHOICE (log 50): in FETCHING and HANDING_OUT, where R150 lists no transition for it, the command is refused
with the one refusal R166 gives it. -/
def opCancel (s : State) (cmd : Nat) (h : DWord) : State :=
  if h = 0 then refuseReq s cmd stBadField h
  else
    match descOf s h with
    | none => refuseReq s cmd stNotOwner h
    | some d =>
      if d.epoch != 0 && d.lead && (d.state == .active || d.state == .adopted) then endRequest s h stOk cmd
      else refuseReq s cmd stNotOwner h

def opHandoffOut (s : State) (cmd : Nat) (h : DWord) (target : Half) : State :=
  if h = 0 then refuseReq s cmd stBadField h
  else
    match descOf s h with
    | none => refuseReq s cmd stNotOwner h
    | some d =>
      if !(d.state == .active || d.state == .adopted) || !d.lead then refuseReq s cmd stNotOwner h
      else if target.toNat = nodeNum s then refuseReq s cmd stBadField h
      else descMod s h fun d => { d with
        state := .handingOut, wasAdopted := d.wasAdopted || d.state == .adopted, peer := some target.toNat, cmd := cmd, proposed := false }

/-- The pages of the open block, which DIRECT moves. -/
def directPages (s : State) (d : Desc) : List Nat :=
  match descLayout s d with
  | some l => (blockPages s l d d.cb).map fun p => p.2.2
  | none => []

/-- The rows of DIRECT: positions 64·CB to CLEN − 1, per page key rows then value rows of each head. -/
def directRows (s : State) (d : Desc) : List PageData :=
  match descLayout s d with
  | none => []
  | some l =>
    let lo := 64 * d.cb
    let n := d.clen - lo
    let kb := kBytes l
    let vb := vBytes l
    if n = 0 || d.wasAdopted then []
    else (blockPages s l d d.cb).filterMap fun p => (pageOf s p.2.2).map fun x => {
      block := d.cb, layer := p.1, group := groupOf l p.2.1
      data := (List.range l.hg).flatMap fun j =>
        rangeRead s (x.frame + j * 64 * (kb + vb)) (n * kb) ++ rangeRead s (x.frame + j * 64 * (kb + vb) + 64 * kb) (n * vb)
      poison := rangePoisoned s x.frame (pageData l), summary := none }

/-- HANDOFF_PROPOSE_SEND (R162): once the running step has ended, every committed block is covered and the last TOKENS is answered. -/
def proposeSend (s : State) (h : DWord) : State :=
  match descOf s h with
  | none => s
  | some d =>
    if d.state != .handingOut || d.proposed || (stepOf s h).isSome || !d.tokensOut.isEmpty || (!d.wasAdopted && decide (d.cb < d.clen / 64)) then s
    else
      let t := d.peer.getD 0
      let rows := directRows s d
      let s := if rows.isEmpty then s else tell s t h d.epoch 0 false false (.direct (64 * d.cb) rows) (directPages s d)
      askHome (descMod s h fun d => { d with proposed := true }) h d.epoch (.propose t)

/-! ## OP_QUERY_REQUEST, OP_PREFIX_LOOKUP (R158, R166, R312) -/

/-- The query word of R312. -/
def queryWord (d : RecordData) : Nat :=
  d.epoch + d.state * 2 ^ 32 + d.owner.getD 0 * 2 ^ 48 + b2n d.owner.isSome * 2 ^ 63

/-- The 32-byte query record of R312. -/
def queryBytes (d : RecordData) : List Byte :=
  let st := d.state + 8 * b2n d.proposed + 16 * b2n d.claimed + 32 * b2n d.primaryOk + 64 * b2n d.mirrorOk + 128 * b2n d.acting
  leBytes 2 (nodeField d.owner) ++ leBytes 1 st ++ leBytes 1 0 ++ leBytes 4 d.epoch ++ leBytes 4 d.cb ++ leBytes 4 d.clenh ++
  leBytes 6 d.lease ++ leBytes 2 0 ++ leBytes 4 d.plen ++ leBytes 4 d.maxlen

def finishQuery (s : State) (cmd : Nat) (h : DWord) (buf : Nat) (r : Option RecordData) : State :=
  match r with
  | none => refuseReq s cmd stBadField h
  | some d =>
    let s := if buf = 0 then s else emit s (.hostWrite (cmdFn s cmd) buf (queryBytes d))
    finishCmd s cmd stOk (queryWord d)

def opQuery (s : State) (cmd : Nat) (h buf : DWord) : State :=
  if h = 0 || buf.toNat % 64 != 0 then refuseReq s cmd stBadField h
  else if s.boot.role == roleCache && servesHome s h then finishQuery s cmd h buf.toNat ((recOf s h).map fun r => r.data)
  else if peerRole s (hHome h) != roleCache then refuseReq s cmd stBadField h
  else
    match homeDest s h with
    | none => refuseReq s cmd stRequestLost h
    | some d => ask { s with forager := { s.forager with queries := s.forager.queries ++ [(cmd, h, d, buf.toNat)] } } d h 0 .query

def opPrefixLookup (s : State) (cmd fn : Nat) (home : Half) (count : Word) (tokens : BitVec 48) : State :=
  if count = 0 then refuseReq s cmd stBadLength 0
  else if (s.sched.image).isNone then refuseReq s cmd stBadField 0
  else if !inRange s tokens.toNat (4 * count.toNat) then refuseReq s cmd stBounds 0
  else
    let n := count.toNat / 64
    let hs := chainHashes (hashKey s) n (BitVec.ofNat 64 fn) (tokensAt s tokens.toNat (64 * n))
    if home.toNat = nodeNum s && s.boot.role == roleCache then finishCmd s cmd stOk (lookupM s fn hs)
    else if peerRole s home.toNat != roleCache then refuseReq s cmd stWrongRole 0
    else
      let dest := if peerUp s home.toNat then some home.toNat else (partnerOf s home.toNat).bind fun p => if peerUp s p then some p else none
      match dest with
      | none => refuseReq s cmd stWrongRole 0
      | some d => ask { s with forager := { s.forager with queries := s.forager.queries ++ [(cmd, 0, d, 0)] } } d 0 0 (.lookup fn hs)

/-! ## Placing what a FETCH brings (R162) -/

/-- Writes a summary entry that has come for a page; a page of a committed block is then FULL (R116). One for which no tile is found is
lost, and the page stays without (R227). -/
def placeSummary (s : State) (l : Layout) (d : Desc) (p : PageData) : State :=
  match p.summary, (List.range (localGroups l)).find? (fun i => groupOf l i == p.group) with
  | some b, some g =>
    let n := mapGet s l d.map p.block p.layer g
    match pageOf s n with
    | some x =>
      match rangeWrite s (sumAt s l n) b with
      | (s, true) => pageSet s n { x with sumv := true, full := x.full || decide (64 * (p.block + 1) ≤ d.clen) }
      | (s, false) => s
    | none => s
  | _, _ => s

/-- The page a summary is for has been placed. -/
def hasPage (s : State) (l : Layout) (d : Desc) (p : PageData) : Bool :=
  match (List.range (localGroups l)).find? (fun i => groupOf l i == p.group) with
  | some g => (pageOf s (mapGet s l d.map p.block p.layer g)).isSome
  | none => false

/-- Places the pages of a PAGES message into the descriptor's map; none where a page finds no number, frame or tile. -/
def placeFetched (s : State) (l : Layout) (d : Desc) (ps : List PageData) : Option (State × Nat) :=
  ps.foldl (fun o p => o.bind fun r =>
    match (List.range (localGroups l)).find? (fun i => groupOf l i == p.group) with
    | none => some r
    | some g =>
      if l.layers ≤ p.layer || d.cb ≤ p.block || !holdsBlock l p.block || hasPage r.1 l d p then some r
      else
        (allocPage r.1 l d.client p.group p.layer).bind fun q =>
          let (n, s) := q
          (pageOf s n).bind fun x =>
            (putRange s x.frame p.data p.poison).toOption.map fun s =>
              (mapSet (pageSet s n { x with written := 64, beat := now s }) l d.map p.block p.layer g n, r.2 + 1)) (some (s, 0))

/-- One page's rows of DIRECT, `n` positions of each head, go into its frame. -/
def directFrame (s : State) (l : Layout) (frame n : Nat) (p : PageData) : Except Bool State :=
  let kb := kBytes l
  let vb := vBytes l
  (List.range l.hg).foldl (fun (o : Except Bool State) j => o.bind fun s =>
    let a := j * n * (kb + vb)
    (putRange s (frame + j * 64 * (kb + vb)) ((p.data.drop a).take (n * kb)) p.poison).bind fun s =>
      putRange s (frame + j * 64 * (kb + vb) + 64 * kb) ((p.data.drop (a + n * kb)).take (n * vb)) p.poison) (.ok s)

/-- Rows of DIRECT go into the open block: the descriptor's length after them (R162). Rows that find no page are given up, and their
positions are recomputed (R165). -/
def placeDirect (s : State) (l : Layout) (d : Desc) (ps : List PageData) : State × Nat :=
  let per := l.hg * (kBytes l + vBytes l)
  let put : Except Bool (State × Nat) := ps.foldl (fun (o : Except Bool (State × Nat)) p => o.bind fun r =>
    match (List.range (localGroups l)).find? (fun i => groupOf l i == p.group) with
    | none => .ok r
    | some g =>
      let n := p.data.length / max per 1
      (writablePage r.1 l d.client d.map p.block p.layer g).bind fun q =>
        match pageOf q.2 q.1 with
        | none => .ok r
        | some x => (directFrame q.2 l x.frame n p).map fun s =>
          (pageSet s q.1 { x with written := n, beat := now s }, 64 * d.cb + n)) (.ok (s, 64 * d.cb))
  match put with
  | .ok r => r
  | .error _ => (setEvent s rKvEvent 4, 64 * d.cb)

/-- TIP from the token buffer: the hash of block CB − 1. -/
def setTip (s : State) (h : DWord) (cb : Nat) : State :=
  match descOf s h with
  | none => s
  | some d =>
    if cb ≤ d.cb then s
    else
      let t := blockHash s d (cb - 1)
      descMod s h fun d => { d with cb := cb, tip := t }

/-- TIP of a descriptor, from its token buffer: the hash of block CB − 1, or the client number (R149). -/
def tipOf (s : State) (d : Desc) : DWord :=
  let toks := (List.range (64 * d.cb)).map fun i => tokenAt s d i
  ((chainHashes (hashKey s) d.cb (BitVec.ofNat 64 d.client) toks).getLast?).getD (BitVec.ofNat 64 d.client)

/-- FETCHING ends when pages, token ids and DIRECT are placed or given up (R150, R162). CLEN then reaches the fetched blocks: those whose
summaries have come are FULL, the others stay OPEN (R116). -/
def tryActive (s : State) (h : DWord) : State :=
  match descOf s h with
  | none => s
  | some d =>
    if d.state != .fetching || 0 < d.pagesLeft || d.tokensLeft then s
    else
      match descLayout s d with
      | none => s
      | some l =>
        let (s, clen) := match d.direct with
          | some (_, f, ps) => if f = 64 * d.cb then placeDirect s l d ps else (s, 64 * d.cb)
          | none => (s, 64 * d.cb)
        let s := fillBlocks (d.early.foldl (fun s p => placeSummary s l d p) s) l d.map 0 clen
        let tip := tipOf s d
        let s := descMod s h fun d => { d with
          state := .active, clen := clen, slen := clen, tip := tip, direct := none, cmd := 0, early := [] }
        if d.cmd = 0 then s else finishCmd s d.cmd stOk clen

/-- The request's phase is one the role serves (R159). -/
def phaseServed (s : State) (d : Desc) : Bool := servesPhase s.boot.role (inPrompt d)

/-- Pages a FETCH of blocks 0 to CB − 1 is to bring to this member. -/
def pagesDue (s : State) (d : Desc) : Nat :=
  match descLayout s d with
  | some l => ((List.range d.cb).filter (holdsBlock l)).length * l.layers * localGroups l
  | none => 0

/-- FETCHING: the pages of blocks 0 to CB − 1 are asked for (R162, step 7). -/
def startFetch (s : State) (h : DWord) : State :=
  match descOf s h with
  | none => s
  | some d =>
    let s := match descLayout s d with
      | some l => clearMap s l d.map
      | none => s
    let s := descMod s h fun d => { d with
      state := .fetching, pagesLeft := pagesDue s d, tokensLeft := d.lead && decide (min d.plen (64 * d.cb) < max d.clenh d.plen) }
    tryActive (askHome s h d.epoch (.fetch 0 d.cb)) h

/-- OP_HANDOFF_IN. DESIGN CHOICE (log 50): a handle whose descriptor here is neither FREE nor ADOPTED is refused with ST_OWNER_CONFLICT,
the status of 20_registers.md for a handoff command that meets another handoff. -/
def opHandoffIn (s : State) (cmd : Nat) (hdr : CmdHdr) (a : HandoffInArg) : State :=
  let fn := hdr.fn.val
  let ctx := a.context.toNat
  let h := a.handle
  if h = 0 then refuseReq s cmd stBadField h
  else
    let st := contextStatus s fn ctx
    let old := descOf s h
    let adopted := (old.map fun d => d.state == .adopted).getD false
    let tbufOk := match old with
      | some d => !adopted || inAlloc s ctx a.tbuf.toNat (4 * d.maxlen)
      | none => true
    let src := if a.source.getLsbD 15 then some (a.source.toNat % 2 ^ 14) else none
    if st != stOk then refuseReq s cmd st h
    else if !buffersOk s ctx a.sample.toNat a.map.toNat || !tbufOk then refuseReq s cmd stBounds h
    else
      let order := s.forager.nextOrder
      let bump := fun (s : State) => { s with forager := { s.forager with nextOrder := order + 1 } }
      match old with
      | some d =>
        if !adopted then refuseReq s cmd stOwnerConflict h
        else if !phaseServed s d then refuseReq s cmd stWrongRole h
        else
          let s := descMod (bump s) h fun d => { d with
            ctx := ctx, prot := ctxProt s ctx, map := a.map.toNat, tbuf := a.tbuf.toNat, sample := a.sample.toNat, cmd := cmd, ring := hdr.ring.val, cid := hdr.cid
            order := order, peer := none, direct := none, wasAdopted := false }
          let s := relay (relay s h noticeJoin 0 0 none) h noticeGrant d.epoch 0 (some {
            client := BitVec.ofNat 8 d.client, plen := BitVec.ofNat 32 d.plen, maxlen := BitVec.ofNat 32 d.maxlen
            cb := BitVec.ofNat 32 d.cb, clenh := BitVec.ofNat 32 d.clenh, lease := BitVec.ofNat 48 d.lease })
          startFetch s h
      | none =>
        match freeDescIdx s with
        | none => refuseReq s cmd stNoResource h
        | some idx =>
          let s := addDesc (bump s) {
            idx := idx, handle := h, state := .receiving, client := fn, ctx := ctx, prot := ctxProt s ctx, map := a.map.toNat, tbuf := a.tbuf.toNat
            sample := a.sample.toNat, home := hHome h, partner := (partnerOf s (hHome h)).getD 0, peer := src, created := now s, cmd := cmd
            ring := hdr.ring.val, cid := hdr.cid, order := order, lead := isLead s, tip := BitVec.ofNat 64 fn }
          askHome (relay s h noticeJoin 0 0 none) h 0 (.claim src 0)

/-- PAGES, part 0. DESIGN CHOICE (log 50): R162 does not say what a node does that has no page number, frame or tile for a page it
fetched; the model fences the request with ST_NO_RESOURCE. -/
def onPagesData (s : State) (h : DWord) (ps : List PageData) : State :=
  match descOf s h with
  | none => s
  | some d =>
    if d.state != .fetching then s
    else
      match descLayout s d with
      | none => s
      | some l =>
        match placeFetched s l d ps with
        | none => fenceDesc (setEvent s rKvEvent 4) h stNoResource
        | some (s, n) => tryActive (descMod s h fun d => { d with pagesLeft := d.pagesLeft - n }) h

/-- PAGES, part 1: ids go into the token buffer at their positions. -/
def onPagesTokens (s : State) (h : DWord) (first : Nat) (ids : List Word) : State :=
  match descOf s h with
  | none => s
  | some d =>
    if d.state != .fetching then s
    else
      let s := (ids.mapIdx fun i t => (first + i, t)).foldl (fun s p => putToken s d p.1 p.2.toNat) s
      tryActive (descMod s h fun d => { d with tokensLeft := false }) h

/-- PAGES, part 2. -/
def onPagesSummaries (s : State) (h : DWord) (ps : List PageData) : State :=
  match descOf s h with
  | none => s
  | some d =>
    match descLayout s d with
    | none => s
    | some l => ps.foldl (fun s p =>
        if hasPage s l d p then placeSummary s l d p
        else if d.state == .fetching then descMod s h fun d => { d with early := d.early ++ [p] } else s) s

/-- DIRECT is for this target: its epoch is the one before the target's own, or the target has none yet (R144). -/
def directFits (d : Desc) (epoch : Nat) : Bool := d.epoch = 0 || epoch + 1 = d.epoch

/-- Refuses a DIRECT of an older epoch (R16, R146). -/
def refuseDirect (s : State) (src : Nat) (h : DWord) : State := reply (noteRefusal s 13 stNotOwner h) src h stNotOwner .other

/-- DIRECT is kept until the page data is placed; of two that come before GRANT the newer epoch stands (R16, R162). -/
def onDirect (s : State) (m : FHdr) (first : Nat) (ps : List PageData) : State :=
  match descOf s m.handle with
  | none => s
  | some d =>
    if (d.state == .receiving || d.state == .fetching) && d.peer == some m.src.toNat then
      let newer := match d.direct with
        | some (e, _, _) => decide (e ≤ m.epoch.toNat)
        | none => true
      if directFits d m.epoch.toNat && newer then descMod s m.handle fun d => { d with direct := some (m.epoch.toNat, first, ps) }
      else refuseDirect s m.src.toNat m.handle
    else s

/-! ## Notices (R150, R155, R437) -/

def applySummary (s : State) (h : DWord) (epoch : Nat) (r : ReqSummary) : State :=
  descMod s h fun d => { d with
    client := r.client.toNat, plen := r.plen.toNat, maxlen := r.maxlen.toNat, cb := r.cb.toNat, clenh := r.clenh.toNat, lease := r.lease.toNat
    home := hHome h, partner := (partnerOf s (hHome h)).getD 0, epoch := epoch }

/-- An ADOPTED descriptor: no pages, no context; its length for the phase is the home's CLENH (R155, R159). -/
def becomeAdopted (s : State) (h : DWord) : State :=
  descMod s h fun d => { d with state := .adopted, ctx := 0xFFFF, clen := d.clenh, slen := d.clenh, cmd := 0, direct := none }

/-- Where a member's descriptor computes and keeps its map: JOIN does not say (log 98). -/
def memberPlace (s : State) (d : Desc) : Desc :=
  let ctx := (Config.memberContext d.handle).toNat
  { d with ctx := ctx, prot := ctxProt s ctx, map := (Config.memberMapAt d.handle).toNat, tbuf := (Config.memberBufferAt d.handle).toNat
           sample := (Config.memberSampleAt d.handle).toNat }

/-- A DIRECT that came before the epoch was known is judged now (R144). -/
def judgeDirect (s : State) (h : DWord) : State :=
  match descOf s h with
  | none => s
  | some d =>
    match d.direct, d.peer with
    | some (e, _, _), some src =>
      if directFits d e then s else refuseDirect (descMod s h fun d => { d with direct := none }) src h
    | _, _ => s

/-- GRANT (R150, R162, R437): the fields are set in any state; RECEIVING, and a member's ADOPTED, go on to FETCHING. -/
def onGrant (s : State) (m : FHdr) (r : ReqSummary) : State :=
  let h := m.handle
  match descOf s h with
  | none => s
  | some d =>
    if m.epoch.toNat < d.epoch then staleNotice s m
    else
      let s := judgeDirect (applySummary s h m.epoch.toNat r) h
      if endedUnowned d then tryEnd s h
      else if d.state == .receiving && d.lead && !inAlloc s d.ctx d.tbuf (4 * r.maxlen.toNat) then
        let s := relay s h noticeAdopt m.epoch.toNat stBounds (some r)
        let s := setEvent (becomeAdopted s h) rFgEvent 1
        if d.cmd = 0 then s else finishCmd s d.cmd stBounds 0
      else if d.state == .receiving then
        startFetch (if d.lead then relay s h noticeGrant m.epoch.toNat 0 (some r) else s) h
      else if d.state == .adopted && !d.lead then startFetch (descMod s h (memberPlace s)) h
      else s

/-- RELEASED (R150, R162); one of an older epoch is refused (R16). -/
def onReleased (s : State) (m : FHdr) : State :=
  let h := m.handle
  match descOf s h with
  | none => s
  | some d =>
    if m.epoch.toNat < d.epoch then staleNotice s m
    else if d.lead then
      if d.state != .handingOut then s
      else
        let s := relay s h noticeReleased m.epoch.toNat 0 none
        let s := descMod s h fun d => { d with state := .passed, cmd := 0 }
        let s := freeDesc s h
        if d.cmd = 0 then s else finishCmd s d.cmd stOk m.epoch.toNat
    else freeDesc (descMod s h fun d => { d with state := .passed }) h

/-- The request that a started command of the host is on. -/
def requestOf (c : Cmd) : Option DWord :=
  match c.op with
  | .cancel h | .handoffOut h _ | .query h _ => some h
  | .handoffIn a => some a.handle
  | .prefetch a => if a.byHandle then some a.first else none
  | _ => none

/-- Every command in progress on a request completes with a status: the one its descriptor holds, and those that name it. -/
def endCommands (s : State) (d : Desc) (st : Half) : State :=
  let s := if d.cmd = 0 then s else finishCmd s d.cmd st 0
  let named := s.host.cmds.filter fun c => c.phase == 2 && requestOf c == some d.handle
  let s := named.foldl (fun s c => finishCmd s c.id st 0) s
  { s with forager := { s.forager with queries := s.forager.queries.filter fun q => q.2.1 != d.handle || d.handle == 0 } }

/-- A request ends with END status ST_POISONED and its descriptor is FREE at once (R341). DESIGN CHOICE (log 99): the lead tells the
home with END and its members with RELEASED, and a member tells its lead with EXPIRED and the status. -/
def endPoisoned (s : State) (d : Desc) : State :=
  if d.lead then
    let s := relay s d.handle noticeReleased d.epoch stPoisoned none
    let s := freeDesc (endReply (endCommands s d stPoisoned) d stPoisoned) d.handle
    if d.epoch = 0 then s else askHome s d.handle d.epoch (.end_ stPoisoned)
  else notice (freeDesc s d.handle) (leadOf s (nodeNum s)) d.handle noticeExpired d.epoch stPoisoned none

/-- EXPIRED (R150). One that carries ST_POISONED ends the request with that status (R341; DESIGN CHOICE, log 99). -/
def onExpired (s : State) (m : FHdr) : State :=
  match descOf s m.handle with
  | none => s
  | some d =>
    let owning := d.state == .fetching || d.state == .active || d.state == .handingOut || d.state == .adopted
    if m.epoch.toNat < d.epoch then staleNotice s m
    else if m.status == stPoisoned then endPoisoned s d
    else if owning && (!d.lead || decide (d.epoch < m.epoch.toNat)) then fenceDesc s m.handle stLeaseExpired else s

/-- A descriptor turns ADOPTED with the fields of the notice; what it had fetched is freed, its command completes, and the client hears
of it, unless the lead has said that its buffer was too small (R150, R155, R437). -/
def adoptDesc (s : State) (m : FHdr) (r : ReqSummary) (cmd : Nat) : State :=
  let h := m.handle
  let e := m.epoch.toNat
  let s := match descOf s h with
    | some d => match descLayout s d with
      | some l => if d.state == .fetching then freeMap s l d.map else s
      | none => s
    | none => s
  let s := setEvent (becomeAdopted (applySummary s h e r) h) rFgEvent 1
  let s := if cmd = 0 then s else finishCmd s cmd stLeaseExpired 0
  match descOf s h with
  | some d =>
    let s := if d.lead then relay s h noticeAdopt e stLeaseExpired (some r) else s
    if m.status == stLeaseExpired then noticeReply s d stLeaseExpired else s
  | none => s

/-- ADOPT (R150, R155, R437): a RECEIVING descriptor, a member's that is FETCHING, and none at all become ADOPTED; of any other the
fields are set. -/
def onAdopt (s : State) (m : FHdr) (r : ReqSummary) : State :=
  let h := m.handle
  match descOf s h with
  | some d =>
    if m.epoch.toNat < d.epoch then staleNotice s m
    else if d.state == .receiving || (d.state == .fetching && !d.lead) then adoptDesc s m r d.cmd
    else if endedUnowned d then tryEnd (applySummary s h m.epoch.toNat r) h
    else applySummary s h m.epoch.toNat r
  | none =>
    match freeDescIdx s with
    | none => s
    | some idx =>
      adoptDesc (addDesc s {
        idx := idx, handle := h, state := .adopted, client := r.client.toNat, created := now s, lead := isLead s
        order := s.forager.nextOrder }) m r 0

/-- A member creates its descriptor for the handle (R142). -/
def onJoin (s : State) (m : FHdr) : State :=
  match descOf s m.handle, freeDescIdx s with
  | none, some idx =>
    addDesc s (memberPlace s {
      idx := idx, handle := m.handle, state := .receiving, client := 0, home := hHome m.handle
      partner := (partnerOf s (hHome m.handle)).getD 0, created := now s, lead := false, order := s.forager.nextOrder })
  | _, _ => s

/-- The handoff is called off: back to ACTIVE (R150). -/
def callOff (s : State) (h : DWord) (st : Half) : State :=
  match descOf s h with
  | none => s
  | some d =>
    let s := descMod s h fun d => { d with state := .active, cmd := 0, peer := none, proposed := false }
    if d.cmd = 0 then s else finishCmd s d.cmd st 0

/-- PENDING_CLEARED (R150); one of an older epoch is refused (R16). -/
def onCleared (s : State) (m : FHdr) : State :=
  match descOf s m.handle with
  | none => s
  | some d =>
    if m.epoch.toNat < d.epoch then staleNotice s m
    else if d.state == .handingOut then callOff s m.handle stTargetLost
    else if endedUnowned d then endUnowned s d
    else if d.state == .receiving then
      let s := freeDesc s m.handle
      if d.cmd = 0 then s else finishCmd s d.cmd m.status 0
    else s

/-! ## Replies (R144) -/

/-- CREATE's reply (R139, R150, R156). -/
def onCreateReply (s : State) (m : FHdr) (k lease : Nat) : State :=
  let h := m.handle
  match descOf s h with
  | none => s
  | some d =>
    if endedUnowned d then
      if m.status == stOk then tryEnd (descMod s h fun d => { d with epoch := 1, lease := lease }) h else endUnowned s d
    else if d.state != .admitting then s
    else if m.status == stHandleInUse then
      if 16 ≤ d.retries + 1 then
        let s := freeDesc s h
        finishCmd s d.cmd stNoResource 0
      else
        let seq := nextSeq s
        let h' := mkHandle (hJob h) d.home (nodeNum s) seq
        let s := { s with forager := { s.forager with seq := seq } }
        sendCreate (descMod s h fun d => { d with handle := h', retries := d.retries + 1 }) h'
    else if m.status != stOk then
      finishCmd (freeDesc s h) d.cmd m.status 0
    else
      let fork := d.parent != 0
      let s := descMod s h fun d => { d with
        epoch := 1, lease := lease, cmd := 0, retries := 0
        cb := k, clenh := if fork then d.clenh else 64 * k
        state := if fork || k = 0 then .active else d.state }
      -- the block the home has committed meanwhile is in the parent's buffer, of which the child's is a copy
      let s := match descOf s h with
        | some d => let t := tipOf s d; descMod s h fun d => { d with tip := t }
        | none => s
      let s := match descOf s h with
        | some d => relay (if d.lead then relay s h noticeJoin 0 0 none else s) h noticeGrant 1 0 (some {
            client := BitVec.ofNat 8 d.client, plen := BitVec.ofNat 32 d.plen, maxlen := BitVec.ofNat 32 d.maxlen
            cb := BitVec.ofNat 32 d.cb, clenh := BitVec.ofNat 32 d.clenh, lease := BitVec.ofNat 48 d.lease })
        | none => s
      let s := finishCmd s d.cmd stOk h.toNat
      if fork || k = 0 then s
      else
        let s := startFetch s h
        -- the prompt's ids are in the token buffer already
        tryActive (descMod s h fun d => { d with tokensLeft := false }) h

/-- TOKENS' reply: the tokens are emitted, the last prefill chunk ends, the end of generation is tested (R159, R161, R438). -/
def onTokensReply (s : State) (m : FHdr) : State :=
  let h := m.handle
  match descOf s h with
  | none => s
  | some d =>
    match d.tokensOut with
    | [] => s
    | (first, ids, st, hi) :: rest =>
      let s := descMod s h fun d => { d with tokensOut := rest }
      if m.status != stOk then tryEnd s h
      else
        let s := (ids.mapIdx fun i t => (first + i, t)).foldl (fun s p => tokenReply s d st p.1 p.2.toNat) s
        let s := match stepOf s h with
          | some x => if !x.gen && x.e == d.plen && hi == d.plen + 1 then tryEndStep (stepMod s h fun x => { x with accepted := some 0 }) h else s
          | none => s
        let last := ((ids.getLast?).map fun t => t.toNat).getD 0
        let s := if !ids.isEmpty && (d.state == .active) && generationEnds s d last (hi - 1) then endRequest s h stOk 0 else s
        tryEnd s h

def takeAsked (s : State) (p : Asked → Bool) : State :=
  { s with forager := { s.forager with asked := removeFirst p s.forager.asked } }

/-- The message a REPLY answers. -/
def answers (m : FHdr) (r : ReplyTo) (a : Asked) : Bool :=
  a.handle == m.handle && a.dst == m.src.toNat &&
  (match r, a.body with
   | .create .., .create .. => true
   | .renew _, .renew => true
   | .propose, .propose _ => true
   | .claim, .claim .. => true
   | .commit b _, .commit b' .. => b == b'
   | .tokens, .tokens .. => true
   | .fetch, .fetch .. => true
   | .end_, .end_ _ => true
   | .query _, .query => true
   | .lookup _, .lookup .. => true
   | .replicate, .replicate _ => true
   | _, _ => false)

/-- ST_NOT_OWNER on an owning descriptor fences it (R146). -/
def fencedBy (s : State) (h : DWord) (st : Half) : Bool :=
  st == stNotOwner && ((descOf s h).map fun d =>
    d.state == .fetching || d.state == .active || d.state == .handingOut || d.state == .adopted).getD false

/-- A REPLY (R144): ST_ROLE_STALE loses the peer, ST_NOT_HOME redirects, the rest advances what was asked. -/
def onReply (s : State) (m : FHdr) (r : ReplyTo) : State :=
  let h := m.handle
  let st := m.status
  if st == stRoleStale then peerLost s m.src.toNat .stale
  else if r == .other && fencedBy s h st then fenceDesc s h st
  else
    match s.forager.asked.find? (answers m r) with
    | none => s
    | some a =>
      let s := takeAsked s (answers m r)
      if st == stNotHome then redirect s a
      else if st == stRequestLost && (descOf s h).isSome then loseDesc s h
      else
        match r with
        | .replicate => if a.follow then s else ackOp s h st
        | .query q =>
          (match s.forager.queries.find? (fun x => x.2.1 == h) with
            | none => s
            | some x =>
              let s := { s with forager := { s.forager with queries := removeFirst (fun y => y == x) s.forager.queries } }
              if st == stOk then finishQuery s x.1 h x.2.2.2 q else refuseReq s x.1 st h)
        | .lookup k =>
          (match s.forager.queries.find? (fun x => x.2.1 == h && x.2.2.1 == m.src.toNat) with
            | none => s
            | some x =>
              let s := { s with forager := { s.forager with queries := removeFirst (fun y => y == x) s.forager.queries } }
              finishCmd s x.1 st (if st == stOk then k else 0))
        | .create k lease => onCreateReply s m k lease
        | .claim =>
          (match descOf s h with
            | some d =>
              if st != stOk && endedUnowned d then endUnowned s d
              else if st != stOk && d.state == .receiving then
                let s := freeDesc (relay s h noticeCleared 0 st none) h
                if d.cmd = 0 then s else finishCmd s d.cmd st 0
              else s
            | none => s)
        | .renew lease =>
          if st == stOk then
            let s := descMod s h fun d => { d with lease := max d.lease lease }
            { s with forager := { s.forager with asked := s.forager.asked.filter fun a => !(a.handle == h && bodyType a.body == 2) } }
          else if fencedBy s h st then fenceDesc s h st else s
        | .propose =>
          if st == stOk then s
          else if fencedBy s h st then fenceDesc s h st
          else if ((descOf s h).map fun d => d.state == .handingOut).getD false then callOff s h st else s
        | .commit b cb =>
          if st == stOk || st == stDuplicateDropped then
            let s := commitDone s h b a.mirror
            if a.mirror || st != stOk then s else setTip s h cb
          else if fencedBy s h st then fenceDesc s h st
          else if st == stNoResource then descMod s h fun d => { d with retry := d.retry ++ [(b, a.mirror)] }
          else commitDone s h b a.mirror
        | .tokens => if fencedBy s h st then fenceDesc s h st else onTokensReply s m
        | .fetch =>
          if st == stOk then s
          else if ((descOf s h).map fun d => d.state == .fetching).getD false then fenceDesc s h st else s
        | .end_ =>
          (match descOf s h with
            | some d =>
              if d.state != .ending then s
              else
                let s := relay s h noticeReleased d.epoch d.endStatus none
                let s := if d.cmd = 0 then s else finishCmd s d.cmd (if st == stOk then stOk else st) (if st == stOk then d.clen else 0)
                let s := endReply s d (if st == stOk then d.endStatus else st)
                freeDesc s h
            | none => s)
        | .other => s

/-! ## Boundary work of the foragers (R137, R153, R154, R160) -/

/-- A lead whose lease has not been raised fences at the boundary of its LEASE; on a home, the record is reassigned. -/
def leaseFence (s : State) (h : DWord) : State :=
  match descOf s h with
  | none => s
  | some d =>
    let owning := d.state == .fetching || d.state == .active || d.state == .handingOut || d.state == .adopted
    if d.lead && owning && hasBeat s && decide (d.lease ≤ now s) then fenceDesc s h stLeaseExpired else s

def leaseReassign (s : State) (h : DWord) : State :=
  if servesHome s h && hasBeat s && ((recOf s h).map fun r =>
      (r.data.state == recOwned || r.data.state == recPending) && decide (r.data.lease ≤ now s)).getD false &&
      !s.forager.homeOps.any (fun o => o.handle == h && o.msg == .leaseReassign h) then
    homeOp s (.leaseReassign h)
  else s

/-- FENCED descriptors return to FREE at the boundary after they were fenced. -/
def freeFenced (s : State) : State :=
  (s.forager.descs.filter fun d => d.state == .fenced).foldl (fun s d => freeDesc s d.handle) s

/-- COMMITs refused for want of a page are sent again, and those that waited for a summary leave once they can (R116, R160). -/
def recommit (s : State) : State :=
  s.forager.descs.foldl (fun s d =>
    let s := (((descOf s d.handle).map fun d => d.unsent).getD []).foldl (fun s b => offerBlock s d.handle b) s
    let rs := ((descOf s d.handle).map fun d => d.retry).getD []
    let s := descMod s d.handle fun d => { d with retry := [] }
    rs.foldl (fun s r => sendCommit s d.handle r.1 r.2) s) s

/-- RENEW in every beat from half a lease before LEASE (R153). -/
def renew (s : State) : State :=
  let half := leaseBeats s / 2
  (s.forager.descs.filter fun d =>
    d.lead && (d.state == .fetching || d.state == .active || d.state == .handingOut || d.state == .adopted) &&
    decide (d.lease - half ≤ now s)).foldl (fun s d => askHome s d.handle d.epoch .renew) s

/-! ## What the forager's reads of its tables meet (R341) -/

/-- Some page-table entry of a list reads as poisoned. -/
def pagesPoisoned (s : State) (ns : List Nat) : Bool :=
  ns.any fun n => n != noPage && rangePoisoned s (cbase s rKvPtBaseLo rKvPtBaseHi + 32 * n) 32

/-- A descriptor, or the page-table entry of a page in its map, reads as poisoned. -/
def descPoisoned (s : State) (d : Desc) : Bool :=
  rangePoisoned s (cbase s rFgDescBaseLo rFgDescBaseHi + 128 * d.idx) 128 ||
  ((descLayout s d).map fun l => pagesPoisoned s ((List.range (mapEntries l)).map fun i => rangeNat s (d.map + 4 * i) 4)).getD false

/-- A home record, a line of its token log, or the page-table entry of a page in its map, reads as poisoned. -/
def recPoisoned (s : State) (r : HomeRec) : Bool :=
  rangePoisoned s (cbase s rFgHomeBaseLo rFgHomeBaseHi + 64 * r.idx) 64 || pagesPoisoned s (r.map.map (·.2)) ||
  r.tlog.any fun e => linePoisoned s (lineOf ((Config.tokenLogAt r.data.handle).toNat + 4 * e.1))

/-- A record so read is FREE, and its request ends with ST_POISONED. DESIGN CHOICE (log 99): the home that serves the handle tells the
owner with EXPIRED and the status, and has the partner free its copy. -/
def dropPoisonedRec (s : State) (r : HomeRec) : State :=
  let h := r.data.handle
  let serves := servesHome s h
  let s := if serves then freeBoth s h else freeRec s h
  if !serves then s
  else match r.data.owner with
    | some o => notice s o h noticeExpired r.data.epoch stPoisoned none
    | none => s

/-- A prefix entry so read becomes invalid; its references go only if its LIST reads clean. -/
def dropPoisonedPfx (s : State) (e : PfxEntry) : State :=
  if rangePoisoned s (Config.pfxListAt e.index).toNat (4 * e.pages.length) then
    { s with forager := { s.forager with pfx := s.forager.pfx.filter fun x => x.index != e.index } }
  else pfxEvict s e

/-- Some line of the range reads as poisoned at all. -/
def anyPoison (s : State) : Bool :=
  !s.tiers.poison.isEmpty || s.tiers.tiles.any fun t => placeFailed s t.2.place

/-- What the forager's tables read as (R341). DESIGN CHOICE (log 99): the forager reads every valid entry once at each boundary. -/
def readTables (s : State) : State :=
  if !anyPoison s then s
  else
    let s := (s.forager.descs.filter fun d => d.state != .fenced && descPoisoned s d).foldl endPoisoned s
    let s := (s.forager.recs.filter (recPoisoned s)).foldl dropPoisonedRec s
    (s.forager.pfx.filter (pfxPoisoned s)).foldl dropPoisonedPfx s

/-- Step 2 of R28 for the foragers. -/
def foragerBoundary (s : State) : State :=
  let s := beginActing (returnDuty (readTables s))
  let s := freeFenced s
  let s := s.forager.descs.foldl (fun s d => leaseFence s d.handle) s
  let s := s.forager.recs.foldl (fun s r => leaseReassign s r.data.handle) s
  let s := foragerSends s
  if hasBeat s then renew (recommit s) else s

end Sys2Proof.Machine
end

