-- ==== Sys2Proof/Machine/Sched.lean ====
section
/-!
DEFINITION. The scheduler (spec/09_scheduling_contexts.md): residency slots, contexts and their swaps (R200–R211), aborts (R216), request
slots (R204, R205), schedule entries (R31, R62), the MIXED split (R217–R219), the context commands (R201, R202).
-/

namespace Sys2Proof.Machine

/-! ## Slots and contexts -/

def ctxOf (s : State) (n : Nat) : Option Ctx := tget s.sched.ctxs n
def ctxSet (s : State) (n : Nat) (x : Ctx) : State := { s with sched := { s.sched with ctxs := tset s.sched.ctxs n x } }
def ctxMod (s : State) (n : Nat) (f : Ctx → Ctx) : State := { s with sched := { s.sched with ctxs := tmod s.sched.ctxs n f } }

/-- The residency slots of the held image. -/
def imageSlots (s : State) : List ResSlot := (s.sched.image.map fun p => p.1.slots).getD []
def slotCells (s : State) (rs : Nat) : List SlotCell := (((imageSlots s)[rs]?).map fun x => x.cells).getD []

/-- Workers a mask names. -/
def maskList (m : BitVec 16) : List Nat := (List.range 16).filter m.getLsbD

/-- Bytes of a slot's swap record (R208). -/
def recordSize (x : ResSlot) : Nat :=
  (x.cells.map fun c => c.size + 2592 * (maskList c.workers).length + (if c.engine then 100480 else 0) + 18432).sum

/-- The slots of a class, lowest first. -/
def classSlots (s : State) (cls : Nat) : List Nat :=
  let m := ((s.sched.image.bind fun p => p.1.classes[cls]?).map fun w => w.toNat).getD 0
  (List.range (imageSlots s).length).filter fun n => bit m n == 1

/-- The context that occupies a slot. -/
def occupant (s : State) (rs : Nat) : Option (Nat × Ctx) := s.sched.ctxs.find? fun e => e.2.rs == some rs

/-- The RESIDENT context of a slot. -/
def residentOf (s : State) (rs : Nat) : Option (Nat × Ctx) :=
  match occupant s rs with
  | some e => if e.2.state == .resident then some e else none
  | none => none

/-- Cells that hold a window of a context. -/
def cellsOf (s : State) (ctx : Nat) : List Nat := (s.grid.cells.filter fun e => e.2.windows.any fun w => w.ctx == ctx).map (·.1)

/-- Takes a context's windows, bindings and barriers off the cells; its workers are IDLE (R42). -/
def uninstall (s : State) (ctx : Nat) : State :=
  let s := (cellsOf s ctx).foldl (fun s c =>
    let s := idleWorkers s c ctx fun _ => false
    let x := cellGet s c
    cellSet s c { x with
      windows := x.windows.filter fun w => w.ctx != ctx
      ports := x.ports.filter fun e => e.2.ctx != ctx
      chans := x.chans.filter fun e => e.2.ctx != ctx }) s
  { s with grid := { s.grid with barriers := s.grid.barriers.filter fun e => e.2.ctx != ctx } }

/-- Sets the windows of a slot's cells for a context, and installs its bindings and barriers (R62). -/
def install (s : State) (ctx rs : Nat) : State :=
  match s.sched.image with
  | none => s
  | some (im, _) =>
    let s := (slotCells s rs).foldl (fun s k =>
      let x := cellGet s k.cell
      let e := x.engine
      cellSet s k.cell { x with
        windows := x.windows ++ [{
          ctx := ctx, rs := rs, base := k.base, size := k.size, code := k.code, workers := k.workers, engine := k.engine }]
        workers := (maskList k.workers).foldl (fun t w => terase t w) x.workers
        engine := if k.engine then { e with bufs := [], tiles := [], stationary := [], queue := [], cold := true, streaming := false } else e }) s
    let s := (im.bindings.filter fun b => b.rs == rs).foldl (fun s b =>
      let s := portSet s b.srcCell b.port { ctx := ctx, dstCell := b.dstCell, channel := b.channel, credits := 8 }
      chanSet s b.dstCell b.channel { ctx := ctx, srcCell := b.srcCell, srcPort := b.port }) s
    (im.barriers.filter fun b => b.rs == rs).foldl (fun s b =>
      { s with grid := { s.grid with barriers := tset s.grid.barriers b.barrier { ctx := ctx, expected := b.expected } } }) s

/-- Copies the code sections and initial data of a slot into its windows, read from the held image in HBM (R62, R210, R221). -/
def copyCode (s : State) (ctx rs : Nat) : State :=
  match s.sched.image with
  | none => s
  | some (im, _) =>
    (im.code.filter fun k => k.rs == rs).foldl (fun s k =>
      match winOfCtx s k.cell ctx with
      | none => s
      | some w =>
        let s := charge s (ctxClient s ctx) 2 6 k.bytes.length
        let x := cellGet s k.cell
        let lines := (k.bytes.map fun e => lineOf (w.base + e.1)).eraseDups
        cellSet s k.cell { x with
          mem := k.bytes.foldl (fun m e => mset m (w.base + e.1) e.2) x.mem
          poison := x.poison.filter fun l => !lines.contains l }) s

/-! ## Aborts (R216) -/

/-- A request of an aborted or destroyed context ends as by OP_CANCEL_REQUEST, and every command on it takes the status (R216).
DESIGN CHOICE (log 39): a member's descriptor, which ends nothing at the home, is FREE at once, and one whose handoff has passed the
request on writes no END (R306). -/
def abortRequest (s : State) (st : Half) (d : Desc) : State :=
  let s := dropStep (descMod (endCommands s d st) d.handle fun d => { d with cmd := 0 }) d.handle
  if d.state == .ending || d.state == .fenced then s
  else if d.state == .passed || !d.lead then freeDesc s d.handle
  else endRequest s d.handle st 0

def endRequests (s : State) (ctx : Nat) (st : Half) : State :=
  ((s.forager.descs.filter fun d => d.ctx == ctx).foldl (fun s d => abortRequest s st d) s)

/-- Everything of a context on the cells stops; nothing is recorded (R58, R85). -/
def stopOnCells (s : State) (ctx : Nat) : State :=
  (cellsOf s ctx).foldl (fun s c =>
    let s := idleWorkers s c ctx fun _ => false
    let s := (dropMatQueue s c ctx).1
    (muteDma s c ctx).1) s

/-- A context leaves its slot. -/
def leaveSlot (s : State) (n : Nat) : State :=
  match ctxOf s n with
  | none => s
  | some x =>
    let s := match x.rs with
      | some rs => releaseReserved s rs
      | none => s
    let s := uninstall s n
    let s := ctxMod s n fun x => { x with
      rs := none, assigned := none, chosen := none, evicted := false, force := false, drained := false, saved := false, restored := false
      blocked := none, runnable := none, finished := [], discarded := [], semsOut := [], queues := [] }
    { s with sched := { s.sched with blocks := s.sched.blocks.filter fun b => b.ctx != n } }

/-- The abort of a context, with its error record (R216, R346). -/
def makeAbort (s : State) (n : Nat) (st : Half) : State :=
  match ctxOf s n with
  | none => s
  | some x =>
    if x.state == .aborted then ctxMod s n fun x => { x with abort := none }
    else
      let s := stopOnCells s n
      let s := releaseSems s n
      let s := leaveSlot s n
      let s := ctxMod s n fun x => { x with state := .aborted, abort := none, record := none }
      let s := endRequests s n st
      let s := (errRecord (satAdd s rSqAbortCount 31 0 1) rSqErr (n * 2 ^ 16 + st.toNat) []).1
      event s { sev := sevError, src := srcSched, status := st, client := some x.client, obj := n }

/-- A context becomes FREE: its swap record is released, and a protected record's tiles are ZERO (R202, R366). -/
def freeCtx (s : State) (n : Nat) : State :=
  match ctxOf s n with
  | none => s
  | some x =>
    let s := if x.prot then x.swapRuns.foldl (fun s r => zeroRange s (r.1 * tileSize) (r.2 * tileSize)) s else s
    { s with sched := { s.sched with ctxs := terase s.sched.ctxs n } }

/-- Step 3 of R28, first: the aborts that are due, and the destroys that waited for theirs (R202, R206). -/
def makeAborts (s : State) : State :=
  s.sched.ctxs.foldl (fun s e =>
    let s := match e.2.abort with
      | some st => makeAbort s e.1 st
      | none => s
    match e.2.destroy with
    | some cmd => finishCmd (freeCtx (makeAbort s e.1 stContextAborted) e.1) cmd stOk 0
    | none => s) s

/-! ## Swapping out (R209, R211, R215) -/

/-- Nothing of the context is left to drain: started descriptors, messages and credits in the mesh. -/
def drainDone (s : State) (n : Nat) : Bool :=
  !(cellsOf s n).any (fun c => (cellGet s c).dma.any fun d => d.ctx == n && d.saved) &&
  !s.grid.msgs.any (fun m => m.ctx == n) &&
  !s.grid.credits.any (fun p => ((tget (cellGet s p.1).ports p.2).map fun x => x.ctx == n).getD false)

/-- A pre-emption or eviction proceeds. -/
def swapOut (s : State) (n : Nat) : State :=
  match ctxOf s n with
  | none => s
  | some x =>
    let s := satAdd s rSqPreemptCount 31 0 1
    let s := if x.evicted then setEvent s rSqEvent 0 else s
    let force := holdsUnits s n
    let (s, sems) := withdrawSems s n
    let s := match x.rs with
      | some rs => releaseReserved s rs
      | none => s
    let s := ctxMod s n fun x => { x with state := .swappingOut, chosen := none, force := force, semsOut := sems, blocked := none }
    let s := (cellsOf s n).foldl (fun s c =>
      let (s, q) := dropMatQueue s c n
      let (s, gone) := muteDma s c n true
      ctxMod s n fun x => { x with
        queues := tset x.queues c q, discarded := x.discarded ++ gone.map fun g => (c, g.1, g.2) }) s
    ctxMod s n fun x => { x with drained := drainDone s n }

/-- SWAP_DRAIN_COMPLETE: the record may be written. -/
def swapDrained (s : State) (n : Nat) : State :=
  ctxMod s n fun x => if x.state == .swappingOut && drainDone s n then { x with drained := true } else x

/-- One cell of a swap record: bytes and poisoned lines by window offset. -/
def saveCell (s : State) (n c : Nat) (w : Win) (q : List MatOp) : SwapCell :=
  let x := cellGet s c
  { cell := c
    mem := (x.mem.filter fun e => decide (w.base ≤ e.1) && decide (e.1 < w.base + w.size)).map fun e => (e.1 - w.base, e.2)
    poison := (x.poison.filter fun l => decide (lineOf w.base ≤ l) && decide (l < lineOf (w.base + w.size))).map fun l => l - lineOf w.base
    workers := x.workers.filter fun e => w.workers.getLsbD e.1
    engine := if w.engine then some x.engine else none
    queue := q
    ports := x.ports.filter fun e => e.2.ctx == n
    chans := x.chans.filter fun e => e.2.ctx == n }

/-- The barriers that the image gives a slot, in its order. -/
def slotBarriers (s : State) (rs : Nat) : List BarrierAlloc :=
  (s.sched.image.map fun p => p.1.barriers.filter fun b => b.rs == rs).getD []

/-- The device writes a context's record into its tiles of the swap area: they are backed, accessed and clean of poison (R226, R341). -/
def putRecord (s : State) (x : Ctx) : State :=
  x.swapRuns.foldl (fun s r => touchOwn s (r.1 * tileSize) (r.2 * tileSize)) s

/-- The line of the range at which line `k` of a record lies. -/
def recordLine : List (Nat × Nat) → Nat → Option Nat
  | [], _ => none
  | r :: rs, k => if k < r.2 * 512 then some (r.1 * 512 + k) else recordLine rs (k - r.2 * 512)

/-- The device reads a context's record: its tiles are accessed, and findings on its lines count (R210, R238, R241). -/
def readRecord (s : State) (x : Ctx) (found : Findings) : State :=
  let s := x.swapRuns.foldl (fun s r => touchRange s (r.1 * tileSize) (r.2 * tileSize)) s
  found.foldl (fun s f => match recordLine x.swapRuns f.1 with
    | some l => memoryEcc s l f.2
    | none => s) s

/-- Data of a context's record is lost: a poisoned line, or a tile on a channel that failed (R237). -/
def recordLost (s : State) (x : Ctx) : Bool :=
  let holds := fun (t : Nat) => x.swapRuns.any fun r => decide (r.1 ≤ t) && decide (t < r.1 + r.2)
  s.tiers.poison.any (fun l => holds (l / 512)) || s.tiers.tiles.any fun e => holds e.1 && placeFailed s e.2.place

/-- SWAP_SAVE_COMPLETE: the record stands in the swap area (R208, R209); its bytes are charged as DDR5 writes (R221). -/
def swapSaved (s : State) (n : Nat) : State :=
  match ctxOf s n with
  | none => s
  | some x =>
    match x.rs with
    | none => s
    | some rs =>
      if x.state != .swappingOut || !x.drained || x.saved || x.force then s
      else
        let cells := (slotCells s rs).filterMap fun k =>
          (winOfCtx s k.cell n).map fun w => saveCell s n k.cell w (tgetD x.queues k.cell [])
        let bars := (slotBarriers s rs).map fun b => tgetD s.grid.barriers b.barrier { ctx := n, expected := b.expected }
        let r : SwapRec := {
          rs := rs, cells := cells, barriers := bars, finished := x.finished, discarded := x.discarded, sems := x.semsOut }
        let s := charge s x.client 5 9 ((((imageSlots s)[rs]?).map recordSize).getD 0)
        let s := satAdd (putRecord s x) rSqSwapCount 31 0 1
        ctxMod s n fun x => { x with saved := true, record := some r }

/-! ## Swapping in (R210) -/

/-- The cell of the new slot that takes the place of a cell of the old one: slots of a class are matched by their order. -/
def mapCell (s : State) (old new c : Nat) : Nat :=
  match (slotCells s old).findIdx? (fun k => k.cell == c) with
  | some i => (((slotCells s new)[i]?).map fun k => k.cell).getD c
  | none => c

/-- A resumed matrix instruction takes its codebook reference again, or fails (R210). -/
def requeueMat (s : State) (c n : Nat) (op : MatOp) : State :=
  let put := fun (s : State) (op : MatOp) =>
    let e := engGet s c
    engSet s c { e with queue := e.queue ++ [{ op with ctx := n }] }
  match op.insn with
  | .mma t b addr mode (some _) none desc =>
    let d := parseCbDesc desc
    match findSlot s c d.version (· == .live) with
    | some j =>
      let x := slotGet s c j
      put (slotSet s c j { x with refs := x.refs + 1 }) { op with insn := .mma t b addr mode (some j) none desc }
    | none =>
      put (prismFail s c addr d.version 0 stCodebookAbsent) { op with insn := .mma t b addr mode none (some stCodebookAbsent) desc }
  | _ => put s op

/-- The worker waits for a slot of the descriptor issued in the place of a discarded one; R58 places it in WAITING as an issue does. -/
def rewait (s : State) (c w : Nat) (id : Option Nat) : State :=
  match id, (workerGet s c w).wait, (workerGet s c w).state with
  | some id, .dmaSlot _, _ => setWait s c w (.dmaSlot id)
  | some id, _, .ready => setWait s c w (.dmaSlot id)
  | _, _, _ => s

/-- Workers of a context that waited for a slot of a descriptor which is no longer beyond the 32 in flight are READY. -/
def endSlotWaits (s : State) (n : Nat) : State :=
  (cellsOf s n).foldl (fun s c =>
    let beyond := ((cellGet s c).dma.drop 32).map fun d => d.id
    (((winOfCtx s c n).map fun w => maskList w.workers).getD []).foldl (fun s w =>
      match (workerGet s c w).wait with
      | .dmaSlot id => if beyond.contains id then s else wake s c w
      | _ => s) s) s

/-- Puts a recorded cell in place. -/
def restoreCell (s : State) (n : Nat) (k : SwapCell) (c : Nat) : State :=
  match winOfCtx s c n with
  | none => s
  | some w =>
    let x := cellGet s c
    let e := x.engine
    let s := cellSet s c { x with
      mem := k.mem.foldl (fun m b => mset m (w.base + b.1) b.2) (mclear x.mem w.base w.size)
      poison := k.poison.foldl (fun p l => insertNat (lineOf w.base + l) p)
        (x.poison.filter fun l => decide (l < lineOf w.base) || decide (lineOf (w.base + w.size) ≤ l))
      workers := (k.workers.filter fun e => w.workers.getLsbD e.1).foldl (fun t e => tset t e.1 e.2) x.workers
      engine := match k.engine with
        | some old => if w.engine then { e with bufs := old.bufs, tiles := old.tiles } else e
        | none => e
      ports := x.ports.map fun e => match tget k.ports e.1 with
        | some p => if e.2.ctx == n then (e.1, { e.2 with credits := p.credits, waiters := p.waiters }) else e
        | none => e
      chans := x.chans.map fun e => match tget k.chans e.1 with
        | some p => if e.2.ctx == n then (e.1, { e.2 with queue := p.queue, waiters := p.waiters }) else e
        | none => e }
    k.queue.foldl (fun s op => requeueMat s c n op) s

/-- Steps 2 to 5 of R210, after the cells are in place. -/
def restoreRest (s : State) (n rs : Nat) (r : SwapRec) : State :=
  let cell := mapCell s r.rs rs
  let s := r.finished.foldl (fun s f =>
    let c := cell f.1
    match winOfCtx s c n with
    | none => s
    | some w => incCounter (cellWrite s c (w.base + f.2.2.1) (leBytes 2 f.2.2.2.2.toNat)) c f.2.1 f.2.2.2.1) s
  let s := r.discarded.foldl (fun s g =>
    let c := cell g.1
    match winOfCtx s c n with
    | none => s
    | some w =>
      let (s, id) := takeDma s c g.2.1 w g.2.2
      rewait s c g.2.1 id) s
  let s := endSlotWaits s n
  let s := ((slotBarriers s rs).zip r.barriers).foldl (fun s b =>
    { s with grid := { s.grid with barriers := tset s.grid.barriers b.1.barrier { b.2 with
        ctx := n, expected := b.1.expected, waiting := b.2.waiting.map fun p => (cell p.1, p.2) } } }) s
  r.sems.foldl (fun s q =>
    match semOf s q.1 with
    | none => s
    | some m => grantSem (semSet s q.1 { m with
        queue := m.queue ++ [{ cell := cell q.2.1, worker := q.2.2.1, ctx := n, units := q.2.2.2.1, ctr := q.2.2.2.2 }] }) q.1) s

/-- SWAP_RESTORE_COMPLETE: the record is in the cells, or the code copy of a context without one; RESIDENT at the next boundary. A
context whose record has lost data is aborted instead (R237). -/
def swapRestored (s : State) (n : Nat) (found : Findings) : State :=
  match ctxOf s n with
  | none => s
  | some x =>
    match x.rs with
    | none => s
    | some rs =>
      if x.state != .swappingIn || x.restored then s
      else if x.record.isSome && recordLost (readRecord s x found) x then abortCtx (readRecord s x found) n stContextAborted
      else
        let s := install (if x.record.isSome then readRecord s x found else s) n rs
        let s := match x.record with
          | none => copyCode s n rs
          | some r =>
            let s := charge s x.client 4 8 ((((imageSlots s)[r.rs]?).map recordSize).getD 0)
            restoreRest (r.cells.foldl (fun s k => restoreCell s n k (mapCell s r.rs rs k.cell)) s) n rs r
        ctxMod (satAdd s rSqSwapCount 31 0 1) n fun x => { x with restored := true, record := none }

/-! ## Residency decisions (R203, R206, R207) -/

/-- The conditions of R203 as they stand now: no worker can run, one waits, no descriptor, an empty engine queue. -/
def allWait (s : State) (n : Nat) : Bool :=
  let cs := cellsOf s n
  let states := cs.flatMap fun c =>
    match winOfCtx s c n with
    | some w => (maskList w.workers).map fun k => (workerGet s c k).state
    | none => []
  states.all (fun t => t == .idle || t == .halted || t == .waiting) && states.any (· == .waiting) &&
  cs.all fun c => !(cellGet s c).dma.any (fun d => d.ctx == n) && !(engGet s c).queue.any (fun q => q.ctx == n)

/-- Follows, at a boundary, how long a RESIDENT context has been blocked. -/
def noteBlocked (s : State) (e : Nat × Ctx) : State :=
  let cond := e.2.state == .resident && allWait s e.1
  let full := cond && e.2.quietAt && !e.2.stirred
  ctxMod s e.1 fun x => { x with
    blocked := if full then some (x.blocked.getD (now s - 1)) else none, quietAt := cond, stirred := false }

def inCritical (s : State) (n : Nat) : Bool :=
  (cellsOf s n).any fun c => match winOfCtx s c n with
    | some w => (maskList w.workers).any fun k => 0 < (workerGet s c k).crit
    | none => false

def hasStep (s : State) (n : Nat) : Bool := s.sched.steps.any fun x => x.ctx == n

/-- The request queue of a context holds an ACTIVE request. -/
def hasWork (s : State) (n : Nat) : Bool := s.forager.descs.any fun d => d.ctx == n && d.state == .active

/-- Follows whether a SWAPPED context is runnable, and since when. -/
def noteRunnable (s : State) (e : Nat × Ctx) : State :=
  ctxMod s e.1 fun x =>
    if x.state == .swapped && decide (x.heldOut ≤ now s) && hasWork s e.1 then { x with runnable := some (x.runnable.getD (now s)) }
    else { x with runnable := none }

/-- Steps 1 and 2: restores and saves that completed, then force releases. -/
def endSwap (s : State) (e : Nat × Ctx) : State :=
  let (n, x) := e
  if x.state == .swappingIn && x.restored then
    let quiet := allWait s n
    ctxMod s n fun x => { x with state := .resident, restored := false, quietAt := quiet, stirred := false }
  else if x.state == .swappingOut && x.saved then
    let held := if x.evicted then now s + cfld s rSqCfg 7 0 else x.heldOut
    ctxMod (leaveSlot s n) n fun x => { x with state := .swapped, heldOut := held }
  else s

def forceRelease (s : State) (e : Nat × Ctx) : State :=
  if e.2.state == .swappingOut && e.2.force then makeAbort (setEvent s rSqEvent 2) e.1 stContextAborted else s

/-- Step 3: a deferred pre-emption proceeds once no step runs and no worker is critical, or four boundaries have passed (R207). -/
def retest (s : State) (e : Nat × Ctx) : State :=
  match e.2.chosen with
  | none => s
  | some b =>
    if e.2.state != .resident || hasStep s e.1 then s
    else
      let crit := inCritical s e.1
      if crit && decide (now s < b + 4) then s
      else swapOut (if crit then setEvent s rSqEvent 3 else s) e.1

/-- The least element by an order of pairs. -/
def leastBy (lt : Nat × Nat → Nat × Nat → Bool) (key : Nat × Ctx → Nat × Nat) : List (Nat × Ctx) → Option (Nat × Ctx)
  | [] => none
  | x :: xs =>
    match leastBy lt key xs with
    | none => some x
    | some y => if lt (key y) (key x) then some y else some x

def pairLt (a b : Nat × Nat) : Bool := decide (a.1 < b.1) || (a.1 == b.1 && decide (a.2 < b.2))

/-- A victim is chosen for X: it goes at once, or its pre-emption is deferred (R207). -/
def choose (s : State) (x v : Nat) (rs : Nat) (evict : Bool) : State :=
  let s := ctxMod s x fun x => { x with assigned := some rs }
  let s := ctxMod s v fun v => { v with evicted := evict, chosen := some (now s) }
  if hasStep s v || inCritical s v then s else swapOut s v

/-- Step 4 for one context. -/
def place (s : State) (n : Nat) : State :=
  match ctxOf s n with
  | none => s
  | some x =>
    let slots := classSlots s x.cls
    let taken := s.sched.ctxs.filterMap fun e => e.2.assigned
    match slots.find? (fun r => (occupant s r).isNone && !taken.contains r) with
    | some r => ctxMod s n fun x => { x with assigned := some r }
    | none =>
      let res := (slots.filterMap (residentOf s)).filter fun e => e.2.chosen.isNone
      let lower := res.filter fun e => decide (e.2.prio < x.prio)
      match leastBy pairLt (fun e => (e.2.prio, 32 - e.2.rs.getD 0)) lower with
      | some v => choose s n v.1 (v.2.rs.getD 0) false
      | none =>
        match leastBy pairLt (fun e => (e.2.blocked.getD 0, e.2.rs.getD 0)) (res.filter fun e => e.2.blocked.isSome) with
        | some v => choose s n v.1 (v.2.rs.getD 0) true
        | none => s

/-- The runnable contexts without a slot, by priority, runnable beat and number. -/
def candidates (s : State) : List Nat :=
  let cs := s.sched.ctxs.filter fun e => e.2.state == .swapped && e.2.runnable.isSome && e.2.assigned.isNone
  (sortBy (fun e => 7 - e.2.prio) (sortBy (fun e => e.2.runnable.getD 0) cs)).map (·.1)

/-- Step 5: an assigned context whose slot is free enters SWAPPING_IN. -/
def enterSlot (s : State) (e : Nat × Ctx) : State :=
  match e.2.assigned with
  | none => s
  | some r =>
    if e.2.state == .swapped && (occupant s r).isNone then
      ctxMod s e.1 fun x => { x with state := .swappingIn, rs := some r, assigned := none, runnable := none, restored := false }
    else s

/-- The decisions of R206 at a boundary with a beat number, after its aborts. -/
def residency (s : State) : State :=
  let each := fun (s : State) (f : State → Nat × Ctx → State) => s.sched.ctxs.foldl f s
  let s := each s noteBlocked
  let s := each s endSwap
  let s := each s forceRelease
  let s := each s retest
  let s := each s noteRunnable
  let s := (candidates s).foldl place s
  each s enterSlot

/-! ## OP_CONTEXT_CREATE, OP_CONTEXT_DESTROY (R201, R202, R208) -/

/-- The free runs of the swap area, from tile `at_` on; `used` in rising order. -/
def freeRuns : Nat → Nat → List (Nat × Nat) → List (Nat × Nat)
  | at_, end_, [] => if at_ < end_ then [(at_, end_ - at_)] else []
  | at_, end_, (f, n) :: us => (if at_ < f then [(at_, f - at_)] else []) ++ freeRuns (max at_ (f + n)) end_ us

/-- The first `n` tiles of a list of runs. -/
def takeRuns : Nat → List (Nat × Nat) → Option (List (Nat × Nat))
  | 0, _ => some []
  | _ + 1, [] => none
  | n + 1, (f, k) :: rs => if n + 1 ≤ k then some [(f, n + 1)] else (takeRuns (n + 1 - k) rs).map ((f, k) :: ·)

/-- Tiles reserved for a context's record: those of the largest slot of its class. -/
def reserveSwap (s : State) (cls : Nat) : Option (List (Nat × Nat)) :=
  let size := ((classSlots s cls).map fun r => (((imageSlots s)[r]?).map recordSize).getD 0).foldl max 0
  let first := tileOf (cbase s rSqSwapBaseLo rSqSwapBaseHi)
  let used := sortBy (fun (r : Nat × Nat) => r.1) (s.sched.ctxs.flatMap fun e => e.2.swapRuns)
  takeRuns ((size + tileSize - 1) / tileSize) (freeRuns first (first + cget s rSqSwapTiles) used)

/-- The lowest context number that is FREE. -/
def freeCtxNumber (s : State) : Nat := firstGap 0 (s.sched.ctxs.map (·.1))

def contextCreate (s : State) (cmd fn : Nat) (a : ContextArg) : State :=
  let base := a.base.toNat
  let size := a.size.toNat
  let classes := (s.sched.image.map fun p => p.1.classes.length).getD 0
  let noProt := (s.sched.image.bind fun p => p.1.prot).isNone
  if !jobStarted s || classes ≤ a.cls.toNat || 7 < a.priority.toNat || (a.prot && noProt) then refuseCmd s cmd stBadField
  else if size = 0 then refuseCmd s cmd stBadLength
  else if base % tileSize != 0 || size % tileSize != 0 || !inRange s base size then refuseCmd s cmd stBounds
  else if (!a.prot && s.remote.regions.any fun e => e.2.prot && overlaps base size e.2.base e.2.length) || (a.prot && instrumentOpen s) then
    refuseCmd s cmd stRights
  else
    match reserveSwap s a.cls.toNat with
    | none => refuseCmd s cmd stNoResource
    | some runs =>
      let n := freeCtxNumber s
      if 4128 ≤ n || (a.prot && s.sec.xtsFrom.isNone) then refuseCmd s cmd stNoResource
      else
        let s := if a.prot then runs.foldl (fun s r => zeroRange s (r.1 * tileSize) (r.2 * tileSize)) s else s
        finishCmd (ctxSet s n {
          client := fn, cls := a.cls.toNat, prio := a.priority.toNat, prot := a.prot, base := base, size := size, swapRuns := runs }) cmd stOk n

def contextDestroy (s : State) (cmd fn n : Nat) : State :=
  match ctxOf s n with
  | none => finishCmd s cmd stOkNoop 0
  | some x =>
    if x.client != fn then refuseCmd s cmd stClientMismatch
    else
      match x.state with
      | .swapped => finishCmd (freeCtx (leaveSlot (endRequests s n stContextAborted) n) n) cmd stOk 0
      | .aborted => finishCmd (freeCtx s n) cmd stOk 0
      | _ =>
        match x.destroy with
        | some _ => finishCmd s cmd stOkNoop 0
        | none => ctxMod s n fun x => { x with destroy := some cmd }

/-! ## Deadline misses (R34, R35) -/

/-- One miss of deadline beat `b`: counted, logged, flagged, reported; kinds 1, 4, 5 and 7 cost 16 demerits (R34, R346). -/
def missDeadline (s : State) (kind client b : Nat) (status : Half) : State :=
  let s := satAdd s rBtMissCount 31 0 1
  let s := rset (rset s rBtMissLogLo (b % 2 ^ 32)) rBtMissLogHi (kind * 2 ^ 24 + client % 256 * 2 ^ 16 + b / 2 ^ 32 % 2 ^ 16)
  let s := setEvent s rBtEvent 5
  event s { sev := sevDegraded, src := srcBeat, status := status, client := some client }
    (if kind == 1 || kind == 4 || kind == 5 || kind == 7 then 16 else 0)

/-! ## Request steps (R165, R204, R205) -/

/-- Beats from an entry's offset to an end offset of the frame; a span of zero is a whole frame. -/
def spanTo (frame start end_ : Nat) : Nat :=
  let k := (end_ + frame - start) % frame
  if k = 0 then frame else k

/-- A step has a layer whose write falls on the current beat. -/
def writesNow (s : State) (x : Step) : Bool := x.att.any fun t => x.start + t.writeOff == now s

/-- Runs `f` for every layer of a request's step, while the step runs and has a layout. -/
def eachLayer (f : State → Desc → Layout → Step → AttEntry → State) (s : State) (h : DWord) : State :=
  match stepOf s h with
  | none => s
  | some x => x.att.foldl (fun s t =>
      match stepOf s h, descOf s h with
      | some x, some d => match descLayout s d with
        | some l => f s d l x t
        | none => s
      | _, _ => s) s

/-- The layers of a step whose append falls on the current beat (R121, R126). -/
def stepWrites : State → DWord → State := eachLayer fun s d l x t =>
  if x.start + t.writeOff = now s then
    let (s, st) := appendLayer s l x.ctx d.client d.map x.clen x.e t
    match st with
    | some st => failStep s x.handle st
    | none => tryEndStep (stepMod s x.handle fun x => { x with written := x.written ++ [t.layer] }) x.handle
  else s

/-- The layers of a step whose stage begins on the current beat (R121). -/
def stepStages : State → DWord → State := eachLayer fun s d l x t =>
  if x.start + t.stageOff = now s then
    let s := beginStage s l x.handle d.map x.clen x.e (x.start + t.dueOff) t
    tryEndStep (stepMod s x.handle fun x => { x with staged := x.staged ++ [t.layer] }) x.handle
  else s

/-- What the running steps do at a boundary, in the order of R119: stages through maps that no write names now, the writes, and the
stages through the maps they wrote. -/
def stepOffsets (s : State) : State :=
  let (writers, readers) := s.sched.steps.partition (writesNow s)
  let run := fun (f : State → DWord → State) (xs : List Step) (s : State) => (xs.map fun x => x.handle).foldl f s
  run stepStages writers (run stepWrites writers (run stepStages readers s))

/-- A generation step is placed (R165, R177, R205). -/
def placeGeneration (s : State) (ctx end_ draftSlots : Nat) (att : List AttEntry) (d : Desc) : State :=
  let maxpos := ((descLayout s d).map fun l => l.maxpos).getD 0
  let h := d.handle
  let x : Step := {
    handle := h, ctx := ctx, gen := true, start := now s, deadline := end_, clen := d.clen, e := d.clen + 1, draftSlots := draftSlots, att := att }
  let add := fun (s : State) (x : Step) => { s with sched := { s.sched with steps := s.sched.steps ++ [x] } }
  if d.clen + 1 < d.clenh then
    let e := min (d.clen + 33) (d.clenh - 1)
    add (descMod s h fun d => { d with slen := e }) { x with e := e, recompute := true }
  else if maxpos < d.clen + 1 then
    let s := setEvent s rSqEvent 4
    endRequest s h stBounds 0
  else
    let (s, st) := samplingSetup s h
    let (s, n) := fixDraft s h (now s) draftSlots st.isSome
    let s := match (descOf s h).bind fun d => d.gslot with
      | some j => activateBanks s j
      | none => s
    let e := d.clen + n + 1
    add (descMod s h fun d => { d with slen := e }) { x with e := e, d := n, fail := st }

/-- A prefill chunk of `k` positions is placed; the last one makes the sampling setup (R172, R204). Where the log already reaches beyond
the prompt, the chunk recomputes and samples nothing (R165). -/
def placePrompt (s : State) (ctx end_ k : Nat) (att : List AttEntry) (d : Desc) : State :=
  let h := d.handle
  let e := d.clen + k
  let (s, st) := if e = d.plen && decide (d.clenh ≤ d.plen) then samplingSetup s h else (s, none)
  let s := match (descOf s h).bind fun d => d.gslot with
    | some j => activateBanks s j
    | none => s
  { descMod s h (fun d => { d with slen := e }) with sched := { (descMod s h fun d => { d with slen := e }).sched with
      steps := s.sched.steps ++ [{
        handle := h, ctx := ctx, gen := false, start := now s, deadline := end_, clen := d.clen, e := e, draftSlots := 0, att := att, fail := st
        recompute := decide (d.plen < d.clenh) }] } }

/-- A request slot is filled from the queue of the context RESIDENT in its residency slot (R204). -/
def fillRequestSlot (s : State) (rs start : Nat) (gen : Bool) (capacity endOff draftSlots : Nat) (att : List AttEntry) : State :=
  match residentOf s rs, s.sched.image with
  | some (n, x), some (im, _) =>
    if x.chosen.isSome then s
    else
      let end_ := now s + spanTo im.frame start endOff
      let ds := sortBy (fun d => d.order) (s.forager.descs.filter fun d =>
        d.ctx == n && d.state == .active && inPrompt d != gen && (stepOf s d.handle).isNone)
      (ds.foldl (fun (p : State × Nat) d =>
        let (s, room) := p
        if room = 0 then p
        else if gen then
          let t := placeGeneration s n end_ draftSlots att d
          (t, if (stepOf t d.handle).isSome then room - 1 else room)
        else
          let k := min (min (d.plen - d.clen) room) 32768
          (placePrompt s n end_ k att d, room - k)) (s, capacity)).1
  | _, _ => s

/-! ## Schedule entries (R31, R62) -/

/-- A cell work block starts: each named worker is READY at the entry point (R62). -/
def startBlock (s : State) (rs off endOff frame : Nat) (workers : List (Nat × Nat)) (entry : Nat) (arg : DWord) : State :=
  match residentOf s rs with
  | none => s
  | some (n, _) =>
    let mine := workers.filter fun p => ((winOf s p.1 p.2).map fun w => w.ctx == n).getD false
    let s := mine.foldl (fun s p =>
      let x := workerGet s p.1 p.2
      if x.state == .idle || x.state == .halted then
        workerSet s p.1 p.2 (gSet (gSet { x with state := .ready, wait := .none, pc := BitVec.ofNat 64 entry } 1 off) 2 arg.toNat)
      else s) s
    let s := stir s n
    { s with sched := { s.sched with
        blocks := s.sched.blocks ++ [{ ctx := n, rs := rs, endBeat := now s + spanTo frame off endOff, workers := mine }] } }

/-- Blocks that end at this boundary with a worker that has not halted (R62, step 5). -/
def lateBlocks (s : State) : List Block :=
  s.sched.blocks.filter fun b => b.endBeat == now s && b.workers.any fun p => (workerGet s p.1 p.2).state != .halted

def dropEndedBlocks (s : State) : State :=
  { s with sched := { s.sched with blocks := s.sched.blocks.filter fun b => decide (now s < b.endBeat) } }

/-- A migration entry queues its tiles at rank 3 (R236). -/
def startMigration (s : State) (rs first count dest due consumer : Nat) : State :=
  let ctx := ((occupant s rs).map (·.1)).getD 0xFFFF
  let s := { s with sched := { s.sched with
      migs := s.sched.migs ++ [{ ctx := ctx, first := first / tileSize, count := count, dest := dest, due := now s + due, consumer := consumer }] } }
  settleMoves (addMove s 3 dest 7 ((List.range count).map (first / tileSize + ·)) 0 (some (ctxClient s ctx)))

/-- The entries of the frame offset that run at the level in force, in the image's order. -/
def entriesAt (s : State) (off : Nat) : List FrameEntry :=
  match s.sched.image with
  | none => []
  | some (im, _) => im.entries.filter fun e => e.off == off && e.levels.getLsbD s.sched.level

/-- Starts one entry; spans are the ports' (R273), idle test beats the known-answer test's (R343). -/
def startEntry (s : State) (frame : Nat) (e : FrameEntry) : State :=
  match e.kind with
  | .block endOff workers entry arg => startBlock s e.rs e.off endOff frame workers entry arg
  | .slot gen cap endOff draftSlots att => fillRequestSlot s e.rs e.off gen cap endOff draftSlots att
  | .collective lse dh deadlineOff resid src dst =>
    match residentOf s e.rs with
    | some (n, _) => startColl s n lse dh (now s + spanTo frame e.off deadlineOff) resid src dst
    | none => s
  | .migrate first count dest due consumer => startMigration s e.rs first count dest due consumer
  | .span .. | .idle .. => s

/-! ## The MIXED split (R217–R219) -/

def splitOf (s : State) : SplitSection :=
  (s.sched.image.map fun p => p.1.split).getD { nlev := 1, start := 0, wg := 1, wp := 1, up := [], down := [] }

/-- SPLIT_EVALUATION, due at every 256th beat of the job (R218). -/
def evaluateSplit (s : State) : State :=
  match jobOrigin s with
  | none => s
  | some j0 =>
    if !hasBeat s || now s ≤ j0 || (now s - j0) % 256 != 0 || s.sched.evalAt == now s then s
    else
      let s := { s with sched := { s.sched with evalAt := now s } }
      let x := splitOf s
      let live := s.forager.descs.filter fun d => d.state == .active || d.state == .adopted
      let g := x.wg * (live.filter fun d => !inPrompt d).length
      let p := x.wp * ((s.forager.descs.filter fun d => inPrompt d).map fun d => d.plen - d.clen).sum
      if g + p = 0 then s
      else
        let r := 65535 * g / (g + p)
        let lv := s.sched.level
        let target :=
          if cfld s rSqCfg 20 20 = 1 then s.sched.target
          else if lv + 1 < x.nlev && decide (x.up.getD lv 65535 ≤ r) then lv + 1
          else if 0 < lv && decide (r < x.down.getD lv 0) then lv - 1
          else lv
        { s with sched := { s.sched with ratio := r, target := target } }

/-- Work of the level in force is running: a cell work block or a request slot (R219). -/
def levelBusy (s : State) : Bool := !s.sched.blocks.isEmpty || !s.sched.steps.isEmpty

/-- A new level takes effect (R219). -/
def changeLevel (s : State) (off : Nat) : State :=
  if s.sched.target != s.sched.level && off == 0 && !levelBusy s then
    setEvent { s with sched := { s.sched with level := s.sched.target } } rSqEvent 1
  else s

/-! ## Prefetch (R132) -/

/-- A request slot that starts within PREFETCH_LEAD beats: how many beats from now, its residency slot, its phase and capacity. The
slots of this boundary have been filled. -/
structure ComingSlot where
  after : Nat
  rs : Nat
  gen : Bool
  capacity : Nat
  deriving DecidableEq, Repr

def comingSlots (s : State) (im : ScheduleImage) (off : Nat) : List ComingSlot :=
  let lead := cfld s rKvCfg 19 8
  sortBy (fun p => p.after) (im.entries.flatMap fun e =>
    match e.kind with
    | .slot gen cap _ _ _ =>
      if e.levels.getLsbD s.sched.level then
        let k := (e.off + im.frame - off) % im.frame
        ((List.range (lead / im.frame + 1)).map (k + im.frame * ·)).filterMap fun k =>
          if 0 < k && k ≤ lead then some { after := k, rs := e.rs, gen := gen, capacity := cap } else none
      else []
    | _ => [])

/-- A request whose next step is to come: its context, whether the step is of generation, the positions it takes of a prefill slot, the
map and length it stages, its place in the queue, and the beat before which it does not start. -/
structure ComingStep where
  ctx : Nat
  gen : Bool
  need : Nat
  layout : Layout
  map : Nat
  upto : Nat
  order : Nat
  from_ : Nat
  deriving DecidableEq, Repr

/-- The next steps of the ACTIVE requests, and of the submissions held for their not-before beat that continue one (R132). -/
def comingSteps (s : State) : List ComingStep :=
  let of := fun (d : Desc) (order from_ : Nat) => (descLayout s d).map fun l =>
    ({ ctx := d.ctx, gen := !inPrompt d, need := d.plen - d.clen, layout := l, map := d.map, upto := d.clen, order := order, from_ := from_ } : ComingStep)
  let live := (s.forager.descs.filter fun d => d.state == .active).filterMap fun d =>
    of d d.order (((stepOf s d.handle).map fun x => x.deadline).getD 0)
  let held := s.host.cmds.filterMap fun c =>
    match c.op with
    | .submit a => if c.phase = 1 then ((descOf s a.parent).filter fun d => d.state == .active).bind fun d =>
        of { d with ctx := a.context.toNat } (s.forager.nextOrder + c.pos) c.hdr.notBefore.toNat
      else none
    | _ => none
  sortBy (fun x => x.order) (live ++ held)

/-- The context may stand in a residency slot when the slot starts: it has the slot, is on its way to it, or has none and may come to
it. DESIGN CHOICE (log 96): R132 does not say how the device foresees the slot of a context that has none yet. -/
def mayHold (s : State) (n rs : Nat) : Bool :=
  match ctxOf s n with
  | none => false
  | some x => x.state != .aborted && (match x.rs.or x.assigned with
    | some r => r == rs
    | none => (classSlots s x.cls).contains rs)

/-- The steps a coming slot takes, and those left for later slots: in submission order, as many as its capacity takes (R204). -/
def takeSteps (s : State) (p : ComingSlot) : Nat → List ComingStep → List ComingStep × List ComingStep
  | _, [] => ([], [])
  | room, x :: xs =>
    let fits := mayHold s x.ctx p.rs && x.gen == p.gen && decide (x.from_ ≤ now s + p.after) && decide (0 < room)
    if fits then
      let (ts, rest) := takeSteps s p (room - (if p.gen then 1 else x.need)) xs
      (x :: ts, rest)
    else
      let (ts, rest) := takeSteps s p room xs
      (ts, x :: rest)

/-- The tiles of every running step and of every step that starts within the lead, in ascending start beat (R132). -/
def prefetchSteps (s : State) (off : Nat) : State :=
  match s.sched.image with
  | none => s
  | some (im, _) =>
    let s := (sortBy (fun x => x.start) s.sched.steps).foldl (fun s x =>
      match descOf s x.handle with
      | some d => match descLayout s d with
        | some l => prefetchTiles s (awayTiles s l d.map x.e)
        | none => s
      | none => s) s
    ((comingSlots s im off).foldl (fun (r : State × List ComingStep) p =>
      let (ts, rest) := takeSteps s p p.capacity r.2
      (ts.foldl (fun s x => prefetchTiles s (awayTiles s x.layout x.map x.upto)) r.1, rest)) (s, comingSteps s)).1

end Sys2Proof.Machine
end

