-- ==== Sys2Proof/Machine/Security.lean ====
section
/-!
DEFINITION. Security (spec/16_security.md): verification of signed images (R356, R357), owners (R359), measurements (R361), identity (R362),
attestation (R363), random bits (R364), debug grants (R371, R372).
-/

namespace Sys2Proof.Machine

/-! ## Signed images (R356, R357) -/

def headerSize : Nat := 5440
/-- `n` bytes of an image from byte `o`, and as a number. -/
def imgBytes (bs : List Byte) (o n : Nat) : List Byte := (bs.drop o).take n
def imgNat (bs : List Byte) (o n : Nat) : Nat := leNat (imgBytes bs o n)

def imgMagic (bs : List Byte) : Nat := imgNat bs 0 4
def imgType (bs : List Byte) : Nat := imgNat bs 4 1
def imgSigner (bs : List Byte) : Nat := imgNat bs 5 1
def imgPayloadLen (bs : List Byte) : Nat := imgNat bs 8 8
def imgDevice (bs : List Byte) : Nat := imgNat bs 16 8
def imgDigest (bs : List Byte) : BitVec 384 := BitVec.ofNat 384 (imgNat bs 32 48)
def imgEdPk (bs : List Byte) : List Byte := imgBytes bs 80 32
def imgMldsaPk (bs : List Byte) : List Byte := imgBytes bs 112 1952
def imgPayload (bs : List Byte) : List Byte := bs.drop headerSize

/-- A reserved field of the header is non-zero. -/
def imgResv (bs : List Byte) : Bool := imgNat bs 6 2 != 0 || imgNat bs 24 8 != 0 || imgNat bs 5437 3 != 0

/-- The first matching row of R357 for an image of `given` bytes. -/
def imageStatus (s : State) (poisoned : Bool) (given type : Nat) (bs : List Byte) : Half :=
  if poisoned then stPoisoned
  else if given < headerSize || given != headerSize + imgPayloadLen bs then stBadLength
  else if imgMagic bs != 0x49504C54 || imgType bs != type || 1 < imgSigner bs || imgResv bs || imgPayloadLen bs == 0 then stBadField
  else if imgDevice bs != 0 && (s.sec.idkeys.isNone || imgDevice bs != identity s) then stWrongDevice
  else if imgSigner bs == 0 && (digest384 (imgEdPk bs) != Config.metalEd || digest384 (imgMldsaPk bs) != Config.metalMldsa) then
    stCertInvalid
  else if imgSigner bs == 1 && (type == 7 || s.sec.owner != some (imgEdPk bs, imgMldsaPk bs)) then stCertInvalid
  else if digest384 (imgPayload bs) != imgDigest bs then stCheckMismatch
  else if !Config.ed25519Ok (imgEdPk bs) (imgBytes bs 0 80) (imgBytes bs 2064 64) ||
      !Config.mldsaOk (imgMldsaPk bs) (imgBytes bs 0 80) (imgBytes bs 2128 3309) then stSignature
  else stOk

/-- Counts the outcome of a verification; a refusal is recorded and reported (R357). -/
def verified (s : State) (type : Nat) (st : Half) : State :=
  if st == stOk || st == stOkNoop then satAdd s rScVerifyCount 31 16 1
  else
    let s := satAdd s rScVerifyCount 15 0 1
    let s := (errRecord s rScErr (type % 256 * 2 ^ 16 + st.toNat) []).1
    event (setEvent s rScEvent 1) { sev := sevNotice, src := srcSecurity, status := st }

/-- Verifies an image and counts the outcome; the header of one that is poisoned or too short is unreadable. -/
def verifyImage (s : State) (poisoned : Bool) (given type : Nat) (bs : List Byte) : State × Half :=
  let st := imageStatus s poisoned given type bs
  (verified s (if poisoned || given < headerSize then 0 else imgType bs) st, st)

/-! ## Measurements (R361) -/

def measOf (s : State) (j : Nat) : BitVec 384 := s.sec.meas.getD j 0
def setMeas (s : State) (j : Nat) (d : BitVec 384) : State :=
  { s with sec := { s.sec with meas := (List.range 8).map fun i => if i = j then d else measOf s i } }
def measBytes (d : BitVec 384) : List Byte := leBytes 48 d.toNat
/-- extend(M, t, d). -/
def extendMeas (s : State) (j t : Nat) (d : BitVec 384) : State :=
  setMeas s j (digest384 (measBytes (measOf s j) ++ leBytes 1 t ++ measBytes d))
/-- M0: the same on every TLP-2720 of stepping A0. -/
def measM0 : BitVec 384 :=
  digest384 (sha384 (measBytes Config.metalEd ++ measBytes Config.metalMldsa) ++ leBytes 2 0x2720 ++ leBytes 1 0xA0)

/-! ## Owners (R359) -/

/-- Admits the owner of a verified certificate; the status of a further one. Reserved bytes refuse either (R9). DESIGN CHOICE (log 57): a
payload of another length than 2,048 bytes is refused with ST_BAD_FIELD. -/
def admitOwner (s : State) (bs : List Byte) : State × Half :=
  let keys := (imgBytes (imgPayload bs) 0 32, imgBytes (imgPayload bs) 32 1952)
  if imgNat (imgPayload bs) 1984 64 != 0 || imgPayloadLen bs != 2048 then (s, stBadField)
  else
    match s.sec.owner with
    | some o => (s, if o == keys then stOkNoop else stCertInvalid)
    | none => (setMeas (setEvent { s with sec := { s.sec with owner := some keys } } rScEvent 0) 1 (imgDigest bs), stOk)

/-! ## Identity (R362) -/

/-- ASCII bytes. -/
def asciiBytes (s : String) : List Byte := s.toList.map fun c => BitVec.ofNat 8 c.toNat

def edSeed (seed : BitVec 256) : List Byte := (hmac384 (leBytes 32 seed.toNat) (asciiBytes "TLP-ID-ED25519")).take 32
def mldsaSeed (seed : BitVec 256) : List Byte := (hmac384 (leBytes 32 seed.toNat) (asciiBytes "TLP-ID-MLDSA65")).take 32

/-- Derives the identity from the reconstructed seed; none where the reconstruction fails. -/
def deriveIdentity (s : State) (seed : Option (BitVec 256)) : State :=
  { s with sec := { s.sec with seed := seed, idkeys := seed.map fun x => Config.keyDigest (edSeed x) (mldsaSeed x) } }

/-! ## Random bits (R364) -/

/-- A health test of the entropy source failed. -/
def rngFails (s : State) : State :=
  if !s.sec.rngOk then s
  else event (setEvent { s with sec := { s.sec with rngOk := false } } rScEvent 5) { sev := sevError, src := srcSecurity }

/-- A new challenge (R371). -/
def drawChallenge (s : State) : State :=
  let (v, s) := takeRandom s 256
  { s with sec := { s.sec with challenge := BitVec.ofNat 256 v } }

/-! ## Protected memory (R365) -/

/-- The XTS key of a client; none where the generator failed before the keys were drawn. -/
def xtsKey (s : State) (client : Nat) : Option (BitVec 512) :=
  s.sec.xtsFrom.map fun n => BitVec.ofNat 512 (Config.randomBits (n + client))

/-- The client of a protected line: its region's, or the context's whose swap record it is in. -/
def lineClient (s : State) (line : Nat) : Option Nat :=
  ((s.remote.regions.find? fun e => e.2.prot && overlaps (64 * line) 64 e.2.base e.2.length).map fun e => e.2.client).or
    ((s.sched.ctxs.find? fun e => e.2.prot && e.2.swapRuns.any fun r => overlaps (64 * line) 64 (r.1 * tileSize) (r.2 * tileSize)).map
      fun e => e.2.client)

/-- What a line of the range is in HBM, DDR5 and NAND: ciphertext in a protected tile, under its client's key and its own tweak. -/
def storedLine (s : State) (line : Nat) : List Byte :=
  let bytes := rangeRead s (64 * line) 64
  match (lineClient s line).bind (xtsKey s) with
  | some k => Config.xtsSeal k (BitVec.ofNat 128 line) bytes
  | none => bytes

/-! ## Attestation (R363) -/

/-- Protected work is present: a protected tile or a protected context (R365, R371). -/
def protectedWork (s : State) : Bool := s.remote.regions.any (fun e => e.2.prot) || s.sched.ctxs.any fun e => e.2.prot

/-- FG_ROLE_EPOCH and the role code. -/
def roleEpoch (s : State) : Nat := s.boot.roleEpoch.toNat
def roleOf (s : State) : Nat := s.boot.role

/-- Bytes 0 to 511 of a report. -/
def reportBytes (s : State) (fn : Nat) (nonce : BitVec 256) : List Byte :=
  leBytes 4 0x41504C54 ++ leBytes 2 1 ++ leBytes 2 0 ++ leBytes 8 (identity s) ++ measBytes (s.sec.idkeys.getD 0) ++
  leBytes 32 nonce.toNat ++ leBytes 2 0x2720 ++ leBytes 1 0xA0 ++ leBytes 1 (roleOf s) ++ leBytes 4 (roleEpoch s) ++
  leBytes 2 (nodeWord s) ++ leBytes 1 fn ++ leBytes 1 (healthCode s.reliab.health) ++ leBytes 6 (now s) ++ leBytes 1 s.sec.debug ++
  leBytes 1 (b2n s.sec.owner.isSome + 2 * b2n s.sec.rngOk + 4 * b2n (protectedWork s)) ++ leBytes 12 0 ++
  (List.range 8).flatMap fun j => measBytes (measOf s j)

def opAttest (s : State) (cmd fn : Nat) (buf : DWord) (nonce : BitVec 256) : State :=
  if buf = 0 || buf.toNat % 64 != 0 then refuseCmd s cmd stBadField
  else
    match s.sec.seed with
    | none => refuseCmd s cmd stNoIdentity
    | some seed =>
      let r := reportBytes s fn nonce
      let out := r ++ fitBytes 64 (Config.ed25519Sign (edSeed seed) r) ++ fitBytes 3309 (Config.mldsaSign (mldsaSeed seed) r)
      finishCmd (emit s (.hostWrite fn buf.toNat out)) cmd stOk 3885

/-! ## Debug grants (R371, R372) -/

/-- SUBMIT of SC_GRANT_CTL: a verification starts unless one runs. -/
def submitGrant (s : State) (length : Nat) : State :=
  if s.sec.grant.isSome then s else { s with sec := { s.sec with grant := some length } }

/-- The bytes of SC_GRANT_BUF. -/
def grantBytes (s : State) (n : Nat) : List Byte := ((List.range ((n + 3) / 4)).flatMap fun w => leBytes 4 (rget s (rScGrantBuf w))).take n

/-- The debug level becomes `level`; without INSTRUMENT every segment of the 1687 network closes (R372, R388). -/
def setDebug (s : State) (level : Nat) : State :=
  { s with
    sec := { s.sec with debug := level }
    mgmt := { s.mgmt with segments := if bit level 1 = 1 then s.mgmt.segments else 0 } }

/-- GRANT_VERIFY_COMPLETE: the first matching row of R371. DESIGN CHOICE (log 57): the buffer is read when the verification ends, and a
payload of another length than 64 bytes is refused with ST_BAD_FIELD. -/
def grantDone (s : State) : State :=
  match s.sec.grant with
  | none => s
  | some len =>
    let s := { s with sec := { s.sec with grant := none } }
    let bs := grantBytes s len
    let p := imgPayload bs
    let level := imgNat p 32 1
    let fail := fun (s : State) (st : Half) => rput s rScGrantStatus 15 0 st.toNat
    if len = 0 then fail s stBadLength
    else if 8192 < len then fail s stBadField
    else
      let (s, st) := verifyImage s false len 6 bs
      if st != stOk then fail s st
      else if imgDevice bs = 0 then fail s stWrongDevice
      else if level = 0 || 3 < level || imgPayloadLen bs != 64 || imgNat p 33 31 != 0 then fail s stBadField
      else if imgNat p 0 32 != s.sec.challenge.toNat then fail s stKeyInvalid
      else if bit level 1 = 1 && protectedWork s then fail s stBusyReferenced
      else if !s.sec.rngOk then fail s stNoResource
      else
        let s := extendMeas (setDebug s level) 7 6 (imgDigest bs)
        let s := setEvent (drawChallenge s) rScEvent 4
        fail (event s { sev := sevNotice, src := srcSecurity }) stOk

/-! ## Verification of loads (R357, R360) -/

/-- An image load starts: the range is sealed, and the verification runs. -/
def startVerify (s : State) (cmd fn : Nat) (a : ImageArg) (what : VerifyFor) : State :=
  let base := a.image.toNat
  let len := a.length.toNat
  if len = 0 then refuseCmd s cmd stBadLength
  else if base % 64 != 0 then refuseCmd s cmd stBadField
  else if !inRange s base len then refuseCmd s cmd stBounds
  else { s with sec := { s.sec with
      seals := s.sec.seals ++ [{ lo := base, hi := base + len, cmd := cmd, what := what }]
      verifs := s.sec.verifs ++ [{ id := cmd, cmd := cmd, fn := fn, base := base, length := len, what := what }] } }

/-- TYPE that a load names (R356). -/
def verifyType : VerifyFor → Nat
  | .model => 2 | .schedule => 3 | .codebook .. => 4 | .grammar _ => 5

/-- The seal of an accepted load takes the place of that of the image it replaces (R360). -/
def keepSeal (s : State) (cmd : Nat) (what : VerifyFor) : State :=
  { s with sec := { s.sec with
      seals := (s.sec.seals.filter fun x => x.cmd != 0 || x.what != what).map fun x => if x.cmd == cmd then { x with cmd := 0 } else x } }

end Sys2Proof.Machine
end

