-- ==== Sys2Proof/Machine/Images.lean ====
section
/-!
DEFINITION. The images the scheduler runs (spec/09_scheduling_contexts.md R197, R198, R200, R217) with the checks that other chapters
lay on them (R29, R54, R55, R62, R109–R111, R121, R140, R170, R236, R257, R272), and what the end of a verification does.
-/

namespace Sys2Proof.Machine

/-- Every element of a list differs from the others. -/
def allDistinct (l : List Nat) : Bool := decide (l.eraseDups.length = l.length)

/-- `n` lies in [lo, hi]. -/
def among (lo hi n : Nat) : Bool := decide (lo ≤ n) && decide (n ≤ hi)

/-! ## Cache layouts (R109–R111) -/

/-- FORMAT of R93, with the divisibility rule of R109; KCODE and D8 do not count in a plain layout (R135). -/
def codeFormatOk (l : Layout) (fmt : Byte) : Bool :=
  let f := fmt.toNat
  fmtEntry f != 3 && bits f 7 6 == 0 &&
    (l.plain || (decide (fmtKcode f < 5) && l.dh * codeWidth (fmtKcode f) % (8 * fmtD f) == 0))

/-- A layout's fields are in range and keep the rules of R109 to R111. -/
def layoutOk (l : Layout) : Bool :=
  decide (l.split ≤ 1) && among 1 16 l.n && decide (l.member < l.n) && among 1 256 l.layers && among 1 1024 l.hq &&
  among 1 256 l.hkv && l.hq % l.hkv == 0 && among 1 8 l.hg && l.hkv % l.hg == 0 && among 16 512 l.dh &&
  codeFormatOk l l.kfmt && codeFormatOk l l.vfmt &&
  (l.plain || among 1 0xFFFF l.kver && among 1 0xFFFF l.vver) && decide (l.kver ≤ 0xFFFF) && decide (l.vver ≤ 0xFFFF) &&
  among 1 8 l.fpt && among 64 4194304 l.maxpos && l.maxpos % 64 == 0 &&
  decide (pageData l ≤ frameSize l) && (l.split == 1 || groupsOf l % l.n == 0)

/-- The protected layout differs from the main one in KFMT, VFMT and FPT alone; KVER and VVER are ignored in it (R135). -/
def protLayoutOk (main p : Layout) : Bool :=
  p.plain && layoutOk p &&
  decide ({ p with kfmt := main.kfmt, vfmt := main.vfmt, fpt := main.fpt, plain := main.plain, kver := main.kver, vver := main.vver } = main)

/-! ## Residency slots, barriers, bindings, code (R54, R55, R62, R200, R257) -/

/-- The entries of two different slots on one cell. -/
def sharedCells (slots : List ResSlot) : List (SlotCell × SlotCell) :=
  (List.range slots.length).flatMap fun i => (List.range i).flatMap fun j =>
    ((slots[i]?).map fun x => x.cells).getD [] |>.flatMap fun a =>
      (((slots[j]?).map fun x => x.cells).getD [] |>.filter fun b => b.cell == a.cell).map fun b => (a, b)

def slotCellOk (c : SlotCell) : Bool :=
  decide (c.cell < 1024) && c.base % 4096 == 0 && c.size % 4096 == 0 && c.code % 4096 == 0 && decide (c.code ≤ c.size) &&
  decide (c.base + c.size ≤ 1310720) && c.workers != 0

def slotsOk (slots : List ResSlot) : Bool :=
  decide (slots.length ≤ 32) &&
  slots.all (fun x => !x.cells.isEmpty && allDistinct (x.cells.map (·.cell)) && x.cells.all slotCellOk &&
    decide (x.credits.length ≤ 6) && x.credits.all fun n => decide (n ≤ 128)) &&
  (sharedCells slots).all (fun p => p.1.workers &&& p.2.workers == 0 && !overlaps p.1.base p.1.size p.2.base p.2.size && !(p.1.engine && p.2.engine)) &&
  (slots.flatMap fun x => x.cells.map (·.cell)).all (fun c => decide ((slots.filter fun x => x.cells.any fun y => y.cell == c).length ≤ 4)) &&
  (List.range 6).all fun p => decide ((slots.map fun x => x.credits.getD p 0).sum ≤ 384)

/-- Slot `rs` names cell `c`. -/
def slotHas (slots : List ResSlot) (rs c : Nat) : Option SlotCell :=
  ((slots[rs]?).map fun x => x.cells).getD [] |>.find? fun y => y.cell == c

def bindingsOk (im : ScheduleImage) : Bool :=
  im.bindings.all (fun b => decide (b.port < 32) && decide (b.channel < 32) &&
    (slotHas im.slots b.rs b.srcCell).isSome && (slotHas im.slots b.rs b.dstCell).isSome) &&
  allDistinct (im.bindings.map fun b => b.srcCell * 32 + b.port) && allDistinct (im.bindings.map fun b => b.dstCell * 32 + b.channel)

def codeOk (im : ScheduleImage) : Bool :=
  im.code.all fun k => match slotHas im.slots k.rs k.cell with
    | some c => k.bytes.all fun e => decide (e.1 < c.size)
    | none => false

/-! ## Frame entries (R31, R62, R121, R170, R236, R272) -/

/-- An entry that needs a residency slot names one of the image's. -/
def entrySlotOk (im : ScheduleImage) (e : FrameEntry) : Bool :=
  match e.kind with
  | .block .. | .slot .. | .collective .. => decide (e.rs < im.slots.length)
  | _ => true

def entryOk (im : ScheduleImage) (s : State) (e : FrameEntry) : Bool :=
  let f := im.frame
  decide (e.off < f) && entrySlotOk im e &&
  match e.kind with
  | .block endOff workers entry _ =>
    decide (endOff < f) && entry % 8 == 0 &&
    workers.all fun p => match slotHas im.slots e.rs p.1 with
      | some c => c.workers.getLsbD p.2
      | none => false
  | .slot gen _ endOff draftSlots att =>
    decide (endOff < f) && (!gen || among 1 32 draftSlots) &&
    att.all fun t => decide (t.writeOff ≤ t.stageOff) && decide (t.stageOff < t.dueOff) && decide (t.dueOff < spanTo f e.off endOff) &&
      decide (t.layer < im.main.layers)
  | .span resid ports beats => among 1 255 resid && ports != 0 && among 1 f beats && decide (e.off + beats ≤ f)
  | .collective _ _ deadlineOff resid _ _ => decide (deadlineOff < f) && decide (resid ≤ 255)
  | .migrate first count dest due consumer =>
    first % tileSize == 0 && decide (count ≤ 65536) && decide (dest ≤ 2) && among 1 f due && decide (consumer ≤ 1) &&
    decide (first / tileSize + count ≤ s.tiers.total)
  | .idle _ => true

/-- Circular spans [a, a+n) and [b, b+m) of the frame meet. -/
def frameMeets (f a n b m : Nat) : Bool := decide ((b + f - a) % f < n) || decide ((a + f - b) % f < m)

/-- Two cell work blocks of one level name a worker while their spans overlap (R62). -/
def blocksClash (f : Nat) (x y : FrameEntry) : Bool :=
  match x.kind, y.kind with
  | .block ex wx _ _, .block ey wy _ _ =>
    x.levels &&& y.levels != 0 && frameMeets f x.off (spanTo f x.off ex) y.off (spanTo f y.off ey) && wx.any fun w => wy.contains w
  | _, _ => false

/-- Two reservations share a port at a frame offset, or a RESID (R272). -/
def spansClash (x y : FrameEntry) : Bool :=
  match x.kind, y.kind with
  | .span rx px nx, .span ry py ny => rx == ry || (px &&& py != 0 && overlaps x.off nx y.off ny)
  | _, _ => false

def entriesClash (im : ScheduleImage) : Bool :=
  (List.range im.entries.length).any fun i => (List.range i).any fun j =>
    match im.entries[i]?, im.entries[j]? with
    | some x, some y => blocksClash im.frame x y || spansClash x y
    | _, _ => false

/-! ## Split levels (R217) -/

def splitOk (x : SplitSection) : Bool :=
  among 1 8 x.nlev && decide (x.start < x.nlev) && among 1 65535 x.wg && among 1 65535 x.wp &&
  x.up.length == x.nlev && x.down.length == x.nlev && (x.up ++ x.down).all (fun n => decide (n ≤ 65535)) &&
  (List.range (x.nlev - 1)).all fun i => decide (x.down.getD (i + 1) 0 < x.up.getD i 0)

/-! ## The group of the collectives (R109) -/

/-- Devices of this node's group in the image's peer table: those under the same lead (R142). -/
def imageGroup (im : ScheduleImage) : Nat :=
  match im.peers.find? fun p => p.node == im.node with
  | some own => (im.peers.filter fun p => p.lead == own.lead).length
  | none => 0

/-- N of the layout is the group size of the job's collectives, where the image has any (R109). DEDUCED (log 37): that group is the one
of the image's peer table. -/
def groupOk (im : ScheduleImage) : Bool :=
  im.main.n == imageGroup im || !im.entries.any fun e => match e.kind with | .collective .. => true | _ => false

/-! ## The images -/

/-- The refusal of a verified schedule image; where two rules fail the sections count in the order of R198. -/
def scheduleStatus (s : State) (im : ScheduleImage) : Half :=
  if im.resv || 1024 < im.jobSize || im.jobSize == 0 || im.frame == 0 || 65536 < im.frame || 16383 < im.node || 0xFFFF < im.job then stBadField
  else if 1024 < im.peers.length || !allDistinct (im.peers.map (·.node)) ||
      im.peers.any (fun p => 16383 < p.node || 16383 < p.lead || !among 1 4 p.role) then stBadField
  else if im.main.plain || !layoutOk im.main || !groupOk im || !(im.prot.map fun p => protLayoutOk im.main p).getD true then stBadField
  else if !slotsOk im.slots then stBadField
  else if 16 < im.classes.length || im.classes.any (fun m => decide (2 ^ im.slots.length ≤ m.toNat)) then stBadField
  else if im.barriers.any (fun b => b.expected == 0) then stBadLength
  else if !allDistinct (im.barriers.map (·.barrier)) ||
      im.barriers.any (fun b => decide (255 < b.barrier) || decide (16384 < b.expected) || decide (im.slots.length ≤ b.rs)) then stBadField
  else if !bindingsOk im || !codeOk im then stBadField
  else if im.entries.any (fun e => match e.kind with | .migrate _ count _ _ _ => count == 0 | _ => false) then stBadLength
  else if im.entries.any (fun e => !entryOk im s e) || entriesClash im then stBadField
  else if !splitOk im.split then stBadField
  else stOk

/-- The refusal of a verified model image (R197). -/
def modelStatus (s : State) (fn : Nat) (m : ModelImage) : Half :=
  if m.layers = 0 ∨ m.vocab = 0 then stBadLength
  else if 256 < m.layers || m.narrow == 0 || decide (m.layers ≤ m.narrow) || 262144 < m.vocab || m.resv then stBadField
  else if m.sections.any (fun x => !inRange s (x.first * tileSize) (x.tiles * tileSize) || !fnMay s fn (x.first * tileSize) (x.tiles * tileSize)) then
    stNoResource
  else stOk

/-! ## The load commands -/

def opLoadModel (s : State) (cmd fn : Nat) (a : ImageArg) : State :=
  if jobStarted s then refuseCmd s cmd stBusyReferenced
  else if s.sched.model.isSome && modelOwner s != some fn && fn != 0 then refuseCmd s cmd stClientMismatch
  else startVerify s cmd fn a .model

def opLoadSchedule (s : State) (cmd fn : Nat) (a : ImageArg) : State :=
  if jobStarted s then refuseCmd s cmd stBusyReferenced else startVerify s cmd fn a .schedule

def opLoadCodebook (s : State) (cmd fn : Nat) (a : ImageArg) (slot : Byte) (first last : Half) : State :=
  if modelOwner s != some fn then refuseCmd s cmd stClientMismatch else startVerify s cmd fn a (.codebook slot first last)

def opLoadGrammar (s : State) (cmd fn : Nat) (a : ImageArg) (slot : Byte) : State :=
  if !lensOn s then refuseCmd s cmd stNoResource
  else if modelOwner s != some fn then refuseCmd s cmd stClientMismatch
  else startVerify s cmd fn a (.grammar slot)

/-- A model image is accepted: the old one and every codebook and grammar slot go, `LN_MODEL` is set, its pins are made (R197, R230). -/
def acceptModel (s : State) (cmd fn : Nat) (m : ModelImage) (digest : BitVec 384) : State :=
  let s := dropSlots s fun _ => true
  let s := (List.range 8).foldl (fun s j => freeGrammar s j stBusyReferenced stOk) s
  let s := dropPins s fun o => o == .model
  let s := { s with
    sched := { s.sched with model := some (m, fn, digest) }
    lens := { s.lens with vocab := m.vocab, narrow := m.narrow } }
  let s := m.sections.foldl (fun s x => if x.pinned then addPin s x.first x.tiles 0 .model else s) s
  let s := setMeas s 3 digest
  finishCmd (keepSeal s cmd .model) cmd stOk (digest.toNat % 2 ^ 64)

def acceptSchedule (s : State) (cmd : Nat) (im : ScheduleImage) (digest : BitVec 384) : State :=
  let s := setMeas { s with sched := { s.sched with image := some (im, digest) } } 4 digest
  finishCmd (keepSeal s cmd .schedule) cmd stOk im.job

/-- IMAGE_VERIFY_COMPLETE: the outcome of R357, then the rows of the load that come after it. -/
def imageVerified (s : State) (n : Nat) (content : ImageContent) (found : Findings) : State :=
  match s.sec.verifs.find? fun v => v.id == n with
  | none => s
  | some v =>
    let s := { s with sec := { s.sec with verifs := s.sec.verifs.filter fun x => x.id != n } }
    let bs := rangeRead s v.base v.length
    let s := chargeRange (touchRange s v.base v.length) v.fn v.base v.length false
    let s := memoryFindings s v.base v.length found
    let (s, st) := verifyImage s (rangePoisoned s v.base v.length) v.length (verifyType v.what) bs
    if st != stOk then refuseCmd s v.cmd st
    else
      match v.what, content with
      | .model, .model m =>
        if jobStarted s then refuseCmd s v.cmd stBusyReferenced
        else if modelStatus s v.fn m != stOk then refuseCmd s v.cmd (modelStatus s v.fn m)
        else acceptModel s v.cmd v.fn m (imgDigest bs)
      | .schedule, .schedule im =>
        if jobStarted s then refuseCmd s v.cmd stBusyReferenced
        else if scheduleStatus s im != stOk then refuseCmd s v.cmd (scheduleStatus s im)
        else acceptSchedule s v.cmd im (imgDigest bs)
      | .codebook slot first last, _ =>
        let s := acceptCodebook s v.cmd (imgPayload bs) slot.toNat first.toNat last.toNat
        if (cmdGet s v.cmd).isSome then extendMeas s 5 4 (imgDigest bs) else s
      | .grammar slot, _ =>
        let s := acceptGrammar s v.cmd slot.toNat (imgPayload bs)
        if (cmdGet s v.cmd).isSome then extendMeas s 6 5 (imgDigest bs) else s
      | _, _ => refuseCmd s v.cmd stBadField

end Sys2Proof.Machine
end

