-- ==== Sys2Proof/Machine/Jobs.lean ====
section
/-!
DEFINITION. Jobs (spec/18_startup_reset.md R402–R408, with R29, R30, R199, R230, R294, R367): OP_SET_ROLE, the start at J0, the stop and
the teardown at a boundary.
-/

namespace Sys2Proof.Machine

/-- OP_START_JOB commands held for their J0. -/
def heldStarts (s : State) : List Cmd := s.host.cmds.filter fun c => c.phase == 1 && c.op == .startJob

/-! ## OP_SET_ROLE (R402, R403) -/

def opSetRole (s : State) (cmd : Nat) (role : Byte) : State :=
  if role.toNat = 0 ∨ 4 < role.toNat then refuseCmd s cmd stBadField
  else if s.sched.job != .none || !(heldStarts s).isEmpty then refuseCmd s cmd stBusyReferenced
  else if !s.forager.descs.isEmpty || !s.forager.recs.isEmpty || !s.forager.pfx.isEmpty then refuseCmd s cmd stBusyReferenced
  else
    let e : Word := if s.boot.roleEpoch = 0xFFFFFFFF then 1 else s.boot.roleEpoch + 1
    finishCmd { s with boot := { s.boot with role := role.toNat, roleEpoch := e } } cmd stOk e.toNat

/-! ## OP_START_JOB (R404) -/

/-- This node's own entry of an image's peer table. -/
def ownEntry (s : State) (im : ScheduleImage) : Option PeerEntry :=
  im.peers.find? fun p => s.fabric.node.isSome && p.node == nodeNum s

/-- The image cannot be run by this device as it stands (rows 4 to 6 of R404, and the period of R29). -/
def imageMismatch (s : State) (im : ScheduleImage) : Bool :=
  (match s.sched.model with | some (_, _, d) => d != im.modelDigest | none => true) ||
  s.fabric.node.isNone || im.node != nodeNum s ||
  (match ownEntry s im with | some p => p.role != roleOf s || p.roleEpoch != roleEpoch s | none => true) ||
  (roleOf s != roleMixed && decide (1 < im.split.nlev)) ||
  im.slots.any (fun x => x.cells.any fun c => !cellOn s c.cell) ||
  im.period != cfld s rBtCfg 6 0

/-- The row of R404 that decides an OP_START_JOB as it starts; `released` says that step 4 of R28 has just released it: one that a FENCE
keeps past the boundary of J0 finds J0 begun (R30). -/
def startJobStatus (s : State) (cmd : Nat) (released : Bool) : Half :=
  let j0 := ((cmdGet s cmd).map fun c => c.hdr.notBefore.toNat).getD 0
  if s.reliab.test != .none then stBusyReferenced
  else if s.reliab.health == .expelled then stDeviceExpelled
  else if s.sched.job != .none || (heldStarts s).any (fun c => c.id != cmd && decide (now s < c.hdr.notBefore.toNat)) then stBusyReferenced
  else
    match s.sched.image with
    | none => stCfgMismatch
    | some (im, _) =>
      if imageMismatch s im then stCfgMismatch
      else if j0 = 0 then stBadField
      else if !released || j0 != now s then stBeatPassed
      else if cget s rRaRegCount = 0 ∨ cget s rRaSlotCount = 0 then stNoResource
      else stOk

def startJob (s : State) (cmd : Nat) (released : Bool) : State :=
  let st := startJobStatus s cmd released
  if st != stOk then refuseCmd s cmd st else { s with sched := { s.sched with job := .held cmd (now s) } }

/-- The fabric key of a job (R367). -/
def fabricKey (hkey : BitVec 128) (job : Nat) : BitVec 256 :=
  let info := leBytes 4 1 ++ asciiBytes "EMGAIT-GCM" ++ [0] ++ leBytes 2 job ++ leBytes 4 256
  BitVec.ofNat 256 (leNat ((hmac384 (leBytes 16 hkey.toNat) info).take 32))

/-- Tiles that `n` bytes from `base` take. -/
def pinBytes (s : State) (base n tier : Nat) (o : PinOwner) : State :=
  addPin s (tileOf base) ((n + tileSize - 1) / tileSize) tier o

/-- The pins that a started job makes (R230). -/
def jobPins (s : State) (im : ScheduleImage) : State :=
  let pt := cget s rKvPtCount
  let s := pinBytes s (cbase s rKvPtBaseLo rKvPtBaseHi) (pt * 32) 0 .jobTables
  let s := pinBytes s (cbase s rKvSumBaseLo rKvSumBaseHi) (pt * sumSize im.main) 0 .jobTables
  let s := pinBytes s (cbase s rFgDescBaseLo rFgDescBaseHi) (cget s rFgDescCount * 128) 0 .jobTables
  let s := pinBytes s (cbase s rFgHomeBaseLo rFgHomeBaseHi) (cget s rFgHomeCount * 64) 0 .jobTables
  let s := pinBytes s (cbase s rFgPfxBaseLo rFgPfxBaseHi) (cget s rFgPfxCount * 32) 0 .jobTables
  addPin s (tileOf (cbase s rSqSwapBaseLo rSqSwapBaseHi)) (cget s rSqSwapTiles) 1 .swapArea

/-- JOB_START in step 5 of R28 (R405). -/
def startDue (s : State) : State :=
  match s.sched.job, s.sched.image with
  | .held cmd j0, some (im, _) =>
    if j0 != now s then s
    else
      let level := if cfld s rSqCfg 20 20 = 1 then min (cfld s rSqCfg 18 16) (im.split.nlev - 1) else im.split.start
      let s := { s with sched := { s.sched with job := .started j0, evalAt := j0 } }
      let s := rset s rBtMissCount 0
      let s := { s with forager := { s.forager with
        peers := im.peers.map (fun p => { entry := p }), gens := [], homeOps := [], queries := [], resilver := [], spareOf := false
        acting := [], actingNext := [], resilvered := [], asked := [], ackWaits := [] } }
      let s := jobPins s im
      let s := openForagerRegion (freeRegion s 0) im
      let s := { s with
        sched := { s.sched with level := level, target := level }
        remote := { s.remote with kfab := some (fabricKey im.hkey im.job), gcm := 1 } }
      finishCmd s cmd stOk im.job
  | _, _ => s

/-! ## Stop and teardown (R406, R407) -/

/-- OP_STOP_JOB. -/
def opStopJob (s : State) (cmd : Nat) (job : Half) : State :=
  let held := heldStarts s
  let started := s.sched.job != .none
  if !started && held.isEmpty then finishCmd s cmd stOkNoop 0
  else if job.toNat != imageJob s then refuseCmd s cmd stBadField
  else
    let s := held.foldl (fun s c => refuseCmd s c.id stJobTornDown) s
    if started then { s with sched := { s.sched with stops := s.sched.stops ++ [cmd] } } else finishCmd s cmd stOk job.toNat

/-- TEARDOWN: the status of its REPLY. -/
def teardownJob (job : Nat) (s : State) : State × Half × List Nat :=
  let held := heldStarts s
  let started := s.sched.job != .none
  if (!started && held.isEmpty) || job != imageJob s then (s, stOkNoop, [])
  else
    let s := held.foldl (fun s c => refuseCmd s c.id stJobTornDown) s
    (if started then { s with sched := { s.sched with torn := true } } else s, stOk, [])

/-- Steps 1 and 2: nothing of the job's frame goes on, and every context is FREE. -/
def stopFrame (s : State) (torn : Bool) : State :=
  let s := { s with
    sched := { s.sched with steps := [], blocks := [], migs := [] }
    cache := { s.cache with stages := [], colls := [] }
    lens := { s.lens with queue := [] }
    remote := { s.remote with sends := s.remote.sends.filter fun t => !t.forager }
    forager := { s.forager with asked := [], held := [], homeOps := [], ackWaits := [] }
    fabric := { s.fabric with ports := s.fabric.ports.map fun (e : Nat × Port) => (e.1, { e.2 with span := none, guard := none }) } }
  s.sched.ctxs.foldl (fun (s : State) (e : Nat × Ctx) =>
    let s := if torn then (errRecord s rSqErr (e.1 * 2 ^ 16 + stJobTornDown.toNat) []).1 else s
    freeCtx (leaveSlot (stopOnCells s e.1) e.1) e.1) s

/-- The request is one this node owns, so that its END is written here (R306). -/
def endsHere (d : Desc) : Bool :=
  match d.state with
  | .fetching | .active | .handingOut | .adopted | .ending => true
  | _ => false

/-- A command that names a request of the job. -/
def opOfJob (job : Nat) : HostOp → Bool
  | .cancel h | .handoffOut h _ => hJob h == job
  | .query h _ => hJob h == job
  | .handoffIn a => hJob a.handle == job
  | .prefetch a => a.byHandle && hJob a.first == job
  | _ => false

/-- Steps 3 and 4: every request ends, every command held or running on one completes, and the job's tables are FREE. -/
def stopRequests (s : State) : State :=
  let s := s.forager.descs.foldl (fun s d =>
    let s := dropGrammarRef (endCommands s d stJobTornDown) d.handle
    if endsHere d then endReply s d stJobTornDown else s) s
  let s := s.forager.queries.foldl (fun s q => refuseCmd s q.1 stJobTornDown) s
  let s := s.cache.pinWaits.foldl (fun s q => refuseCmd s q.1 stJobTornDown) s
  let s := (s.host.cmds.filter fun c => c.phase != 0 && opOfJob (imageJob s) c.op).foldl (fun s c => refuseCmd s c.id stJobTornDown) s
  let s := dropPins s fun o => match o with | .tokenLog _ => true | _ => false
  { s with
    forager := { s.forager with descs := [], recs := [], pfx := [], queries := [], peers := [], acting := [], actingNext := [], resilver := []
                                resilvered := [], spareOf := false }
    cache := { s.cache with pages := [], pinWaits := [] }
    sched := { s.sched with sems := [] }
    grid := { s.grid with barriers := [] } }

/-- The beat unit leaves LOST when the job is stopped (R25); the boundary that stops it ends with this. -/
def leaveLost (s : State) : State :=
  if s.beat.state != .lost then s
  else if rfld s rBtCtl 0 0 = 1 then
    { s with beat := { s.beat with state := .acquiring, run := 0, phased := false, acqMarker := none, acqEdges := 0, accepted := false } }
  else { s with beat := { s.beat with state := .unlocked } }

/-- The steps of R406. -/
def stopNow (s : State) (torn : Bool) : State :=
  let s := stopRequests (stopFrame s torn)
  let s := revokeRegion s 0 0
  let s := dropPins s fun o => o == .jobTables || o == .swapArea
  { s with sched := { s.sched with job := .none }, remote := { s.remote with kfab := none } }

/-- Step 3 of R28: the replies of stops whose steps were done a boundary ago, then a stop or teardown that is due. -/
def stopBoundary (s : State) : State :=
  let s :=
    if s.sched.stopReplies.isEmpty then s
    else
      let rs := s.sched.stopReplies
      jobBoundary (rs.foldl (fun s r => finishCmd s r.1 stOk r.2) { s with sched := { s.sched with stopReplies := [] } })
  if s.sched.stops.isEmpty && !s.sched.torn then s
  else
    let stops := s.sched.stops
    let torn := s.sched.torn
    let job := imageJob s
    let s := stopNow { s with sched := { s.sched with stops := [], torn := false } } torn
    let s := { s with sched := { s.sched with stopReplies := stops.map fun c => (c, job) } }
    if stops.isEmpty then jobBoundary s else s

end Sys2Proof.Machine
end

