-- ==== Sys2Proof/Machine/Power.lean ====
section
/-!
DEFINITION. Power, droop and thermal control (spec/14_power_thermal.md): domains (R318–R321), rails (R323), the governor's rotation
(R327), the cap and its terms (R328–R333), margin trim (R335).
-/

namespace Sys2Proof.Machine

/-! ## Domains (R318–R320) -/

/-- Domains that are not switchable: PD32 to PD35, PD45, PD47 to PD49. -/
def fixedDomains : BitVec 50 := BitVec.ofNat 50 ((0xF + 2 ^ 13 + 2 ^ 15 + 2 ^ 16 + 2 ^ 17) * 2 ^ 32)
/-- The control block's domain, powered whenever the device is out of reset (R13). -/
def controlDomain : BitVec 50 := BitVec.ofNat 50 (2 ^ 49)
/-- Domains whose change waits for the next warm reset: PD42 to PD44. -/
def resetDomains : BitVec 50 := BitVec.ofNat 50 (2 ^ 42 + 2 ^ 43 + 2 ^ 44)

/-- The committed requests, bit i being PD i. -/
def wantedDomains (s : State) : BitVec 50 :=
  BitVec.ofNat 50 (cget s rPwDomainLo + cget s rPwDomainHi % 2 ^ 18 * 2 ^ 32) ||| fixedDomains

/-- The cells of a group lose what they hold, but for the FAILED state of their engines (R83, R320); codebook slots there become FREE
(R94). -/
def clearGroup (s : State) (g : Nat) : State :=
  let s := dropSlots s fun c => c / 32 == g
  let left := fun (e : Nat × Cell) =>
    if e.1 / 32 ≠ g then some e else if e.2.engine.failed then some (e.1, { engine := { failed := true } }) else none
  { s with grid := { s.grid with cells := s.grid.cells.filterMap left } }

/-- A domain goes off. -/
def openDomain (s : State) (d : Nat) : State :=
  let m : BitVec 50 := ~~~ BitVec.ofNat 50 (2 ^ d)
  let s := { s with power := { s.power with on := s.power.on &&& m, ready := s.power.ready &&& m } }
  if d < 32 then clearGroup s d
  else if 36 ≤ d ∧ d < 42 then disablePort s (d - 36)
  else s

/-- A domain is on and ready: a cell group as its self-test leaves it, a port as R260 says. -/
def domainReady (s : State) (d : Nat) : State :=
  let s := { s with power := { s.power with ready := s.power.ready ||| BitVec.ofNat 50 (2 ^ d) } }
  if d < 32 then clearGroup s d
  else if 36 ≤ d ∧ d < 42 then enablePort s (d - 36)
  else s

/-- The last requested change is complete. -/
def domainsSettled (s : State) : State :=
  if s.power.closing.isEmpty && s.power.on == s.power.ready then setEvent s rPwEvent 0 else s

/-- A committed change takes effect, in step 1 of R28: what goes off goes at once, what comes on is closed one at a time. -/
def domainsBoundary (s : State) : State :=
  let stay := resetDomains &&& s.power.on
  let want := (wantedDomains s &&& ~~~ resetDomains) ||| stay
  let off := (List.range 50).filter fun d => s.power.on.getLsbD d && !want.getLsbD d
  let on := (List.range 50).filter fun d => !s.power.on.getLsbD d && want.getLsbD d
  if s.boot.phase < 7 || (off.isEmpty && on == s.power.closing) then s
  else
    let s := off.foldl openDomain s
    domainsSettled { s with power := { s.power with closing := on } }

/-- DOMAIN_CLOSURE: the next requested domain closes. -/
def closeDomain (s : State) : State :=
  match s.power.closing with
  | [] => s
  | d :: rest =>
    let s := { s with power := { s.power with closing := rest, on := s.power.on ||| BitVec.ofNat 50 (2 ^ d) } }
    if d < 32 then s else domainsSettled (domainReady s d)

/-- DOMAIN_READY: a closed group has passed its self-test. -/
def groupReady (s : State) (d : Nat) : State :=
  if d < 32 && s.power.on.getLsbD d && !s.power.ready.getLsbD d then domainsSettled (domainReady s d) else s

/-! ## Rails (R323, R325) -/

/-- RAIL_READ: every rail's voltage and current, and the correction factor in thousandths, which an unacknowledged transaction freezes. -/
def railRead (s : State) (rs : List RailReading) (k : Nat) : State :=
  let bad := rs.any fun r => r.present && !r.ack
  let s := rs.foldl (fun s r =>
    let v := rPwRailV r.rail.val
    let i := rPwRailI r.rail.val
    if !r.present then rset (rset s v 0) i 0
    else if !r.ack then rput s v 31 31 0
    else rset (rset s v (2 ^ 31 + r.millivolts % 2 ^ 16)) i (r.milliamps / 100 % 2 ^ 16)) s
  let watts := ((rs.filter fun r => r.present && r.ack).map fun r => r.millivolts * r.milliamps).sum / 1000000
  let s := { s with power := { s.power with
    measured := if bad then s.power.measured else min 65535 watts
    k := if bad then s.power.k else min 1250 (max 800 k)
    kFrozen := bad } }
  if bad then setEvent s rPwEvent 8 else s

/-! ## Thermal and wear (R332, R333) -/

/-- Degrees Celsius in the unit of PW_TEMP. -/
def degrees (n : Int) : Int := n * 8

/-- The hottest reading and its sensor, the lowest where several are hottest. -/
def hottest (s : State) : Int × Nat :=
  let ts := s.power.temps
  (List.range ts.length).foldl (fun b i => let t := ts.getD i 0; if b.1 < t || i == 0 then (t, i) else b) (0, 0)

/-- The pin number of THERMTRIP_N in `Tx.pin`. -/
def pinThermtrip : Nat := 0

/-- A sensor at 115 °C: THERMTRIP_N is asserted until reset and every engine is held. -/
def thermtrip (s : State) : State :=
  if s.power.thermtrip || decide ((hottest s).1 < degrees 115) then s
  else
    let s := setEvent { s with power := { s.power with thermtrip := true, holdAll := true } } rPwEvent 7
    event (emit s (.pin pinThermtrip 0)) { sev := sevFatal, src := srcPower, loc := 0x500 + (hottest s).2 }

/-- The step of 50 W, due when 128 boundaries have passed since the thermal cap was last changed. -/
def thermalStep (s : State) : State :=
  match s.power.thermal with
  | none => s
  | some c =>
    if s.power.thermalAge < 128 then s
    else if degrees 105 ≤ (hottest s).1 then { s with power := { s.power with thermal := some (c - 50), thermalAge := 0 } }
    else if (hottest s).1 ≤ degrees 100 then
      { s with power := { s.power with thermal := if 2750 ≤ c + 50 then none else some (c + 50), thermalAge := 0 } }
    else s

/-- The thermal cap at a boundary. -/
def thermalBoundary (s : State) : State :=
  let s := thermtrip s
  match s.power.thermal with
  | none =>
    if (hottest s).1 < degrees 105 then s
    else
      let s := setEvent { s with power := { s.power with thermal := some 2200, thermalAge := 0 } } rPwEvent 6
      event s { sev := sevNotice, src := srcPower, loc := 0x500 + (hottest s).2 } 32
  | some _ => thermalStep { s with power := { s.power with thermalAge := s.power.thermalAge + 1 } }

/-- The wear budget is spent: the ceiling applies for the life of the part. -/
def wearOut (s : State) : State :=
  if s.power.worn then s
  else
    event (setEvent { s with power := { s.power with worn := true } } rPwEvent 4) { sev := sevNotice, src := srcPower }

/-! ## The modelled power and the cap (R325, R328–R331) -/

/-- P of the beat that ends, which only the power controller knows: a free value, at or below the cap unless that is unmet. -/
def takePower (s : State) : Nat × State :=
  let p := Config.modelledPower s.freeCtr % 65536
  (min p (if s.power.holdAll then 2750 else s.power.cap), { s with freeCtr := s.freeCtr + 1 })

def periodUs (s : State) : Nat := cfld s rBtCfg 6 0

/-- Remaining allowance above 2,200 W in µs (R331). -/
def peakRemain (s : State) : Nat :=
  let n := 50000 / periodUs s
  5000 - ((s.power.history.take n).filter fun p => decide (2200 < p)).length * periodUs s

/-- The target in force: LIMIT, or the allocation in mode 1. -/
def targetWatts (s : State) : Nat :=
  if s.power.mode = 1 then ((s.power.alloc.map fun a => a.watts).getD s.power.limit) else s.power.limit

/-- The largest power of the beat that keeps the window's average at or below the target. -/
def targetCap (s : State) : Nat :=
  let n := s.power.window * 1000 / periodUs s
  n * targetWatts s - (s.power.history.take (n - 1)).sum

/-- The terms of R328 with their causes. -/
def capTerms (s : State) : List (Nat × Nat) :=
  [(2750, 0), (targetCap s, 1)] ++
  (if cfld s rPwCfg 24 24 = 1 && decide (peakRemain s < periodUs s) then [(2200, 2)] else []) ++
  ((s.power.thermal.map fun c => [(c, 3)]).getD []) ++
  (if s.power.worn then [(2400, 4)] else [])

/-- CAP_SET: the least term; of equal ones the first. Every engine stays held until the cap rises. -/
def setCap (s : State) : State :=
  let s := if cfld s rPwCfg 24 24 = 1 && decide (peakRemain s < periodUs s) then setEvent s rPwEvent 5 else s
  let least := (capTerms s).foldl (fun b t => if t.1 < b.1 then t else b) (2750, 0)
  let rises := decide (s.power.cap < least.1)
  { s with power := { s.power with cap := least.1, capCause := least.2, holdAll := s.power.thermtrip || (s.power.holdAll && !rises) } }

/-- An allocation's span ends with none to follow it. -/
def allocLapse (s : State) : State :=
  match s.power.alloc with
  | some a =>
    if hasBeat s && decide (a.last ≤ now s) then setEvent { s with power := { s.power with alloc := none } } rPwEvent 1 else s
  | none => s

/-- The last recorded allocation whose first beat has come, and what was recorded after it. -/
def lastDue (b : Nat) : List Alloc → Option (Alloc × List Alloc)
  | [] => none
  | a :: rest =>
    match lastDue b rest with
    | some x => some x
    | none => if a.first ≤ b then some (a, rest) else none

/-- An allocation whose first beat has come takes force, and replaces every earlier one from there on (R330). -/
def allocBoundary (s : State) : State :=
  allocLapse (match lastDue (now s) s.power.allocNext with
    | some (a, rest) => { s with power := { s.power with alloc := some a, allocNext := rest } }
    | none => s)

/-- A POWER_ALLOC's body as its bytes lie: WATTS and its reserved upper half, FIRST, SPAN and its reserved upper 32 bits (R330). -/
def allocBody (watts : Word) (first : BeatField) (span : BitVec 48) : List Byte :=
  leBytes 4 watts.toNat ++ leBytes 6 first.toNat ++ leBytes 6 span.toNat

/-- The fields of a POWER_ALLOC's body (R330). -/
def allocWatts (b : List Byte) : Nat := leNat (b.take 2)
def allocFirst (b : List Byte) : Nat := leNat ((b.drop 4).take 6)
def allocSpan (b : List Byte) : Nat := leNat ((b.drop 10).take 2)
def allocBodyBad (b : List Byte) : Bool :=
  leNat ((b.drop 2).take 2) != 0 || leNat ((b.drop 12).take 4) != 0 || allocWatts b == 0 || decide (2750 < allocWatts b) || allocSpan b == 0

/-- POWER_ALLOC (R330). -/
def powerAlloc (watts first span : Nat) (s : State) : State × Half × List Nat :=
  if s.power.mode = 0 then (s, stOkNoop, [])
  else if first + span ≤ now s then (s, stBeatPassed, [])
  else ({ s with power := { s.power with allocNext := s.power.allocNext ++ [{ watts := watts, first := first, last := first + span }] } }, stOk, [])

/-- OP_SET_POWER_LIMIT (R329). -/
def opSetPowerLimit (s : State) (cmd mode window limit : Nat) : State :=
  if 1 < mode ∨ window = 0 ∨ 50 < window ∨ limit = 0 ∨ 2750 < limit then refuseCmd s cmd stBadField
  else { s with power := { s.power with setting := s.power.setting ++ [(cmd, mode, window, limit)] } }

/-- New settings at a boundary, in the order of their commands. DESIGN CHOICE (log 76): a change of mode discards, with the allocation in
force, those recorded for later. -/
def applySettings (s : State) : State :=
  s.power.setting.foldl (fun (s : State) (q : Nat × Nat × Nat × Nat) =>
    let changed := s.power.mode != q.2.1
    { s with power := { s.power with
      mode := q.2.1, window := q.2.2.1, limit := q.2.2.2
      alloc := if changed then none else s.power.alloc
      allocNext := if changed then [] else s.power.allocNext } }) s

/-- HOLD_ROTATION: every 128 cclk the governor advances the group it holds while P would be above the cap. -/
def holdRotation (s : State) (above unmet : Bool) : State :=
  let s := { s with grid := { s.grid with rotating := above, heldGroup := if above then (s.grid.heldGroup + 1) % 32 else s.grid.heldGroup } }
  let s :=
    if above && unmet && !s.power.holdAll then
      event (setEvent { s with power := { s.power with holdAll := true } } rPwEvent 2) { sev := sevNotice, src := srcPower } 64
    else s
  wrapAdd s rPwHoldCount (if s.power.holdAll then 32 * 128 else if above then 128 else 0)

/-! ## Margin (R334, R335) -/

/-- Area of a monitor: combs 0 to 3, the hub 4. -/
def monitorArea (m : Nat) : Nat := if m < 80 then m / 20 else 4
def areaTop (a : Nat) : Nat := if a = 4 then 800 else 850

/-- MARGIN_TRIM: the monitors are re-read; areas that are short are raised at the next boundary, or report that they cannot be. -/
def marginTrim (s : State) (slacks : List Nat) : State :=
  if cfld s rPwCfg 0 0 = 0 then s
  else
    let s := { s with power := { s.power with slacks := slacks } }
    let short := (List.range 5).filter fun a => (List.range slacks.length).any fun m => monitorArea m == a && decide (slacks.getD m 0 < 10)
    let top := short.filter fun a => decide (areaTop a ≤ s.power.vreq.getD a 0)
    let s := { s with power := { s.power with trimNext := (short.filter fun a => !top.contains a).foldl (fun l a => insertNat a l) s.power.trimNext } }
    if top.isEmpty then s
    else
      let soft := cfld s rRlCfg 31 16
      let s := { s with reliab := { s.reliab with marginOut := true, score := max s.reliab.score soft } }
      event (setEvent s rPwEvent 3) { sev := sevError, src := srcPower, loc := 0x500 + (top.headD 0) * 20 }

/-- Raised requests at a boundary, each written over AVSBus. -/
def trimBoundary (s : State) : State :=
  s.power.trimNext.foldl (fun s a =>
    let mv := min (areaTop a) (s.power.vreq.getD a 0 + 5)
    emit { s with power := { s.power with vreq := (List.range 5).map fun i => if i = a then mv else s.power.vreq.getD i 0 } } (.avs a mv))
    { s with power := { s.power with trimNext := [] } }

/-! ## The boundary -/

/-- The power controller's part of step 1 of R28. -/
def powerBoundary (s : State) : State :=
  let s := domainsBoundary s
  let (p, s) := takePower s
  let s := { s with power := { s.power with
    history := (p :: s.power.history).take 25000
    wear := s.power.wear + (if 2400 < p then periodUs s else 0) } }
  let s := if s.power.wearBudget * 1000000 ≤ s.power.wear then wearOut s else s
  let waiting := s.power.setting
  let s := applySettings s
  let s := { s with power := { s.power with setting := [] } }
  let s := if hasBeat s then allocBoundary s else s
  let s := trimBoundary (setCap (thermalBoundary s))
  waiting.foldl (fun (s : State) (q : Nat × Nat × Nat × Nat) => finishCmd s q.1 stOk s.power.cap) s

end Sys2Proof.Machine
end

