-- ==== Sys2Proof/Machine/Reliab.lean ====
section
/-!
DEFINITION. Self-tests and the fabric manager's answer (spec/15_reliability.md R342–R345, R347, R349). Scores, health states and event
records stand in Machine/Ops.lean.
-/

namespace Sys2Proof.Machine

/-! ## Known-answer tests (R342–R344) -/

/-- A cell is marked in RL_CELL_FAILm. -/
def markCell (s : State) (c : Nat) : State := rput s (rRlCellFail (c / 32)) (c % 32) (c % 32) 1

/-- A test of the cell ended with a pass. -/
def katPassed (s : State) (c : Nat) : State :=
  { s with reliab := { s.reliab with katBeat := tset s.reliab.katBeat c s.beat.periods } }

/-- The outcome of R343 on one cell. -/
def katOutcome (s : State) (c : Nat) : KatEnd → State
  | .pass => satAdd (katPassed s c) rRlKatCount 31 0 1
  | .transient => event (setEvent (katPassed s c) rRlEvent 4) { sev := sevCorrected, src := srcReliab, loc := c } 128
  | .permanent =>
    let s := setEvent (failEngine (markCell s c) c) rRlEvent 5
    hardEvent (event s { sev := sevFault, src := srcReliab, status := stCheckMismatch, loc := c }) 5

/-- The cell may be tested at this boundary (R342). `busy` lists the cells whose work blocks start in this beat. -/
def katEligible (s : State) (busy : List Nat) (c : Nat) : Bool :=
  let x := cellGet s c
  cellOn s c && !x.engine.failed && x.engine.queue.isEmpty && x.dma.isEmpty && !busy.contains c &&
  !x.workers.any fun e => e.2.state == .ready || e.2.state == .waiting

/-- KNOWN_ANSWER_TEST at an idle test beat entry: the first eligible cell from NEXT upward with wrap-around. -/
def katEntry (s : State) (busy cells : List Nat) (e : KatEnd) : State :=
  let from_ := s.reliab.katNext
  let order := (sortBy id (cells.filter fun c => decide (from_ ≤ c))) ++ sortBy id (cells.filter fun c => decide (c < from_))
  match (if cfld s rRlCfg 0 0 = 1 then order.find? (katEligible s busy) else none) with
  | none => satAdd s rRlKatSkip 31 0 1
  | some c => katOutcome { s with reliab := { s.reliab with katNext := (c + 1) % 1024 } } c e

/-- Powered, ready cells. -/
def readyCells (s : State) : List Nat := (List.range 1024).filter fun c => cellOn s c

/-- OP_SELF_TEST: refused while a job is started or a self-test runs (R312, R344). -/
def opSelfTest (s : State) (cmd kind : Nat) : State :=
  if 1 < kind then refuseCmd s cmd stBadField
  else if jobStarted s || s.reliab.test != .none then refuseCmd s cmd stBusyReferenced
  else if kind = 0 then { s with reliab := { s.reliab with test := .kat cmd } }
  else rput { s with reliab := { s.reliab with test := .stress cmd } } rRlStress 23 16 0

/-- The pass over every powered cell has ended. -/
def katPassEnds (s : State) (failing transient : List CellId) : State :=
  match s.reliab.test with
  | .kat cmd =>
    let s := { s with reliab := { s.reliab with test := .none } }
    let bad := (readyCells s).filter fun c => failing.any fun f => f.val == c
    let s := (readyCells s).foldl (fun s c =>
      katOutcome s c (if bad.contains c then .permanent else if transient.any (fun f => f.val == c) then .transient else .pass)) s
    finishCmd s cmd (if bad.isEmpty then stOk else stCheckMismatch) bad.length
  | _ => s

/-! ## The stress test (R345) -/

/-- What the stress test leaves: memory zero, codebook slots FREE, workers IDLE, on every cell it ran on. -/
def stressLeaves (s : State) : State :=
  let s := dropSlots s fun c => cellOn s c
  let blank := fun (e : Nat × Cell) => if cellOn s e.1 then (e.1, { engine := { failed := e.2.engine.failed } }) else e
  { s with grid := { s.grid with cells := s.grid.cells.map blank } }

/-- The findings of a stress test: marked cells, the count, the hard event or the way back from EXPELLED (R345, R347). DESIGN CHOICE
(log 78): COOL and its event are seen when the test ends, and the rails of its phases show in no state. -/
def stressFindings (s : State) (failing : List Nat) (cool : Bool) : State :=
  let bad := (readyCells s).filter failing.contains
  let s := stressLeaves s
  let s := rput (rput s rRlStress 30 30 (b2n cool)) rRlStress 10 0 bad.length
  let s := if cool then setEvent s rRlEvent 6 else s
  let s := bad.foldl (fun s c =>
    hardEvent (event (markCell s c) { sev := sevFault, src := srcReliab, status := stCheckMismatch, loc := c }) 5) s
  if bad.isEmpty && s.reliab.health == .expelled && (s.reliab.cause == 1 || s.reliab.cause == 2) then
    healthMove { s with reliab := { s.reliab with score := 0 } } .healthy
  else s

/-- STRESS_TEST_END. -/
def stressEnds (s : State) (failing : List CellId) (cool : Bool) : State :=
  match s.reliab.test with
  | .stress cmd =>
    let s := { s with reliab := { s.reliab with test := .none } }
    let s := stressFindings s (failing.map fun c => c.val) cool
    let n := rfld s rRlStress 10 0
    finishCmd s cmd (if n = 0 then stOk else stCheckMismatch) n
  | _ => s

/-! ## RL_EXPEL (R347, R349) -/

/-- GRANT in SOFT_PENDING or SUSPECT. -/
def grantExpel (s : State) : State :=
  if s.reliab.health == .softPending || s.reliab.health == .suspect then
    expel { s with reliab := { s.reliab with cause := if s.reliab.cause = 0 then 1 else s.reliab.cause } }
  else s

/-- NO_SPARE in SOFT_PENDING. -/
def noSpare (s : State) : State := if s.reliab.health == .softPending then healthMove s .suspect else s

/-- A write of RL_EXPEL; one that sets both bits is ignored. -/
def writeExpel (s : State) (value : Nat) : State :=
  if bit value 0 = 1 ∧ bit value 1 = 1 then s
  else if bit value 0 = 1 then grantExpel s
  else if bit value 1 = 1 then noSpare s
  else s

/-- SENSOR_READ: every sensor's reading; the hottest of a running stress test is kept (R332, R353). -/
def sensorRead (s : State) (temps : List Int) : State :=
  let s := thermtrip { s with power := { s.power with temps := temps } }
  match s.reliab.test with
  | .stress _ => rput s rRlStress 23 16 (max (rfld s rRlStress 23 16) (((hottest s).1 / 8).toNat % 256))
  | _ => s

end Sys2Proof.Machine
end

