-- ==== Sys2Proof/Machine/Host.lean ====
section
/-!
DEFINITION. Host commands (spec/13_host_interface.md): doorbells and the fetch of entries (R300–R302), the checks of R303 with R27 and
R32, the order of starts (R304), the commands no other chapter owns (OP_IDENTIFY, OP_READ_ACCOUNTING, OP_MIGRATE_TILES, OP_PREFETCH,
OP_DMA_COPY), function level reset (R310, R401).
-/

namespace Sys2Proof.Machine

/-! ## Commands of this chapter -/

/-- The identity word (R312). -/
def identityWord (s : State) (fn : Nat) : Nat :=
  0x2720 + 0xA0 * 2 ^ 16 + roleOf s * 2 ^ 24 + nodeNum s * 2 ^ 32 + b2n s.fabric.node.isSome * 2 ^ 47 + fn * 2 ^ 48

/-- The 4 KiB identify page (R312). -/
def identifyPage (s : State) (fn : Nat) : List Byte :=
  leBytes 8 (identityWord s fn) ++ leBytes 4 (roleEpoch s) ++ leBytes 4 0 ++ leBytes 8 (identity s) ++ measBytes (measOf s 3) ++
  measBytes (measOf s 4) ++ leBytes 4 s.tiers.total ++ leBytes 3972 0

def opIdentify (s : State) (cmd fn : Nat) (page : DWord) : State :=
  if page.toNat % 64 != 0 then refuseCmd s cmd stBadField
  else
    let s' := if page = 0 then s else emit s (.hostWrite fn page.toNat (identifyPage s fn))
    finishCmd s' cmd stOk (identityWord s fn)

/-- The 104 bytes of an accounting report: the publication's beat and the twelve counters of a client (R222, R312). -/
def accountBytes (s : State) (client : Nat) : List Byte :=
  (s.sched.pubBeat :: (List.range 12).map fun i => tgetD s.sched.acctPub (client * 12 + i) 0).flatMap fun w => leBytes 8 w

/-- OP_READ_ACCOUNTING: all twelve counters as last published (R222). -/
def opReadAccounting (s : State) (cmd fn client : Nat) (buf : DWord) : State :=
  if fn != 0 && client != fn then refuseCmd s cmd stClientMismatch
  else if buf = 0 || buf.toNat % 64 != 0 then refuseCmd s cmd stBadField
  else finishCmd (emit s (.hostWrite fn buf.toNat (accountBytes s client))) cmd stOk s.sched.pubBeat

/-! ## OP_MIGRATE_TILES and OP_PREFETCH (R235) -/

/-- The rows of R235 from the pins on, and the request to the mover. -/
def queueTiles (s : State) (cmd rank dest comb : Nat) (tiles : List Nat) : State :=
  if tiles.any (fun t => match pinTier s t with | some k => k != dest | none => false) then refuseCmd s cmd stBusyReferenced
  else if rank == 5 && dest != 0 && tiles.any (inPool s) then refuseCmd s cmd stRights
  else if dest == 3 && tiles.any (fun t => sealedRange s (t * tileSize) tileSize) then refuseCmd (sealRefused s) cmd stRights
  else if (dest == 2 && !nandOpen s) || (dest == 1 && !s.tiers.ddrState.any fun e => e.2 == 1) then refuseCmd s cmd stNoResource
  else if 1024 ≤ s.tiers.reqs.length then refuseCmd s cmd stNoResource
  else settleMoves (addMove s rank dest comb tiles cmd (some (cmdFn s cmd)))

def combOk (c : Byte) : Bool := decide (c.toNat < 4) || c.toNat == 7

/-- A named range of tiles, by the rows of R235. -/
def moveRange (s : State) (cmd fn rank dest comb first count : Nat) : State :=
  if count = 0 then finishCmd s cmd stOkNoop 0
  else if !inRange s first (count * tileSize) || !fnMay s fn first (count * tileSize) then refuseCmd s cmd stBounds
  else queueTiles s cmd rank dest comb ((List.range count).map (tileOf first + ·))

def opMigrate (s : State) (cmd fn : Nat) (a : MigrateArg) : State :=
  if 3 < a.dest.toNat || !combOk a.comb || a.first.toNat % tileSize != 0 then refuseCmd s cmd stBadField
  else moveRange s cmd fn 5 a.dest.toNat a.comb.toNat a.first.toNat a.count.toNat

/-- The tiles of every page that a request's map names, in order of layer, then block. -/
def mapTiles (s : State) (d : Desc) : List Nat :=
  match descLayout s d with
  | none => []
  | some l =>
    ((List.range l.layers).flatMap fun layer => (List.range (mapBlocks l)).flatMap fun b =>
      (List.range (localGroups l)).filterMap fun g => (pageOf s (mapGet s l d.map b layer g)).map fun p => tileOf p.frame).eraseDups

def opPrefetch (s : State) (cmd fn : Nat) (a : PrefetchArg) : State :=
  if !combOk a.comb then refuseCmd s cmd stBadField
  else if a.byHandle then
    if a.first = 0 then refuseCmd s cmd stBadField
    else
      match descOf s a.first with
      | some d =>
        if d.state != .active && d.state != .adopted then refuseCmd s cmd stNotOwner
        else if d.client != fn then refuseCmd s cmd stClientMismatch
        else queueTiles s cmd 4 0 a.comb.toNat (if d.state == .active then mapTiles s d else [])
      | none => refuseCmd s cmd stNotOwner
  else if a.first.toNat % tileSize != 0 || 2 ^ 48 ≤ a.first.toNat then refuseCmd s cmd stBadField
  else moveRange s cmd fn 4 0 a.comb.toNat a.first.toNat a.count.toNat

/-! ## OP_DMA_COPY (R313) -/

/-- The AER errors the model logs, by their bits in the uncorrectable error status register. -/
def aerPoisoned : Nat := 12
def aerTimeout : Nat := 14
def aerUnsupported : Nat := 20

/-- Logs an AER error through a function; nothing before READY (R315, R396). -/
def aerLog (s : State) (f err : Nat) : State :=
  if s.boot.phase == 7 then { s with host := { s.host with aer := s.host.aer ++ [(f, err)] } } else s

/-- Copies line after line: `host` holds the completions of the reads of host memory. The answer is the bytes copied and the status. -/
def copyLines (fn ss ds : Nat) : Nat → State → Nat → Nat → List HostLine → Nat → Half → State × Nat × Half
  | 0, s, _, _, _, done, st => (s, done, st)
  | n + 1, s, src, dst, host, done, st =>
    let line : Option (List Byte × Bool) × State :=
      if ss = 0 then
        match host with
        | .data v p :: _ => (some (vregBytes v, p), if p then aerLog s fn aerPoisoned else s)
        | .refused :: _ => (none, s)
        | _ => (none, aerLog s fn aerTimeout)
      else (some (rangeRead s src 64, rangePoisoned s src 64), chargeAccess (touchRange s src 64) fn src 64 false)
    match line with
    | (none, s) => (s, done, stHostFault)
    | (some (bs, p), s) =>
      let r : State × Bool :=
        if ds = 0 then (emit s (if p then .hostPoison fn dst else .hostWrite fn dst bs), true)
        else
          let (s, ok) := rangeWrite s dst bs p
          (chargeAccess s fn dst 64 true, ok)
      match r with
      | (s, false) => (s, done, stNoResource)
      | (s, true) =>
        copyLines fn ss ds n s (src + 64) (dst + 64) (if ss = 0 then host.tail else host) (done + 64) (if p then stPoisoned else st)

def opDmaCopy (s : State) (cmd fn : Nat) (a : DmaCopyArg) (host : HostLines) : State :=
  let ss := bits a.spaces.toNat 3 0
  let ds := bits a.spaces.toNat 7 4
  let len := a.length.toNat
  let src := a.src.toNat
  let dst := a.dst.toNat
  let bad := fun (sp x : Nat) => sp == 1 && (!inRange s x len || !fnMay s fn x len)
  if 1 < ss || 1 < ds || src % 64 != 0 || dst % 64 != 0 || len % 64 != 0 || 2 ^ 30 < len then refuseCmd s cmd stBadField
  else if len = 0 then finishCmd s cmd stOkNoop 0
  else if bad ss src || bad ds dst then refuseCmd s cmd stBounds
  else if (ss == 1 && protectedRange s src len) || (ds == 1 && protectedRange s dst len) then refuseCmd s cmd stRights
  else if ds == 1 && sealedRange s dst len then refuseCmd (sealRefused s) cmd stRights
  else
    let s := if ss = 1 then memoryFindings s src len host.tier else s
    let (s, done, st) := copyLines fn ss ds (len / 64) s src dst host.lines 0 stOk
    finishCmd s cmd st done

/-! ## Starting a command -/

/-- A command starts: the opcode's own checks, then its action (R303 row 7). `released` says that step 4 of R28 released it. -/
def startOp (s : State) (id : Nat) (released : Bool) : State :=
  match cmdGet s id with
  | none => s
  | some c =>
    let s := cmdMod s id fun c => { c with phase := 2 }
    let fn := c.hdr.fn.val
    match c.op with
    | .nop => finishCmd s id stOk 0
    | .identify page => opIdentify s id fn page
    | .setRole r => opSetRole s id r
    | .loadModel a => opLoadModel s id fn a
    | .loadSchedule a => opLoadSchedule s id fn a
    | .startJob => startJob s id released
    | .stopJob j => opStopJob s id j
    | .submit a => opSubmit s id c.hdr a
    | .cancel h => opCancel s id h
    | .handoffOut h t => opHandoffOut s id h t
    | .handoffIn a => opHandoffIn s id c.hdr a
    | .query h b => opQuery s id h b
    | .prefixLookup h n t => opPrefixLookup s id fn h n t
    | .pagePin p => opPagePin s id fn p.toNat
    | .pageUnpin p => opPageUnpin s id fn p.toNat
    | .loadCodebook a j f l => opLoadCodebook s id fn a j f l
    | .retireCodebook v f l => retireCodebook s id fn v.toNat f.toNat l.toNat
    | .loadGrammar a j => opLoadGrammar s id fn a j
    | .retireGrammar g => opRetireGrammar s id fn g.toNat
    | .registerRegion a => registerRegion s id fn a
    | .revokeRegion k => opRevoke s id fn k
    | .postRecv a => postRecv s id fn a
    | .send a => opSend s id fn a c.hdr.deadline.toNat
    | .flush n => opFlush s id fn n.toNat c.upto
    | .migrate a => opMigrate s id fn a
    | .prefetch a => opPrefetch s id fn a
    | .contextCreate a => contextCreate s id fn a
    | .contextDestroy n => contextDestroy s id fn n.toNat
    | .semInit n k => semInit s id fn n.toNat k.toNat
    | .setPowerLimit m w l => opSetPowerLimit s id m.toNat w.toNat l.toNat
    | .attest b n => opAttest s id fn b n
    | .readAccounting k b => opReadAccounting s id fn k.toNat b
    | .selfTest k => opSelfTest s id k.toNat
    | .dmaCopy a h => opDmaCopy s id fn a h

/-- A COMMAND reply of an earlier command of the ring waits in the function's reply queue and is not written yet (R304, R308). -/
def replyWaits (s : State) (c : Cmd) : Bool :=
  (fnGet s c.hdr.fn.val).queue.any fun r => r.kind == 0 && r.ring == c.hdr.ring.val && decide (r.pos < c.pos)

/-- Commands of one ring start in ring order, and a FENCE waits until the replies of all before it have been written. A command that was
held has left the ring: its FENCE alone holds it (R304). -/
def cmdWaits (s : State) (c : Cmd) (held : Bool) : Bool :=
  (s.host.cmds.any fun x => x.hdr.fn == c.hdr.fn && x.hdr.ring == c.hdr.ring && decide (x.pos < c.pos) && (c.hdr.fence || (!held && x.phase == 0))) ||
  (c.hdr.fence && replyWaits s c)

/-- Starts the first command that waits behind a FENCE and no longer has to, and on to the next. `step4` says that this is step 4 of R28:
only there does a command released at this boundary start as released (R30). -/
def releaseFencesF (step4 : Bool) : Nat → State → State
  | 0, s => s
  | n + 1, s =>
    match s.host.cmds.find? fun c => (c.phase == 0 && !cmdWaits s c false) || (c.phase == 3 && !cmdWaits s c true) with
    | some c => releaseFencesF step4 n (startOp s c.id (step4 && c.phase == 3))
    | none => s

/-- What a row that can complete a command ends with: packets that have left, then commands that a reply lets start. -/
def settle (s : State) : State :=
  let s := noteLeft s
  releaseFencesF false s.host.cmds.length s

/-! ## The checks of R303 -/

/-- Opcodes that only PF0 may issue. -/
def opPf0 : HostOp → Bool
  | .setRole _ | .loadSchedule _ | .startJob | .stopJob _ | .setPowerLimit .. | .selfTest _ => true
  | _ => false

/-- The Role column of R311 admits the device's role; role 0 is none. -/
def opRoleOk (role : Nat) : HostOp → Bool
  | .nop | .identify _ | .setRole _ | .loadModel _ | .loadSchedule _ | .setPowerLimit .. | .attest .. | .readAccounting .. | .selfTest _
  | .dmaCopy .. => true
  | .submit a => role == rolePrompt || role == roleMixed || (role == roleGeneration && a.parent != 0)
  | .cancel _ | .handoffOut .. | .handoffIn _ => role == rolePrompt || role == roleGeneration || role == roleMixed
  | _ => role != 0

/-- Opcodes that check ROLE_EPOCH. -/
def opEpoch : HostOp → Bool
  | .setRole _ | .submit _ | .cancel _ | .handoffOut .. | .handoffIn _ | .query .. | .prefixLookup .. => true
  | _ => false

/-- What the parse of a command comes to: refused, held for its not-before beat, or to start. -/
inductive Parsed where
  | refuse (st : Half) | full | hold | start
  deriving DecidableEq, Repr

/-- R27, then R32. -/
def beatCheck (s : State) (h : CmdHdr) (op : HostOp) : Parsed :=
  let n := h.notBefore.toNat
  let d := h.deadline.toNat
  let c := now s
  if !hasBeat s && (n != 0 || d != 0) then .refuse stBeatLost
  else if op == .startJob && s.beat.state != .locked then .refuse stBeatLost
  else if n != 0 && d != 0 && decide (d ≤ n) then .refuse stBadField
  else if c + 2 ^ 32 < n then .refuse stBadField
  else if d != 0 && decide (d ≤ c) then .refuse stDeadlineMissed
  else if c < n then
    if 4096 ≤ (s.host.cmds.filter fun x => x.phase == 1).length then .full else .hold
  else .start

/-- Rows 2 to 6 of R303. -/
def parseCheck (s : State) (h : CmdHdr) (op : HostOp) : Parsed :=
  if opPf0 op && h.fn.val != 0 then .refuse stRights
  else if h.resv then .refuse stBadField
  else if !opRoleOk (roleOf s) op then .refuse stWrongRole
  else if opEpoch op && h.roleEpoch.toNat != roleEpoch s then .refuse stRoleStale
  else beatCheck s h op

/-- Commands that have been parsed and whose reply is not written: in progress, or with their reply in a queue (R304, R308). -/
def unanswered (s : State) : Nat :=
  s.host.cmds.length + (s.host.fns.map fun (e : Nat × Fn) => (e.2.queue.filter fun r => r.kind == 0).length).foldl (· + ·) 0

/-- A function may have a command parsed: the device is READY, the function exists, none of its replies waits, and fewer than 65,536
commands are without a reply (R298, R301, R304, R398). -/
def fetchOpen (s : State) (fn : Nat) : Bool :=
  s.boot.phase == 7 && fnEnabled s fn && (fnGet s fn).queue.isEmpty && decide (unanswered s < 65536)

/-- The number the next command gets: one that no command has. -/
def freshCmd (s : State) : Nat := s.host.cmds.foldl (fun (n : Nat) (c : Cmd) => max n (c.id + 1)) s.host.nextCmd

/-- The state with a parsed command counted and taken in, in a phase. -/
def enterCmd (s : State) (h : CmdHdr) (op : HostOp) (phase : Nat) : State :=
  let id := freshCmd s
  let s := satAdd s rHiCmdCount 31 0 1
  { s with host := { s.host with
      nextCmd := id + 1
      cmds := s.host.cmds ++ [{ id := id, hdr := h, op := op, pos := id, phase := phase, upto := s.remote.nextSeq }] } }

/-- The request handle of a command of the forager's chapter, zero where it names none. -/
def foragerOp : HostOp → Option DWord
  | .submit _ | .prefixLookup .. => some 0
  | .cancel h | .handoffOut h _ | .query h _ => some h
  | .handoffIn a => some a.handle
  | _ => none

/-- A command refused as it is parsed; one of the forager's chapter is also recorded and counted there (R141, R168). -/
def refuseParsed (s : State) (cmd : Nat) (op : HostOp) (st : Half) : State :=
  match foragerOp op with
  | some h => refuseReq s cmd st h
  | none => refuseCmd s cmd st

/-- Takes a parsed command in: counted, checked, then held, made to wait for a FENCE, or started. -/
def takeCommand (s : State) (h : CmdHdr) (op : HostOp) : State :=
  let id := freshCmd s
  match parseCheck s h op with
  | .refuse st => refuseParsed (enterCmd s h op 2) id op st
  | .full => refuseParsed (setEvent (enterCmd s h op 2) rBtEvent 6) id op stNoResource
  | .hold => enterCmd s h op 1
  | .start =>
    let c : Cmd := { id := id, hdr := h, op := op, pos := id, phase := 0 }
    if cmdWaits s c false then enterCmd s h op 0 else startOp (enterCmd s h op 2) id false

/-- A host command arrives at the command processor. -/
def issueHostCommand (s : State) (h : CmdHdr) (op : HostOp) : State :=
  if fetchOpen s h.fn.val then settle (takeCommand s h op) else s

/-! ## The bytes of a command (R302, R311, R312) -/

/-- `n` bytes from byte `o` of a packet. -/
def fld (v : VReg) (o n : Nat) : Nat := v.toNat / 2 ^ (8 * o) % 2 ^ (8 * n)

/-- Some byte of the parameters that `used` does not cover is non-zero: `used` lists first byte and length. -/
def resvBytes (v : VReg) (used : List (Nat × Nat)) : Bool :=
  (List.range 44).any fun i => fld v (20 + i) 1 != 0 && !used.any fun u => decide (u.1 ≤ 20 + i) && decide (20 + i < u.1 + u.2)

/-- Reserved bits of a 16-bit node field: [14], and [15] where it is not used. -/
def nodeResv (v : VReg) (o : Nat) (used15 : Bool) : Bool := bit (fld v o 2) 14 != 0 || (!used15 && bit (fld v o 2) 15 != 0)

def imageOf (v : VReg) : ImageArg := { image := BitVec.ofNat 48 (fld v 20 6), length := BitVec.ofNat 64 (fld v 28 8) }

/-- The operation and whether a reserved parameter bit is set; none for an opcode outside the table. -/
def parseOp (v : VReg) (host : HostLines) : Option (HostOp × Bool) :=
  let f1 := fun o => BitVec.ofNat 8 (fld v o 1)
  let f2 := fun o => BitVec.ofNat 16 (fld v o 2)
  let f4 := fun o => BitVec.ofNat 32 (fld v o 4)
  let f6 := fun o => BitVec.ofNat 48 (fld v o 6)
  let f8 := fun o => BitVec.ofNat 64 (fld v o 8)
  let r := resvBytes v
  match fld v 0 1 with
  | 0x00 => some (.nop, r [])
  | 0x01 => some (.identify (f8 20), r [(20, 8)])
  | 0x02 => some (.setRole (f1 20), r [(20, 1)])
  | 0x04 => some (.loadModel (imageOf v), r [(20, 6), (28, 8)])
  | 0x05 => some (.loadSchedule (imageOf v), r [(20, 6), (28, 8)])
  | 0x06 => some (.startJob, r [])
  | 0x07 => some (.stopJob (f2 20), r [(20, 2)])
  | 0x10 =>
    some (.submit { context := f2 20, home := f2 22, plen := f4 24, maxlen := f4 28, tbuf := f6 32, sample := f6 40, map := f6 48, parent := f8 56 },
      r [(20, 18), (40, 6), (48, 6), (56, 8)] || nodeResv v 22 true)
  | 0x11 => some (.cancel (f8 20), r [(20, 8)])
  | 0x12 => some (.handoffOut (f8 20) (f2 28), r [(20, 10)] || nodeResv v 28 false)
  | 0x13 =>
    some (.handoffIn { handle := f8 20, source := f2 28, context := f2 30, tbuf := f6 32, sample := f6 40, map := f6 48 },
      r [(20, 18), (40, 6), (48, 6)] || nodeResv v 28 true)
  | 0x14 => some (.query (f8 20) (f8 28), r [(20, 16)])
  | 0x18 => some (.prefixLookup (f2 20) (f4 24) (f6 28), r [(20, 2), (24, 10)] || nodeResv v 20 false)
  | 0x19 => some (.pagePin (f4 20), r [(20, 4)])
  | 0x1A => some (.pageUnpin (f4 20), r [(20, 4)])
  | 0x20 => some (.loadCodebook (imageOf v) (f1 36) (f2 38) (f2 40), r [(20, 6), (28, 9), (38, 4)])
  | 0x21 => some (.retireCodebook (f2 20) (f2 22) (f2 24), r [(20, 6)])
  | 0x28 => some (.loadGrammar (imageOf v) (f1 36), r [(20, 6), (28, 9)])
  | 0x29 => some (.retireGrammar (f2 20), r [(20, 2)])
  | 0x30 =>
    some (.registerRegion { kind := f1 20, attr := f1 21, from_ := f2 22, base := f6 24, size := f8 32 },
      r [(20, 10), (32, 8)] || nodeResv v 22 false || bit (fld v 21 1) 2 != 0 || bits (fld v 21 1) 7 5 != 0)
  | 0x31 => some (.revokeRegion (f8 20), r [(20, 8)])
  | 0x32 => some (.postRecv { key := f8 20, slot := f2 28, buf := f6 32, size := f4 40 }, r [(20, 10), (32, 6), (40, 4)])
  | 0x33 =>
    some (.send { node := f2 20, slot := f2 22, key := f8 24, gen := f4 32, length := f4 36, src := f6 40 },
      r [(20, 26)] || nodeResv v 20 false)
  | 0x34 => some (.flush (f2 20), r [(20, 2)] || nodeResv v 20 true)
  | 0x38 => some (.migrate { first := f6 20, count := f4 28, dest := f1 32, comb := f1 33 }, r [(20, 6), (28, 6)])
  | 0x39 =>
    let form := fld v 20 1
    some (.prefetch { byHandle := form == 1, comb := f1 21, first := f8 24, count := f4 32 },
      decide (2 ≤ form) || r (if form = 1 then [(20, 2), (24, 8)] else [(20, 2), (24, 6), (32, 4)]))
  | 0x40 =>
    some (.contextCreate { cls := f1 20, priority := f1 21, prot := bit (fld v 22 1) 0 == 1, base := f6 24, size := f8 32 },
      r [(20, 3), (24, 6), (32, 8)] || bits (fld v 22 1) 7 1 != 0)
  | 0x41 => some (.contextDestroy (f2 20), r [(20, 2)])
  | 0x42 => some (.semInit (f2 20) (f2 22), r [(20, 4)])
  | 0x48 => some (.setPowerLimit (f1 20) (f2 22) (f4 24), r [(20, 1), (22, 6)])
  | 0x50 => some (.attest (f8 20) (BitVec.ofNat 256 (fld v 28 32)), r [(20, 40)])
  | 0x51 => some (.readAccounting (f1 20) (f8 24), r [(20, 1), (24, 8)])
  | 0x58 => some (.selfTest (f1 20), r [(20, 1)])
  | 0x60 => some (.dmaCopy { spaces := f1 20, src := f8 24, dst := f8 32, length := f8 40 } host, r [(20, 1), (24, 24)])
  | _ => none

/-- The common part of a packet. -/
def parseHdr (fn : FnId) (ring : Fin 16) (v : VReg) (resv : Bool) : CmdHdr :=
  { fn := fn, ring := ring, cid := BitVec.ofNat 16 (fld v 2 2), fence := bit (fld v 1 1) 0 == 1, irqNow := bit (fld v 1 1) 1 == 1
    notBefore := BitVec.ofNat 48 (fld v 4 6), deadline := BitVec.ofNat 48 (fld v 10 6), roleEpoch := BitVec.ofNat 32 (fld v 16 4)
    resv := resv || bits (fld v 1 1) 7 2 != 0 }

/-- Parses the 64 bytes of an entry; an opcode outside the table is row 1 of R303. -/
def parseEntry (s : State) (fn : FnId) (ring : Fin 16) (v : VReg) (host : HostLines) : State :=
  match parseOp v host with
  | some (op, r) => takeCommand s (parseHdr fn ring v r) op
  | none =>
    let h := parseHdr fn ring v false
    postReply (satAdd s rHiCmdCount 31 0 1) fn.val { cid := h.cid, status := stBadOpcode, kind := 0, ring := ring.val, result := 0, irqNow := h.irqNow }

/-! ## Rings and doorbells (R299–R301) -/

def sqOf (s : State) (f r : Nat) : SqRing := tgetD (fnGet s f).sq r {}
def sqSet (s : State) (f r : Nat) (x : SqRing) : State :=
  let g := fnGet s f
  fnSet s f { g with sq := tset g.sq r x }

/-- A write of HI_DB_SQr; BAR4 drops writes before READY (R396). -/
def doorbellSq (s : State) (f r v : Nat) : State :=
  if s.boot.phase != 7 || !fnEnabled s f then s
  else
    let x := sqOf s f r
    if !x.enabled then fnError s f r 3
    else if 2 ^ x.size ≤ v then fnError (sqSet s f r { x with error := true }) f r 2
    else
      let s := sqSet s f r { x with tail := v }
      { s with host := { s.host with doorbells := s.host.doorbells ++ [(f, r, v)] } }

/-- A write of HI_DB_CQ. -/
def doorbellCq (s : State) (f v : Nat) : State :=
  if s.boot.phase != 7 || !fnEnabled s f then s
  else
    let x := fnGet s f
    if !x.cqEnabled then fnError s f 0 3
    else if cqSize s f ≤ v then fnError (fnSet s f { x with cqError := true }) f 0 4
    else if x.cqError then s
    else
      let s := fnSet s f { x with cqHead := v }
      drainReplies f (fnGet s f).queue.length s

/-- A doorbell the device may serve: its ring fetches, and its function has no reply waiting. -/
def doorbellOpen (s : State) (d : Nat × Nat × Nat) : Bool :=
  let x := sqOf s d.1 d.2.1
  fetchOpen s d.1 && x.enabled && !x.error

/-- The ring of a doorbell enters ERROR: a fetch ended in an error (R301). -/
def fetchFails (s : State) (f r : Nat) : State :=
  let s := fnError (sqSet s f r { sqOf s f r with error := true }) f r 1
  { s with host := { s.host with doorbells := s.host.doorbells.filter fun d => !(d.1 == f && d.2.1 == r) } }

/-- Doorbells whose entries have all been fetched, or whose ring fetches no more, are done. -/
def dropDoorbells (s : State) : State :=
  { s with host := { s.host with doorbells := s.host.doorbells.filter fun d =>
      let x := sqOf s d.1 d.2.1
      x.enabled && !x.error && x.head != d.2.2 } }

/-- COMMAND_FETCH: the next entry of the first doorbell that can be served, and how its fetch ended (R301). -/
def commandFetch (s : State) (e : FetchEnd) : State :=
  let s := dropDoorbells s
  match s.host.doorbells.find? (doorbellOpen s) with
  | none => s
  | some (f, r, _) =>
    if hr : r < 16 then
      if hf : f < 256 then
        match e with
        | .errorStatus => fetchFails s f r
        | .poisoned => fetchFails (aerLog s f aerPoisoned) f r
        | .entry v host =>
          let x := sqOf s f r
          let s := sqSet s f r { x with head := (x.head + 1) % 2 ^ x.size }
          settle (parseEntry s ⟨f, hf⟩ ⟨r, hr⟩ v host)
      else s
    else s

/-- HOST_COMPLETION_TIMEOUT: the function's fetch in progress fails (R301, R315). -/
def completionTimeout (s : State) (f : Nat) : State :=
  if !fnEnabled s f then s
  else
    let s := dropDoorbells (aerLog s f aerTimeout)
    match s.host.doorbells.find? fun d => d.1 == f && doorbellOpen s d with
    | some (_, r, _) => fetchFails s f r
    | none => s

/-- IRQ_COALESCE_TIMER: `HI_IRQ.TIME` has passed since the first reply not yet signalled (R309). -/
def coalesceTimer (s : State) (f : Nat) : State :=
  let x := fnGet s f
  if cfld s (rHiIrq f) 15 8 = 0 || x.unsignalled = 0 then s else raiseVector (fnSet s f { x with unsignalled := 0 }) f 0

/-! ## Held commands (R28 step 4, R33, R26) -/

/-- Step 4 of R28: held commands whose beat has come, in order of client, ring and position, then those that their replies let start. -/
def releaseHeld (s : State) : State :=
  let due := s.host.cmds.filter fun c => c.phase == 1 && decide (c.hdr.notBefore.toNat ≤ now s)
  let due := sortBy (fun c => c.hdr.fn.val * 16 + c.hdr.ring.val) due
  let s := due.foldl (fun s c =>
    if cmdWaits s c true then cmdMod s c.id fun c => { c with phase := 3 } else startOp s c.id true) s
  releaseFencesF true s.host.cmds.length s

/-- On entry to LOST every held command completes with the cause's status (R26). -/
def dropHeld (s : State) (st : Half) : State :=
  (s.host.cmds.filter fun c => c.phase == 1).foldl (fun s c => refuseCmd s c.id st) s

/-! ## Function level reset (R310, R401) -/

/-- The function window's registers return to their reset values. -/
def clearWindow (s : State) (f : Nat) : State :=
  let keep := fun (e : Nat × Word) => decide (e.1 < 0xb10000 + 1024 * f) || decide (0xb10000 + 1024 * (f + 1) ≤ e.1)
  { s with regs := s.regs.filter keep, committed := s.committed.filter keep }

/-- What a function level reset does at once (R310); contexts and the rest follow at the next boundary (R401). -/
def resetFunction (s : State) (f : Nat) : State :=
  let x := fnGet s f
  let s := clearWindow (fnSet s f { mask := x.mask }) f
  let drop := fun (c : Cmd) => if c.hdr.fn.val == f then { c with discard := true } else c
  let s := { s with host := { s.host with cmds := s.host.cmds.map drop, doorbells := s.host.doorbells.filter fun d => d.1 != f } }
  let s := (s.remote.regions.filter fun (e : Nat × Region) => e.2.client == f && !e.2.revoking && e.1 != 0).foldl (fun s e => revokeRegion s e.1 0) s
  setEvent { s with sched := { s.sched with flrAt := insertNat f s.sched.flrAt } } rHiEvent 3

def functionLevelReset (s : State) (f : Nat) : State := if fnEnabled s f then settle (resetFunction s f) else s

/-- Clearing NumVFs resets each virtual function that was enabled (R298). -/
def clearNumVfs (s : State) : State :=
  let s := (List.range s.host.numVfs).foldl (fun s i => resetFunction s (i + 1)) s
  settle { s with host := { s.host with numVfs := 0 } }

/-- The boundary part of a function level reset (R401). -/
def flrBoundary (s : State) : State :=
  let fs := s.sched.flrAt
  fs.foldl (fun (s : State) f =>
    let s := (s.sched.ctxs.filter fun e => e.2.client == f).foldl (fun (s : State) (e : Nat × Ctx) =>
      freeCtx (leaveSlot (stopOnCells (endRequests s e.1 stContextAborted) e.1) e.1) e.1) s
    let s := dropFnPins s f
    let sems := (s.sched.sems.filter fun e => e.2.client == f).map (·.1)
    let s := { s with sched := { s.sched with sems := s.sched.sems.filter fun e => !sems.contains e.1 } }
    match s.sched.model with
    | some (m, o, d) => if o = f then { s with sched := { s.sched with model := some (m, 0, d) } } else s
    | none => s) { s with sched := { s.sched with flrAt := [] } }

/-- PCIE_LINK_CHANGE (R317). -/
def pcieLink (s : State) (up : Bool) (width rate : BitVec 4) (flit : Bool) : State :=
  let h := s.host
  let changed := h.linkUp != up || h.linkWidth != width || h.linkRate != rate
  let s := { s with host := { h with
    linkUp := up, linkWidth := if up then width else 0, linkRate := if up then rate else 0, linkFlit := up && flit } }
  if changed then setEvent s rHiEvent 2 else s

end Sys2Proof.Machine
end

