-- ==== Sys2Proof/Machine/ForagerRows.lean ====
section
/-!
DEFINITION. The meanings of the forager's commands (spec/07_request_state.md): the host commands on requests, the messages of R144 as
they arrive, and the time-driven steps of leases, handoffs and resilvering. A message arrives only through region 0, which is LIVE
while a job is started (R294); one that comes with no job started finds no slot and changes nothing.
-/

namespace Sys2Proof.Machine

/-! ## What a message does once it is let in -/

/-- A home message: the home or its acting partner serves it, another CACHE node refuses (R164). -/
def atHome (s : State) (m : FHdr) (r : ReplyTo) (k : State → State) : State :=
  if servesHome s m.handle then k s else reply s m.src.toNat m.handle stNotHome r

/-- COMMIT reaches both copies: the other copy is the handle's home or its partner (R160). -/
def commitServed (s : State) (h : DWord) : Bool :=
  servesHome s h || partnerOf s (nodeNum s) == some (hHome h)

/-- The effect of a message that passed the checks of R141. -/
def applyMsg (s : State) (i : Instr) : State :=
  match i with
  | .create m .. => atHome s m (.create 0 0) fun s => homeOp s i
  | .renew m => atHome s m (.renew 0) fun s => homeOp s i
  | .propose m _ => atHome s m .propose fun s => homeOp s i
  | .claim m .. => atHome s m .claim fun s => homeOp s i
  | .commit m b hash ps =>
    if commitServed s m.handle then onCommit s m b.toNat hash ps else reply s m.src.toNat m.handle stNotHome (.commit b.toNat 0)
  | .tokens m .. => atHome s m .tokens fun s => homeOp s i
  | .fetch m .. => atHome s m .fetch fun s => homeOp s i
  | .end_ m _ => atHome s m .end_ fun s => homeOp s i
  | .query m none => atHome s m (.query none) fun s => homeOp s i
  | .query m (some (client, hashes)) => reply s m.src.toNat m.handle stOk (.lookup (lookupM s client.toNat hashes))
  | .replicate m d => onReplicate s m d
  | .pages m part first ids ps =>
    match part.toNat with
    | 0 => onPagesData s m.handle ps
    | 1 => onPagesTokens s m.handle first.toNat ids
    | 2 => onPagesSummaries s m.handle ps
    | _ => reply s m.src.toNat m.handle stBadField .other
  | .grant m r => onGrant s m r
  | .released m => onReleased s m
  | .expired m => onExpired s m
  | .adopt m r => onAdopt s m r
  | .join m => onJoin s m
  | .pendingCleared m => onCleared s m
  | .direct m f ps => onDirect s m f.toNat ps
  | .reply m r => onReply s m r
  | _ => s

/-- The header, the type code and the form of the reply of a message (R144). -/
def msgHead : Instr → Option (FHdr × Nat × ReplyTo)
  | .create m .. => some (m, 1, .create 0 0)
  | .renew m => some (m, 2, .renew 0)
  | .propose m _ => some (m, 3, .propose)
  | .claim m .. => some (m, 4, .claim)
  | .commit m b .. => some (m, 5, .commit b.toNat 0)
  | .tokens m .. => some (m, 6, .tokens)
  | .fetch m .. => some (m, 7, .fetch)
  | .pages m .. => some (m, 8, .other)
  | .end_ m _ => some (m, 9, .end_)
  | .query m q => some (m, 10, if q.isSome then .lookup 0 else .query none)
  | .replicate m _ => some (m, 11, .replicate)
  | .grant m _ | .released m | .expired m | .adopt m _ | .join m | .pendingCleared m => some (m, 12, .other)
  | .direct m .. => some (m, 13, .other)
  | .reply m r => some (m, 14, r)
  | _ => none

/-- Held messages whose DEADLINE has come: misses of kind 5 (R34, R143). -/
def lateMsgs (s : State) : List Instr :=
  s.forager.held.filter fun i => match msgHead i with
    | some (m, _) => m.deadline != 0 && decide (m.deadline.toNat ≤ now s)
    | none => false

/-- A late message is refused, and nothing of it is applied; a late REPLY is only recorded. -/
def refuseLate (s : State) (i : Instr) : State :=
  let s := { s with forager := { s.forager with held := removeFirst (fun x => x == i) s.forager.held } }
  match msgHead i with
  | some (m, type, rt) =>
    let s := noteRefusal s type stDeadlineMissed m.handle
    if type = 14 then s else reply s m.src.toNat m.handle stDeadlineMissed rt
  | none => s

/-- Step 4 of R28 for messages held for their not-before beat, in order of arrival. -/
def releaseMsgs (s : State) : State :=
  let late := lateMsgs s
  let due := fun (i : Instr) => ((msgHead i).map fun h => decide (h.1.notBefore.toNat ≤ now s)).getD true && !late.contains i
  let go := s.forager.held.filter due
  go.foldl applyMsg { s with forager := { s.forager with held := s.forager.held.filter fun i => !due i } }

/-- A message arrives for a CACHE node's home side or for a computing node. -/
def msgIn (s : State) (i : Instr) (m : FHdr) (type : Nat) (cacheType : Bool) (rt : ReplyTo) : State :=
  if jobStarted s then settle (receiveMsg s i m type cacheType rt fun s => applyMsg s i) else s

/-- A REPLY comes to a node of any role (R144). -/
def replyIn (s : State) (i : Instr) (m : FHdr) : State :=
  if !jobStarted s then s
  else if m.roleEpoch != s.boot.roleEpoch then noteRefusal s 14 stRoleStale m.handle
  else if m.resv then noteRefusal s 14 stBadField m.handle
  else if s.beat.state == .lost || (m.notBefore != 0 && decide (now s < m.notBefore.toNat)) then
    { s with forager := { s.forager with held := s.forager.held ++ [i] } }
  else settle (applyMsg s i)

/-! ## Meanings: host commands on requests -/

def execOpSubmitRequest (h : CmdHdr) (a : SubmitArg) (s : State) : Host.Outcome State Fault Refusal :=
  .next (quiet s (issueHostCommand s h (.submit a)))
def execOpCancelRequest (h : CmdHdr) (handle : DWord) (s : State) : Host.Outcome State Fault Refusal :=
  .next (quiet s (issueHostCommand s h (.cancel handle)))
def execOpHandoffOut (h : CmdHdr) (handle : DWord) (target : Half) (s : State) : Host.Outcome State Fault Refusal :=
  .next (quiet s (issueHostCommand s h (.handoffOut handle target)))
/-- HANDOFF_PROPOSE_SEND: once the conditions of R162 hold, PROPOSE and DIRECT leave. -/
def execHandoffProposeSend (handle : DWord) (s : State) : Host.Outcome State Fault Refusal :=
  .next (quiet s (settle (proposeSend s handle)))
def execOpHandoffIn (h : CmdHdr) (a : HandoffInArg) (s : State) : Host.Outcome State Fault Refusal :=
  .next (quiet s (issueHostCommand s h (.handoffIn a)))
def execOpQueryRequest (h : CmdHdr) (handle buf : DWord) (s : State) : Host.Outcome State Fault Refusal :=
  .next (quiet s (issueHostCommand s h (.query handle buf)))
def execOpPrefixLookup (h : CmdHdr) (home : Half) (count : Word) (tokens : BitVec 48) (s : State) : Host.Outcome State Fault Refusal :=
  .next (quiet s (issueHostCommand s h (.prefixLookup home count tokens)))
def execOpPagePin (h : CmdHdr) (page : Word) (s : State) : Host.Outcome State Fault Refusal :=
  .next (quiet s (issueHostCommand s h (.pagePin page)))
def execOpPageUnpin (h : CmdHdr) (page : Word) (s : State) : Host.Outcome State Fault Refusal :=
  .next (quiet s (issueHostCommand s h (.pageUnpin page)))

/-! ## Meanings: messages -/

def execCreate (m : FHdr) (client : Byte) (plen maxlen : Word) (parent : DWord) (tokens : List Word) (hashes : List DWord) (s : State) :
    Host.Outcome State Fault Refusal :=
  .next (quiet s (msgIn s (.create m client plen maxlen parent tokens hashes) m 1 true (.create 0 0)))
def execRenew (m : FHdr) (s : State) : Host.Outcome State Fault Refusal := .next (quiet s (msgIn s (.renew m) m 2 true (.renew 0)))
def execPropose (m : FHdr) (target : Half) (s : State) : Host.Outcome State Fault Refusal :=
  .next (quiet s (msgIn s (.propose m target) m 3 true .propose))
def execClaim (m : FHdr) (owner : Half) (epoch : Word) (s : State) : Host.Outcome State Fault Refusal :=
  .next (quiet s (msgIn s (.claim m owner epoch) m 4 true .claim))
def execCommit (m : FHdr) (block : Word) (hash : DWord) (pages : List PageData) (s : State) : Host.Outcome State Fault Refusal :=
  .next (quiet s (msgIn s (.commit m block hash pages) m 5 true (.commit block.toNat 0)))
def execTokens (m : FHdr) (first count : Word) (ids : List Word) (s : State) : Host.Outcome State Fault Refusal :=
  .next (quiet s (msgIn s (.tokens m first count ids) m 6 true .tokens))
def execFetch (m : FHdr) (first count : Word) (s : State) : Host.Outcome State Fault Refusal :=
  .next (quiet s (msgIn s (.fetch m first count) m 7 true .fetch))
def execPages (m : FHdr) (part : Byte) (first : Word) (ids : List Word) (pages : List PageData) (s : State) :
    Host.Outcome State Fault Refusal :=
  .next (quiet s (msgIn s (.pages m part first ids pages) m 8 false .other))
def execEnd (m : FHdr) (status : Half) (s : State) : Host.Outcome State Fault Refusal :=
  .next (quiet s (msgIn s (.end_ m status) m 9 true .end_))
def execQuery (m : FHdr) (lookup : Option (Byte × List DWord)) (s : State) : Host.Outcome State Fault Refusal :=
  .next (quiet s (msgIn s (.query m lookup) m 10 true (if lookup.isSome then .lookup 0 else .query none)))
def execReplicate (m : FHdr) (d : ReplData) (s : State) : Host.Outcome State Fault Refusal :=
  .next (quiet s (msgIn s (.replicate m d) m 11 true .replicate))
def execGrant (m : FHdr) (r : ReqSummary) (s : State) : Host.Outcome State Fault Refusal :=
  .next (quiet s (msgIn s (.grant m r) m 12 false .other))
def execReleased (m : FHdr) (s : State) : Host.Outcome State Fault Refusal :=
  .next (quiet s (msgIn s (.released m) m 12 false .other))
def execExpired (m : FHdr) (s : State) : Host.Outcome State Fault Refusal :=
  .next (quiet s (msgIn s (.expired m) m 12 false .other))
def execAdopt (m : FHdr) (r : ReqSummary) (s : State) : Host.Outcome State Fault Refusal :=
  .next (quiet s (msgIn s (.adopt m r) m 12 false .other))
def execJoin (m : FHdr) (s : State) : Host.Outcome State Fault Refusal := .next (quiet s (msgIn s (.join m) m 12 false .other))
def execPendingCleared (m : FHdr) (s : State) : Host.Outcome State Fault Refusal :=
  .next (quiet s (msgIn s (.pendingCleared m) m 12 false .other))
def execDirect (m : FHdr) (first : Word) (pages : List PageData) (s : State) : Host.Outcome State Fault Refusal :=
  .next (quiet s (msgIn s (.direct m first pages) m 13 false .other))
def execReply (m : FHdr) (r : ReplyTo) (s : State) : Host.Outcome State Fault Refusal := .next (quiet s (replyIn s (.reply m r) m))

/-! ## Meanings: leases and resilvering -/

def execLeaseFence (handle : DWord) (s : State) : Host.Outcome State Fault Refusal := .next (quiet s (settle (leaseFence s handle)))
def execLeaseReassign (handle : DWord) (s : State) : Host.Outcome State Fault Refusal := .next (quiet s (settle (leaseReassign s handle)))
def execResilverComplete (node : NodeId) (s : State) : Host.Outcome State Fault Refusal :=
  .next (quiet s (settle (resilverDone s node.toNat)))

end Sys2Proof.Machine
end

