-- ==== Sys2Proof/Machine/Regs.lean ====
section
/-!
DEFINITION. The register space (spec/20_register_space.md R424–R430, with R7–R9, R39, R379, R380, R432, R433): what a register reads
as on each path, what a write does, the commits of every block with their checks, and the rows that write registers.
-/

namespace Sys2Proof.Machine

/-! ## Registers the blocks compute (each chapter's register table) -/

/-- Codes of BT_STATUS (R38). -/
def lockCode : LockState → Nat
  | .unlocked => 0 | .acquiring => 1 | .locked => 2 | .holdover => 3 | .lost => 4
def causeCode : LostCause → Nat
  | .none => 0 | .noEdges => 1 | .mismatch => 2 | .overflow => 3

/-- Low half and high half of a number. -/
def lo32 (n : Nat) : Nat := n % 2 ^ 32
def hi32 (n : Nat) : Nat := n / 2 ^ 32 % 2 ^ 32

/-- A map of 32 flags: bit i from `p` of number 32m + i. -/
def flagMap (p : Nat → Bool) (m : Nat) : Nat := (List.range 32).foldl (fun a i => a + b2n (p (32 * m + i)) * 2 ^ i) 0

def viewBeat (s : State) (o : Nat) : Nat :=
  let f := ((s.sched.image.map fun p => p.1.frame).getD 0)
  let j0 := (jobOrigin s).getD 0
  if o = 0x20 then s.beat.held * 2 ^ 16 + s.beat.refPort * 256 + causeCode s.beat.cause * 64 + lockCode s.beat.state
  else if o = 0x28 then lo32 (now s)
  else if o = 0x2c then hi32 (now s)
  else if o = 0x40 then lo32 j0
  else if o = 0x44 then hi32 j0
  else if o = 0x48 then (if jobStarted s then f else 0)
  else rget s o

def workerCode : WorkerState → Nat
  | .idle => 0 | .ready => 1 | .waiting => 2 | .halted => 3 | .faulted => 4

/-- The windows of RESIDENT contexts on a cell. -/
def residentWins (s : State) (c : Nat) : List Win :=
  (cellGet s c).windows.filter fun w => ((ctxOf s w.ctx).map fun x => x.state == .resident).getD false

def viewCell (s : State) (o : Nat) : Nat :=
  let off := rClCfg + o
  if 0x100 ≤ o ∧ o < 0x180 then flagMap (fun n => bit (rget s (rClFault n)) 31 == 1) ((o - 0x100) / 4)
  else if 0x10000 ≤ o then
    let n := (o - 0x10000) / 256
    let k := o % 256
    if k = 0 then
      let ws := residentWins s n
      b2n (cellOn s n) * 2 ^ 24 + ws.length * 2 ^ 16 + (ws.foldl (fun (a : BitVec 16) (w : Win) => a ||| w.workers) 0).toNat
    else if k = 4 ∨ k = 8 then
      (List.range 8).foldl (fun a j => a + workerCode (workerGet s n ((k - 4) * 2 + j)).state * 2 ^ (3 * j)) 0
    else rget s off
  else rget s off

/-- Place of a residency slot among the image's slots that name the cell (MX_STATUS.OWNER). -/
def slotOnCell (s : State) (c rs : Nat) : Nat :=
  ((List.range (min rs 32)).filter fun r => (slotCells s r).any fun x => x.cell == c).length

def viewMatrix (s : State) (o : Nat) : Nat :=
  if 0x100 ≤ o ∧ o < 0x180 then flagMap (fun n => (engGet s n).failed) ((o - 0x100) / 4)
  else if 0x10000 ≤ o ∧ o % 64 = 0 then
    let n := (o - 0x10000) / 64
    let e := engGet s n
    let own := (residentWins s n).find? fun w => w.engine
    tileBits e (fun t => t.isInt && !t.sat.isEmpty) * 2 ^ 20 + tileBits e (fun t => !t.poison.isEmpty) * 2 ^ 16 +
      b2n own.isSome * 2 ^ 15 + ((own.map fun w => slotOnCell s n w.rs).getD 0) % 4 * 2 ^ 12 + min e.queue.length 16 * 16 +
      (if e.failed then 2 else if e.queue.isEmpty then 0 else 1)
  else rget s (rMxCfg + o)

def cbCode : CbState → Nat
  | .free => 0 | .loading => 1 | .live => 2 | .retiring => 3

def viewPrism (s : State) (o : Nat) : Nat :=
  if 0x100 ≤ o ∧ o < 0x180 then flagMap (fun n => bit (rget s (rPzErr n)) 31 == 1) ((o - 0x100) / 4)
  else if 0x10000 ≤ o ∧ o % 64 < 32 then
    let x := slotGet s ((o - 0x10000) / 64) (o % 64 / 8)
    if o % 8 = 0 then cbCode x.state * 2 ^ 16 + x.version
    else if x.state == .free then 0
    else x.refs * 2 ^ 24 + fmtKcode x.fmt.toNat * 2 ^ 21 + b2n (fmtD x.fmt.toNat == 8) * 2 ^ 20 + fmtEntry x.fmt.toNat * 2 ^ 18 + x.count
  else rget s (rPzDecodeTotal + o)

def viewCache (s : State) (o : Nat) : Nat :=
  if o = 0x40 then freePoolHbm s else if o = 0x44 then freePoolDdr s else if o = 0x48 then s.cache.pages.length
  else rget s (rKvCfg + o)

def viewForager (s : State) (o : Nat) : Nat :=
  if o = 0x38 then s.boot.roleEpoch.toNat else if o = 0x40 then s.forager.descs.length
  else if o = 0x44 then s.forager.recs.length else if o = 0x48 then s.forager.pfx.length
  else rget s (rFgCfg + o)

def gCode : GState → Nat
  | .free => 0 | .loading => 1 | .live => 2 | .retiring => 3 | .failed => 4

def viewLens (s : State) (o : Nat) : Nat :=
  if o = 0x10 then s.lens.narrow * 2 ^ 24 + s.lens.vocab
  else if o = 0x14 then lo32 (lensPort s) else if o = 0x18 then hi32 (lensPort s)
  else if 0x20 ≤ o ∧ o < 0x60 then
    let g := gslotOf s ((o - 0x20) / 8)
    if o % 8 = 0 then gCode g.state * 2 ^ 16 + g.id else g.banks.length * 2 ^ 21 + g.refs.length
  else if o = 0x60 then lo32 s.lens.on.toNat else if o = 0x64 then hi32 s.lens.on.toNat
  else if o = 0x68 then lo32 s.lens.failed.toNat else if o = 0x6c then hi32 s.lens.failed.toNat
  else if o = 0x70 then s.lens.queue.length
  else rget s (rLnCfg + o)

/-- STATE of SQ_RSn. -/
def rsCode (x : Ctx) : Nat :=
  match x.state with
  | .swappingIn => 1
  | .resident => if x.chosen.isSome then 4 else 2
  | .swappingOut => 3
  | _ => 0

def viewSched (s : State) (o : Nat) : Nat :=
  if o = 0x14 then (s.sched.ctxs.filter fun (e : Nat × Ctx) => e.2.state == .swapped).length * 2 ^ 16 + s.sched.ctxs.length
  else if o = 0x18 then s.sched.ratio * 2 ^ 16 + ((splitOf s).nlev - 1) * 16 + s.sched.level
  else if 0x100 ≤ o ∧ o < 0x180 then
    match occupant s ((o - 0x100) / 4) with
    | some (n, x) => if rsCode x = 0 then 0 else rsCode x * 2 ^ 16 + n
    | none => 0
  else if 0x800 ≤ o ∧ o < 0x1800 then
    match semOf s ((o - 0x800) / 4) with
    | some x => 2 ^ 31 + x.client * 2 ^ 16 + x.count
    | none => 0
  else if 0x10000 ≤ o then
    let v := tgetD s.sched.acctPub ((o - 0x10000) / 128 * 12 + o % 128 / 8) 0
    if o % 8 = 0 then lo32 v else hi32 v
  else rget s (rSqCfg + o)

/-- STATE of MT_TILE_INFO by tier. -/
def placeIndex : Place → Nat
  | .hbm k => k | .ddr k => k | .nand _ => 0

def tileInfo (s : State) (t : Nat) : Nat :=
  if s.tiers.total ≤ t then 0
  else
    let queued := b2n (s.tiers.reqs.any fun r => r.tiles.contains t) * 2 ^ 15
    let pool := b2n (inPool s t) * 2 ^ 14
    let pinned := ((pinTier s t).map fun k => k + 1).getD 0 * 64
    match tileGet s t with
    | none => queued + pool + pinned
    | some x =>
      let st := match x.moving with | some d => 4 + 16 * tierOf d | none => tierOf x.place + 1
      x.access % 2 ^ 16 * 2 ^ 16 + queued + pool + placeIndex x.place * 256 + pinned + st

/-- Highest and lowest erase count of the good blocks (MT_NAND_WEAR). -/
def nandWear (luns : Tab Lun) : Nat :=
  match luns.flatMap fun (l : Nat × Lun) => l.2.blocks.map fun (b : Nat × NandBlock) => b.2.erase with
  | [] => 0
  | e :: es => min (es.foldl max e) 0xFFFF * 2 ^ 16 + min (es.foldl min e) 0xFFFF

def viewTiers (s : State) (o : Nat) : Nat :=
  let x := s.tiers
  if o = 0x20 then x.total else if o = 0x24 then freeHbmTiles s else if o = 0x28 then freeDdrTiles s
  else if o = 0x2c then x.freeNand
  else if o = 0x30 then
    let chs := (List.range 12).foldl (fun a c => a + tgetD x.ddrState c 0 % 4 * 4 ^ c) 0
    let any := (List.range 12).any fun c => tgetD x.ddrState c 0 == 1 || tgetD x.ddrState c 0 == 3
    (if !any then 0 else if x.mrdimm then 2 else 1) * 2 ^ 24 + chs
  else if o = 0x34 then
    x.nandChannels.toNat * 256 + b2n (x.lpddr4 && x.nandChannels != 0) * 4 +
      (if x.nandChannels == 0 then 0 else if x.degraded then 2 else 1)
  else if o = 0x38 then x.spare
  else if o = 0x3c then nandWear x.luns
  else if o = 0x40 then min x.reqs.length 1024 * 2 ^ 16 + min x.moves.length 4096
  else if o = 0x54 then tileInfo s (rget s rMtTileSel)
  else rget s (rMtCfg + o)

def viewEmgait (s : State) (o : Nat) : Nat :=
  if o = 0x10 then b2n s.fabric.node.isSome * 2 ^ 31 + s.fabric.mgr.toNat * 2 ^ 16 + nodeNum s
  else if o = 0x14 then s.fabric.epoch
  else if o = 0x1c then
    let w := rget s rEgRouteSel
    (tgetD (if bit w 31 = 1 then s.fabric.shadow else s.fabric.active) (bits w 18 16 * 16384 + bits w 13 0) 0).toNat
  else if 0x100 ≤ o ∧ o % 64 = 4 then
    let x := portGet s ((o - 0x100) / 64)
    let left := if x.state == .held then min (x.holdEnd - s.beat.periods) 0xFFFF else 0
    left * 2 ^ 16 + (x.locked &&& ~~~x.dropped).toNat * 2 ^ 12 + x.peerPort % 8 * 256 + x.width % 4 * 16 + portCode x.state
  else if 0x100 ≤ o ∧ o % 64 = 8 then
    match (portGet s ((o - 0x100) / 64)).peerNode with
    | some n => 2 ^ 31 + n.toNat
    | none => 0
  else rget s (rEgCfg + o)

def viewRemote (s : State) (o : Nat) : Nat :=
  if o = 0x30 then s.remote.regions.length
  else if o = 0x34 then min (sendsInFlight s) 1024 * 2 ^ 16 + min s.remote.lines.length 8192
  else if o = 0x48 then s.remote.down.length
  else rget s (rRaCfg + o)

/-- Commands of a function that were parsed and have no reply (HI_FN_STATUS). -/
def outstanding (s : State) (f : Nat) : Nat := (s.host.cmds.filter fun c => c.hdr.fn.val == f && !c.discard).length

def viewHost (s : State) (o : Nat) : Nat :=
  let h := s.host
  if o = 0 then
    h.numVfs * 2 ^ 16 + h.linkRate.toNat * 256 + h.linkWidth.toNat * 16 + b2n h.linkFlit * 8 + b2n h.linkUp
  else if 0x10 ≤ o ∧ o < 0x30 then flagMap (fun f => bit (rget s (rHiFnErr f)) 31 == 1) ((o - 0x10) / 4)
  else if 0x10000 ≤ o then
    let f := (o - 0x10000) / 1024
    let k := o % 1024
    let x := fnGet s f
    if k = 8 then b2n (!x.queue.isEmpty) * 2 ^ 31 + min x.queue.length 4096 * 2 ^ 16 + min (outstanding s f) 0xFFFF
    else if k = 0x1c then b2n x.phase * 2 ^ 16 + x.cqTail
    else if 0x100 ≤ k ∧ k < 0x200 ∧ k % 16 = 12 then
      let r := sqOf s f ((k - 0x100) / 16)
      b2n r.error * 2 ^ 31 + r.head
    else rget s (rHiStatus + o)
  else rget s (rHiStatus + o)

/-- Place and value of the least slack (PW_AGE). -/
def leastSlack (s : State) : Nat × Nat :=
  let l := s.power.slacks
  (List.range l.length).foldl (fun (b : Nat × Nat) i => if i = 0 ∨ l.getD i 0 < b.2 then (i, l.getD i 0) else b) (0, 0)

def viewPower (s : State) (o : Nat) : Nat :=
  let p := s.power
  let endBeat := (p.alloc.map fun a => a.last).getD 0
  if o = 0x10 then lo32 p.ready.toNat else if o = 0x14 then hi32 p.ready.toNat
  else if o = 0x18 then p.mode * 2 ^ 29 + p.window * 2 ^ 16 + p.limit
  else if o = 0x1c then (p.alloc.map fun a => 2 ^ 31 + a.watts).getD 0
  else if o = 0x20 then lo32 endBeat else if o = 0x24 then hi32 endBeat
  else if o = 0x28 then p.capCause * 2 ^ 28 + p.cap
  else if o = 0x2c then min p.measured 0xFFFF * 2 ^ 16 + min (p.history.headD 0) 0xFFFF
  else if o = 0x30 then peakRemain s
  else if o = 0x34 then (hottest s).2 * 2 ^ 16 + ofInt 16 (hottest s).1
  else if o = 0x3c then ofInt 16 (p.temps.getD (rget s rPwTempSel % 128) 0)
  else if o = 0x40 then (leastSlack s).1 * 256 + min (leastSlack s).2 255
  else if o = 0x44 then (List.range 4).foldl (fun a c => a + p.vreq.getD c 0 / 5 % 256 * 256 ^ c) 0
  else if o = 0x48 then p.vreq.getD 4 0 / 5 % 256
  else if o = 0x50 then p.wear / 1000000
  else if o = 0x54 then p.wearBudget
  else rget s (rPwCfg + o)

/-- The powered cell whose last pass lies furthest back, and the boundaries since (RL_KAT_AGE). -/
def oldestKat (s : State) : Nat × Nat :=
  (readyCells s).foldl (fun (b : Nat × Nat) c =>
    let a := s.beat.periods - tgetD s.reliab.katBeat c 0
    if b.2 < a then (c, a) else b) ((readyCells s).headD 0, 0)

def stressRunning (s : State) : Bool := match s.reliab.test with | .stress _ => true | _ => false

def viewReliab (s : State) (o : Nat) : Nat :=
  let r := s.reliab
  if o = 8 then r.phase % 8 * 2 ^ 24 + r.cause * 2 ^ 20 + healthCode r.health * 2 ^ 16 + r.score
  else if o = 0x14 then r.katNext
  else if o = 0x20 then min ((oldestKat s).2 / 65536) 0xFFFF * 2 ^ 16 + (oldestKat s).1
  else if o = 0x24 then putBits (rget s rRlStress) 31 31 (b2n (stressRunning s))
  else if o = 0x28 then r.seq
  else if 0x4000 ≤ o then leNat (((tgetD r.log ((o - 0x4000) / 64) []).drop (o % 64)).take 4)
  else rget s (rRlCfg + o)

/-- A helper record lies in the flash: its first four bytes are not all ones (R362, R390). The flash is kept complemented. -/
def helperFound (s : State) : Bool := (List.range 4).any fun i => mget s.boot.flash i != 0

def viewSecurity (s : State) (o : Nat) : Nat :=
  let x := s.sec
  if o = 0 then
    x.debug * 16 + b2n x.rngOk * 8 + b2n x.owner.isSome * 4 + b2n x.idkeys.isSome * 2 + b2n (helperFound s)
  else if o = 8 then lo32 (identity s) else if o = 0xc then hi32 (identity s)
  else if o = 0x1c then putBits (rget s rScGrantStatus) 31 31 (b2n x.grant.isSome)
  else if 0x40 ≤ o ∧ o < 0x60 then x.challenge.toNat / 2 ^ (8 * (o - 0x40)) % 2 ^ 32
  else if 0x100 ≤ o ∧ o < 0x300 then
    if o % 64 < 48 then (measOf s ((o - 0x100) / 64)).toNat / 2 ^ (8 * (o % 64)) % 2 ^ 32 else 0
  else if 0x2000 ≤ o then 0
  else rget s (rScStatus + o)

def linkCode : SgmiiLink → Nat
  | .down => 0 | .up1000 => 1 | .other => 2

/-- A MAC address as MG_MAC holds it: first octet in bits [7:0]. -/
def macWord (m : Option (BitVec 48)) : Nat := (m.map fun v => v.toNat).getD 0

/-- MG_IDCODE, the IDCODE of the TAP (R386). -/
def idcodeWord : Nat := 0x2720 * 2 ^ 12 + Config.idcodeManuf.toNat * 2 + 1

def viewMgmt (s : State) (o : Nat) : Nat :=
  let m := s.mgmt
  if o = 0x10 then lo32 (macWord m.mac) else if o = 0x14 then hi32 (macWord m.mac)
  else if o = 0x18 then lo32 m.boot.toNat else if o = 0x1c then hi32 m.boot.toNat
  else if o = 0x20 then lo32 m.rxSeq else if o = 0x24 then hi32 m.rxSeq
  else if o = 0x28 then m.sent
  else if o = 0x2c then
    ((m.daddr.map fun a => a.toNat).getD 0) * 2 ^ 24 + m.eid.toNat * 2 ^ 16 + b2n m.mkey.isSome * 16 + b2n m.ibiOn * 8 +
      b2n m.daddr.isSome * 4 + linkCode m.link
  else if o = 0x38 then idcodeWord
  else if o = 0x3c then Config.pen.toNat * 2 ^ 15 + Config.mipiId.toNat
  else rget s (rMgCfg + o)

/-- What the register at BAR0 offset `off` holds. -/
def viewReg (s : State) (off : Nat) : Nat :=
  let o := off % 2 ^ 20
  match off / 2 ^ 20 with
  | 0 => viewBeat s o | 1 => viewCell s o | 2 => viewMatrix s o | 3 => viewPrism s o | 4 => viewCache s o
  | 5 => viewForager s o | 6 => viewLens s o | 7 => viewSched s o | 8 => viewTiers s o | 9 => viewEmgait s o
  | 10 => viewRemote s o | 11 => viewHost s o | 12 => viewPower s o | 13 => viewReliab s o | 14 => viewSecurity s o
  | 15 => viewMgmt s o
  | _ => 0

/-! ## Reading (R7, R39, R379, R426) -/

/-- A path's number: its latches and, for the first four, its commit report (R430). -/
def pathNum : Path → Nat
  | .bar0 => 0 | .sgmii => 1 | .i3c => 2 | .tap => 3 | .vf f => 4 + f.val

/-- The high half of a pair that a read of the low half at `off` latches (R39). -/
def latchHigh (off : Nat) : Option Nat :=
  let lows := [rBtNowLo, rBtOriginLo, rBtMissLogLo, rFgErrHandleLo, rLnReqPortLo, rLnErrHandleLo, rSqSwapBaseLo,
    rRaRegBaseLo, rRaSlotBaseLo, rRaFqBaseLo, rPwDomainLo, rPwDomainStLo, rPwAllocEndLo, rPwVreqLo, rScIdentLo,
    rMgCollectorLo, rMgMacLo, rMgBootLo, rMgRxSeqLo]
  let arrays := decide (0x710000 ≤ off ∧ off < 0x718000) || decide (0x800100 ≤ off ∧ off < 0x800900)
  if lows.contains off || (arrays && off % 8 == 0 && (regRow? off).isSome) then some (off + 4) else none

/-- `off` is a high half that reads as it was latched. -/
def isLatched (off : Nat) : Bool := decide (4 ≤ off) && (latchHigh (off - 4)).isSome

/-- The value of a register now; registers that tell time within a beat or a test are free values. -/
def liveReg (s : State) (off : Nat) : Nat × State :=
  if off = rBtPhase then
    if s.beat.periods = 0 then (0, s)
    else let (v, s) := takeFree s 17; (v % (cfld s rBtCfg 6 0 * 1800), s)
  else if off = rRlStress ∧ stressRunning s then
    let (v, s) := takeFree s 2
    (putBits (viewReg s off) 26 24 (v + 1), s)
  else (viewReg s off, s)

/-- One 4-byte read of a register on a path, with its latch. An offset that maps no register reads as zero. -/
def readReg (s : State) (path : Path) (off : Nat) : Nat × State :=
  if (regRow? off).isNone then (0, s)
  else
    let key := fun (o : Nat) => pathNum path * 2 ^ 26 + o
    if isLatched off then ((tgetD s.latches (key off) 0).toNat, s)
    else
      let (v, s) := liveReg s off
      match latchHigh off with
      | none => (v, s)
      | some h => (v, { s with latches := tset s.latches (key h) (BitVec.ofNat 32 (viewReg s h)) })

/-! ## Commits (R8, R429, R430) -/

/-- The blocks: number, base, span, and commit register (R425). The host block commits by function window. -/
def blockSpans : List (Nat × Nat × Nat × Nat) :=
  [(0, 0x0, 0x100, rBtCommit), (1, 0x100000, 0x50000, rClCommit), (2, 0x200000, 0x20000, rMxCommit), (3, 0x300000, 0x20000, 0),
   (4, 0x400000, 0x100, rKvCommit), (5, 0x500000, 0x100, rFgCommit), (6, 0x600000, 0x100, rLnCommit), (7, 0x700000, 0x18000, rSqCommit),
   (8, 0x800000, 0x1000, rMtCommit), (9, 0x900000, 0x400, rEgCommit), (10, 0xa00000, 0x100, rRaCommit), (11, 0xb00000, 0x50000, 0),
   (12, 0xc00000, 0x200, rPwCommit), (13, 0xd00000, 0x8000, rRlCommit), (14, 0xe00000, 0x4000, 0), (15, 0xf00000, 0x100, rMgCommit)]

/-- A BAR0 offset inside some block's span. -/
def inSpan (off : Nat) : Bool := blockSpans.any fun b => decide (b.2.1 ≤ off) && decide (off < b.2.1 + b.2.2.1)

/-- `some off` where the condition fails. -/
def failAt (off : Nat) (bad : Bool) : List Nat := if bad then [off] else []
/-- A base that is not a multiple of 32 KiB. -/
def badBase (s : State) (lo : Nat) : List Nat := failAt lo (rget s lo % 32768 != 0)
/-- A register whose shadow differs from its committed word. -/
def changed (s : State) (off : Nat) : Bool := rget s off != cget s off
/-- A pair whose joined value changes (R432). -/
def changedPair (s : State) (lo : Nat) : Bool := changed s lo || changed s (lo + 4)
/-- A shadow field outside [a, b]. -/
def outField (s : State) (off hi lo a b : Nat) : List Nat := failAt off (rfld s off hi lo < a || b < rfld s off hi lo)

/-- Cells that the started job's residency slots name. -/
def jobNames (s : State) (g : Nat) : Bool := (imageSlots s).any fun x => x.cells.any fun c => c.cell / 32 == g

/-- Some tile lies in NAND or is on its way there. -/
def tileInNand (s : State) : Bool :=
  s.tiers.tiles.any fun (e : Nat × TileSt) => tierOf e.2.place == 2 || ((e.2.moving.map tierOf) == some 2)

/-- The registers that hold a failing field of a block: those that refuse with ST_BAD_FIELD, then those with ST_CFG_MISMATCH. -/
def commitFails (s : State) (block : Nat) : List Nat × List Nat :=
  let job := jobStarted s
  match block with
  | 0 =>
    (outField s rBtCfg 15 8 1 25 ++ outField s rBtCfg 6 0 2 64 ++
      failAt rBtSeedLo (rfld s rBtCfg 16 16 == 1 && rget s rBtSeedLo == 0 && rfld s rBtSeedHi 15 0 == 0),
     failAt rBtCfg (job && rfld s rBtCfg 6 0 != cfld s rBtCfg 6 0))
  | 1 => (outField s rClCfg 3 0 0 10, [])
  | 4 =>
    (outField s rKvCfg 19 8 1 4095 ++ badBase s rKvPtBaseLo ++ badBase s rKvSumBaseLo ++ badBase s rKvPoolBaseLo ++
      failAt rKvPtCount (rget s rKvPtCount == 0xFFFFFFFF),
     (if job then
        failAt rKvPtBaseLo (changedPair s rKvPtBaseLo) ++ failAt rKvPtCount (changed s rKvPtCount) ++
        failAt rKvSumBaseLo (changedPair s rKvSumBaseLo) ++ failAt rKvPoolBaseLo (changedPair s rKvPoolBaseLo) ++
        failAt rKvPoolTiles (changed s rKvPoolTiles)
      else []) ++
     failAt rKvHbmLow (decide (rget s rKvHbmHigh ≤ rget s rKvHbmLow) && !(rget s rKvHbmHigh == 0 && rget s rKvHbmLow == 0)) ++
     failAt rKvDdrLow (decide (rget s rKvDdrHigh ≤ rget s rKvDdrLow) && !(rget s rKvDdrHigh == 0 && rget s rKvDdrLow == 0)))
  | 5 =>
    (outField s rFgCfg 11 0 16 4095 ++ badBase s rFgDescBaseLo ++ failAt rFgDescCount (decide (1048576 < rget s rFgDescCount)) ++
      badBase s rFgHomeBaseLo ++ failAt rFgHomeCount (decide (4194304 < rget s rFgHomeCount)) ++
      badBase s rFgPfxBaseLo ++ failAt rFgPfxCount (decide (67108864 < rget s rFgPfxCount)),
     if job then
       failAt rFgDescBaseLo (changedPair s rFgDescBaseLo) ++ failAt rFgDescCount (changed s rFgDescCount) ++
       failAt rFgHomeBaseLo (changedPair s rFgHomeBaseLo) ++ failAt rFgHomeCount (changed s rFgHomeCount) ++
       failAt rFgPfxBaseLo (changedPair s rFgPfxBaseLo) ++ failAt rFgPfxCount (changed s rFgPfxCount)
     else [])
  | 6 =>
    (badBase s rLnShadowBaseLo,
     failAt rLnShadowBaseLo (changedPair s rLnShadowBaseLo && (List.range 8).any fun j => (gslotOf s j).state != .free))
  | 7 =>
    (failAt rSqCfg (rfld s rSqCfg 7 0 == 0) ++ badBase s rSqSwapBaseLo,
     failAt rSqCfg (rfld s rSqCfg 20 20 == 1 && decide ((splitOf s).nlev ≤ rfld s rSqCfg 18 16)) ++
     (if job then failAt rSqSwapBaseLo (changedPair s rSqSwapBaseLo) ++ failAt rSqSwapTiles (changed s rSqSwapTiles) else []))
  | 8 =>
    (outField s rMtNandCfg 27 16 64 4095 ++ failAt rMtNandCfg (rfld s rMtNandCfg 15 8 == 0) ++ outField s rMtNandCfg 5 0 4 32 ++
      (List.range 256).flatMap fun f => badBase s (rMtWinLo f),
     failAt rMtHbmLow (decide (rget s rMtHbmHigh ≤ rget s rMtHbmLow)) ++ failAt rMtDdrLow (decide (rget s rMtDdrHigh ≤ rget s rMtDdrLow)) ++
     failAt rMtNandCfg (rfld s rMtNandCfg 5 0 != cfld s rMtNandCfg 5 0 && (job || tileInNand s)))
  | 9 =>
    (failAt rEgCfg (rfld s rEgCfg 28 24 == 0) ++ failAt rEgCfg (rfld s rEgCfg 23 16 == 0) ++ outField s rEgCfg 7 0 4 100 ++
      failAt rEgFlap (rfld s rEgFlap 31 16 < 16) ++ failAt rEgFlap (rfld s rEgFlap 15 0 == 0), [])
  | 10 =>
    (failAt rRaCfg (rfld s rRaCfg 7 0 < 2) ++ badBase s rRaRegBaseLo ++ failAt rRaRegCount (decide (1048576 < rget s rRaRegCount)) ++
      badBase s rRaSlotBaseLo ++ failAt rRaSlotCount (decide (1048576 < rget s rRaSlotCount)) ++ badBase s rRaFqBaseLo,
     if job || s.remote.regions.any fun (e : Nat × Region) => e.1 != 0 then
       failAt rRaRegBaseLo (changedPair s rRaRegBaseLo) ++ failAt rRaRegCount (changed s rRaRegCount) ++
       failAt rRaSlotBaseLo (changedPair s rRaSlotBaseLo) ++ failAt rRaSlotCount (changed s rRaSlotCount) ++
       failAt rRaFqBaseLo (changedPair s rRaFqBaseLo)
     else [])
  | 12 =>
    let off := fun (reg i : Nat) => bit (cget s reg) i == 1 && bit (rget s reg) i == 0
    (failAt rPwCfg (rfld s rPwCfg 23 16 < 16),
     failAt rPwDomainLo (job && (List.range 32).any fun g => off rPwDomainLo g && jobNames s g) ++
     failAt rPwDomainHi (off rPwDomainHi 14 && (job || (List.range 8).any fun j => (gslotOf s j).state != .free)))
  | 13 => (failAt rRlCfg (rfld s rRlCfg 31 16 == 0), [])
  | 15 => (failAt rMgCfg (rfld s rMgCfg 31 16 < 0x0600) ++ failAt rMgCollectorLo (bit (rget s rMgCollectorLo) 0 == 1), [])
  | _ => ([], [])

/-- The checks of a function window (R317): base, size, count, and rings that stay enabled. -/
def windowFails (s : State) (f : Nat) : List Nat × List Nat :=
  let rings := (rHiCqBaseLo f, rHiCqCfg f) :: (List.range 16).map fun r => (rHiSqBaseLo f r, rHiSqCfg f r)
  let bad := rings.flatMap fun (lo, cfg) =>
    failAt lo (rget s lo % 4096 != 0 || (rfld s cfg 31 31 == 1 && rget s lo == 0 && rget s (lo + 4) == 0)) ++ outField s cfg 20 16 4 16
  let both := rings.filter fun r => rfld s r.2 31 31 == 1 && cfld s r.2 31 31 == 1
  let mis := both.flatMap fun (lo, cfg) =>
    failAt lo (changedPair s lo) ++ failAt cfg (rfld s cfg 20 16 != cfld s cfg 20 16)
  (bad ++ failAt (rHiIrq f) (rfld s (rHiIrq f) 7 0 == 0), mis)

/-- The outcome of the checks: the deciding register is the lowest of the first class that fails. -/
def commitOutcome (fails : List Nat × List Nat) : Half × Nat :=
  match fails.1, fails.2 with
  | [], [] => (stOk, 0)
  | [], o :: os => (stCfgMismatch, os.foldl min o)
  | o :: os, _ => (stBadField, os.foldl min o)

/-- The shadow words of [lo, hi) become the committed words. -/
def takeShadow (s : State) (lo hi : Nat) : State :=
  let sh := s.regs.filter fun (e : Nat × Word) => decide (lo ≤ e.1 ∧ e.1 < hi) && ((regRow? e.1).map fun r => r.sh != 0).getD false
  { s with committed := s.committed.filter (fun (e : Nat × Word) => e.1 < lo) ++ sh ++
                        s.committed.filter fun (e : Nat × Word) => decide (hi ≤ e.1) }

/-- What an accepted commit does at once, beside putting the set in force. `old` is the state before it. -/
def commitEffect (old s : State) (block : Nat) : State :=
  match block with
  | 0 =>
    if cfld old rBtCfg 6 0 != cfld s rBtCfg 6 0 && hasBeat s && s.beat.leaving.isNone then
      { s with beat := { s.beat with leaving := some true } }
    else s
  | 6 =>
    let s := dropPins s fun o => o == .lensShadow
    addPin s (tileOf (cbase s rLnShadowBaseLo rLnShadowBaseHi)) 512 0 .lensShadow
  | 15 => raiseIbi s
  | 7 =>
    if cfld s rSqCfg 20 20 = 1 && jobStarted s then
      { s with sched := { s.sched with level := cfld s rSqCfg 18 16, target := cfld s rSqCfg 18 16 } }
    else s
  | _ => s

/-- One committed block: its status, its deciding register, and the state. -/
def commitBlock (s : State) (block base span : Nat) : Half × Nat × State :=
  let (st, reg) := commitOutcome (commitFails s block)
  if st == stOk then (st, reg, commitEffect s (takeShadow s base (base + span)) block) else (st, reg, s)

/-- A ring as a commit leaves it: enabling sets head and tail to zero (R299). -/
def commitRing (s : State) (f r : Nat) : State :=
  let x := sqOf s f r
  let on := cfld s (rHiSqCfg f r) 31 31 == 1
  let size := cfld s (rHiSqCfg f r) 20 16
  if on && !x.enabled then sqSet s f r { enabled := true, size := size }
  else if x.enabled != on then sqSet s f r { x with enabled := on, size := size }
  else s

/-- The rings of a function window follow its committed set. Replies that waited for the completion ring are written (R308). -/
def commitRings (s : State) (f : Nat) : State :=
  let x := fnGet s f
  let on := cfld s (rHiCqCfg f) 31 31 == 1
  let s :=
    if on && !x.cqEnabled then
      fnSet s f { x with cqEnabled := true, cqSize := cfld s (rHiCqCfg f) 20 16, cqHead := 0, cqTail := 0, phase := true, cqError := false }
    else fnSet s f { x with cqEnabled := on, cqSize := cfld s (rHiCqCfg f) 20 16 }
  let s := (List.range 16).foldl (fun s r => commitRing s f r) s
  drainReplies f (fnGet s f).queue.length (dropDoorbells s)

/-- HI_FN_COMMIT of function `f`, reported in its own window (R430). -/
def commitWindow (s : State) (f : Nat) : State :=
  let base := rHiFnCommitSt f
  let (st, reg) := commitOutcome (windowFails s f)
  let s := if st == stOk then commitRings (takeShadow s base (base + 1024)) f else s
  let seq := (rfld s base 31 24 + 1) % 256
  rset s base (seq * 2 ^ 24 + (if reg = 0 then 0 else (reg - base) / 4) * 2 ^ 16 + st.toNat)

/-- A commit of a block on a path, and its report (R430). -/
def commitOn (s : State) (path : Path) (block base span : Nat) : State :=
  let (st, reg, s) := commitBlock s block base span
  let p := pathNum path
  if p < 4 then
    let seq := (rfld s (rHiCommitSt p) 31 24 + 1) % 256
    rset (rset s (rHiCommitSt p) (seq * 2 ^ 24 + block * 2 ^ 20 + st.toNat)) (rHiCommitReg p) reg
  else s

/-! ## Writing (R7, R426, R433) -/

/-- Entry into ACQUIRING: the run count is zero and the count is discarded (R25). -/
def enterAcquiring (b : BeatUnit) : BeatUnit :=
  { b with state := .acquiring, run := 0, phased := false, good := 0, accepted := false, count := 0, mismatch := 0, markers := [],
           refPort := 15, acqMarker := none, acqEdges := 0, fresh := false, leaving := none }

/-- Entry into UNLOCKED (R25). -/
def enterUnlocked (b : BeatUnit) : BeatUnit :=
  { b with state := .unlocked, run := 0, phased := false, good := 0, accepted := false, count := 0, mismatch := 0, markers := [],
           refPort := 15, acqMarker := none, acqEdges := 0, fresh := false, leaving := none }

/-- A write of BT_CTL (R25): ENABLE = 1 starts acquisition in UNLOCKED; ENABLE = 0 is ignored while a job is started, acts at once
in ACQUIRING, and at the next boundary in the states that have one. -/
def writeBtCtl (s : State) (v : Nat) : State :=
  if bit v 0 = 1 then
    let s := rset s rBtCtl 1
    if s.beat.state == .unlocked then { s with beat := enterAcquiring s.beat } else s
  else if s.beat.state != .unlocked && jobStarted s then s
  else
    let s := rset s rBtCtl 0
    match s.beat.state with
    | .unlocked => s
    | .acquiring => { s with beat := enterUnlocked s.beat }
    | _ => { s with beat := { s.beat with leaving := some false } }

/-- The selections that R385 lists. -/
def tmxOk (group index : Nat) : Bool :=
  match group with
  | 0 => index == 0 | 1 => decide (index < 5) | 2 => decide (index < 5) | 3 => decide (index < 7) | 4 => decide (index < 32)
  | 5 => decide (index < 6) || (decide (8 ≤ index) && decide (index < 32)) | 6 => decide (index < 4) | 7 => decide (index < 3)
  | _ => false

/-- RW and SH bits take the written value, W1C bits that are written 1 clear, and with a record's VALID its MORE. -/
def writePlain (s : State) (r : RegRow) (off v : Nat) : State :=
  let w := rget s off
  let mask := r.rw ||| r.sh
  let w := (w - (w &&& mask)) + (v &&& mask)
  let clear := v &&& r.w1c
  let clear := if bit clear 31 = 1 then clear ||| 2 ^ 30 else clear
  rset s off (w - (w &&& clear))

/-- A write of SC_GRANT_CTL: END ends debug, then SUBMIT verifies (R371, R372). -/
def writeGrantCtl (s : State) (r : RegRow) (v : Nat) : State :=
  let s := writePlain s r rScGrantCtl v
  let s := if bit v 1 = 1 then setDebug s 0 else s
  if bit v 0 = 1 then submitGrant s (rfld s rScGrantCtl 29 16) else s

/-- The block whose commit register is at `off`. -/
def commitBlockOf (off : Nat) : Option (Nat × Nat × Nat) :=
  (blockSpans.find? fun b => b.2.2.2 == off && off != 0).map fun b => (b.1, b.2.1, b.2.2.1)

/-- A 4-byte write of the register at `off` on a path. -/
def writeReg (s : State) (path : Path) (off v : Nat) : State :=
  match regRow? off with
  | none => s
  | some r =>
    match commitBlockOf off with
    | some (block, base, span) => if bit v 0 = 1 then commitOn s path block base span else s
    | none =>
      if off = rBtCtl then writeBtCtl s v
      else if off = rRlExpel then writeExpel s v
      else if off = rScGrantCtl then writeGrantCtl s r v
      else if rScGrantBuf 0 ≤ off ∧ off < rScGrantBuf 2048 then rset s off v
      else if off = rEgRouteSel then writePlain s r off (if bits v 18 16 = 7 then putBits v 18 16 (rfld s off 18 16) else v)
      else if rEgPortCtl 0 ≤ off ∧ off < rEgPortCtl 6 ∧ off % 64 = 0 then writePortCtl s ((off - rEgPortCtl 0) / 64) v
      else if rMgTmxk 0 ≤ off ∧ off < rMgTmxk 16 then
        if tmxOk (bits v 15 8) (bits v 7 0) then writePlain s r off v else s
      else if rHiFnCommitSt 0 ≤ off ∧ off < rHiFnCommitSt 256 ∧ off % 1024 = 4 then
        if bit v 0 = 1 then commitWindow s ((off - rHiFnCommitSt 0) / 1024) else s
      else writePlain s r off v

/-- The registers that the management paths may write (R380). -/
def mgmtMayWrite (off : Nat) : Bool :=
  off == rRlExpel || off == rScGrantCtl || (decide (rScGrantBuf 0 ≤ off) && decide (off < rScGrantBuf 2048) && off % 4 == 0) ||
  (decide (rMgCfg ≤ off) &&
    ((off == rMgCommit) || ((regRow? off).map fun r => r.rw ||| r.sh ||| r.w1c != 0).getD false) && decide (off < rMgCfg + 0x100))

/-- The first write to PF0's BAR0 after READY ends the boot window (R396). -/
def closeWindowOfBoot (s : State) : State := { s with boot := { s.boot with window := false, staging := [] } }

/-- A management path serves: SGMII and I3C from their points of the start-up (R375, R383), REGACC out of reset (R428). -/
def pathServes (s : State) : Path → Bool
  | .sgmii => s.mgmt.serving
  | .i3c => s.mgmt.i3cOn
  | _ => s.boot.phase != 0

/-- A 4-byte write on a path, by R426 and, on the management paths, R380; nothing over PCI Express before READY (R396). -/
def accessWrite (s : State) (path : Path) (off v : Nat) : State :=
  match path with
  | .bar0 =>
    if s.boot.phase != 7 then s
    else
      let s := closeWindowOfBoot s
      if inSpan off then writeReg s path off v else emit (aerLog s 0 aerUnsupported) (.unsupported 0)
  | .vf f =>
    if s.boot.phase != 7 || !fnEnabled s f.val then s
    else if off < 0x400 then writeReg s path (rHiFnCommitSt f.val + off) v
    else emit (aerLog s f.val aerUnsupported) (.unsupported f.val)
  | _ => if pathServes s path && mgmtMayWrite off then writeReg s path off v else s

/-- Reads the `n` registers from `off` upward, with the effects of a full read of each (R427). -/
def readWords (path : Path) : Nat → Nat → State → State × List Byte
  | 0, _, s => (s, [])
  | n + 1, off, s =>
    let (v, s) := readReg s path off
    let (s, bs) := readWords path n (off + 4) s
    (s, leBytes 4 v ++ bs)

/-- The bytes [off, off + len) of the registers from `base` up, as successive 4-byte reads give them (R427). -/
def readSpan (s : State) (path : Path) (base off len : Nat) : State × List Byte :=
  let (s, bs) := readWords path ((off % 4 + len + 3) / 4) (base + off / 4 * 4) s
  (s, (bs.drop (off % 4)).take len)

/-- A PCI Express read of `len` bytes: the completion, zeros before READY, Unsupported Request outside every block span (R396, R426). -/
def accessRead (s : State) (path : Path) (off len : Nat) : State :=
  match path with
  | .bar0 =>
    if s.boot.phase != 7 then emit s (.completion 0 (List.replicate len 0) false)
    else if !inSpan off then emit (aerLog s 0 aerUnsupported) (.unsupported 0)
    else let (s, bs) := readSpan s path 0 off len; emit s (.completion 0 bs false)
  | .vf f =>
    if s.boot.phase != 7 || !fnEnabled s f.val then s
    else if 0x400 ≤ off then emit (aerLog s f.val aerUnsupported) (.unsupported f.val)
    else let (s, bs) := readSpan s path (rHiFnCommitSt f.val) off len; emit s (.completion f.val bs false)
  | _ => if pathServes s path then (readSpan s path 0 off len).1 else s

/-! ## Meanings -/

/-- BT_CTL_ENABLE (R25). -/
def execBtCtlEnable (path : Path) (v : Word) (s : State) : Host.Outcome State Fault Refusal :=
  .next (keepQueue s (accessWrite s path rBtCtl v.toNat))
/-- BT_COMMIT (R29). -/
def execBtCommit (path : Path) (v : Word) (s : State) : Host.Outcome State Fault Refusal :=
  .next (keepQueue s (accessWrite s path rBtCommit v.toNat))
/-- LO_HALF_READ_LATCH (R39). -/
def execLoHalfReadLatch (path : Path) (r : RegRead) (s : State) : Host.Outcome State Fault Refusal :=
  .next (quiet s (accessRead s path r.off.toNat r.len))
/-- CL_COMMIT (R65). -/
def execClCommit (path : Path) (v : Word) (s : State) : Host.Outcome State Fault Refusal :=
  .next (quiet s (accessWrite s path rClCommit v.toNat))
/-- MX_COMMIT (R89). -/
def execMxCommit (path : Path) (v : Word) (s : State) : Host.Outcome State Fault Refusal :=
  .next (quiet s (accessWrite s path rMxCommit v.toNat))
/-- KV_COMMIT (R136). -/
def execKvCommit (path : Path) (v : Word) (s : State) : Host.Outcome State Fault Refusal :=
  .next (quiet s (accessWrite s path rKvCommit v.toNat))
/-- FG_COMMIT (R168). -/
def execFgCommit (path : Path) (v : Word) (s : State) : Host.Outcome State Fault Refusal :=
  .next (quiet s (accessWrite s path rFgCommit v.toNat))
/-- LN_COMMIT (R196). -/
def execLnCommit (path : Path) (v : Word) (s : State) : Host.Outcome State Fault Refusal :=
  .next (quiet s (accessWrite s path rLnCommit v.toNat))
/-- SQ_COMMIT (R224). -/
def execSqCommit (path : Path) (v : Word) (s : State) : Host.Outcome State Fault Refusal :=
  .next (quiet s (accessWrite s path rSqCommit v.toNat))
/-- MT_COMMIT (R247). -/
def execMtCommit (path : Path) (v : Word) (s : State) : Host.Outcome State Fault Refusal :=
  .next (quiet s (accessWrite s path rMtCommit v.toNat))
/-- EG_COMMIT (R275). -/
def execEgCommit (path : Path) (v : Word) (s : State) : Host.Outcome State Fault Refusal :=
  .next (quiet s (accessWrite s path rEgCommit v.toNat))
/-- RA_COMMIT (R296). -/
def execRaCommit (path : Path) (v : Word) (s : State) : Host.Outcome State Fault Refusal :=
  .next (quiet s (accessWrite s path rRaCommit v.toNat))
/-- HI_FN_COMMIT (R317): from PF0 at the window's offset, from the function at its own. -/
def execHiFnCommit (path : Path) (f : FnId) (v : Word) (s : State) : Host.Outcome State Fault Refusal :=
  let off := match path with
    | .vf _ => 4
    | _ => rHiFnCommit f.val
  .next (quiet s (settle (accessWrite s path off v.toNat)))
/-- PW_COMMIT (R319). -/
def execPwCommit (path : Path) (v : Word) (s : State) : Host.Outcome State Fault Refusal :=
  .next (quiet s (accessWrite s path rPwCommit v.toNat))
/-- RL_COMMIT (R353). -/
def execRlCommit (path : Path) (v : Word) (s : State) : Host.Outcome State Fault Refusal :=
  .next (quiet s (accessWrite s path rRlCommit v.toNat))
/-- MG_COMMIT (R389). -/
def execMgCommit (path : Path) (v : Word) (s : State) : Host.Outcome State Fault Refusal :=
  .next (quiet s (accessWrite s path rMgCommit v.toNat))
/-- EG_PORT_ENABLE (R260): a write of EG_PORT_CTL. -/
def execEgPortEnable (path : Path) (p : PortId) (v : Word) (s : State) : Host.Outcome State Fault Refusal :=
  .next (quiet s (settle (accessWrite s path (rEgPortCtl p.val) v.toNat)))
/-- EG_PORT_RETRAIN (R260): a write of EG_PORT_CTL. -/
def execEgPortRetrain (path : Path) (p : PortId) (v : Word) (s : State) : Host.Outcome State Fault Refusal :=
  .next (quiet s (settle (accessWrite s path (rEgPortCtl p.val) v.toNat)))
/-- GRANT (R349). -/
def execGrantExpel (path : Path) (s : State) : Host.Outcome State Fault Refusal := .next (quiet s (accessWrite s path rRlExpel 1))
/-- NO_SPARE (R349). -/
def execNoSpare (path : Path) (s : State) : Host.Outcome State Fault Refusal := .next (quiet s (accessWrite s path rRlExpel 2))
/-- SUBMIT (R371): a write of SC_GRANT_CTL. -/
def execSubmit (path : Path) (v : Word) (s : State) : Host.Outcome State Fault Refusal :=
  .next (quiet s (accessWrite s path rScGrantCtl v.toNat))
/-- END (R372): a write of SC_GRANT_CTL with END set and LENGTH as it stands. -/
def execEndDebug (path : Path) (s : State) : Host.Outcome State Fault Refusal :=
  .next (quiet s (accessWrite s path rScGrantCtl (rfld s rScGrantCtl 29 16 * 2 ^ 16 + 2)))
/-- MG_TMX_SELECT (R385). -/
def execMgTmxSelect (path : Path) (k : Fin 16) (v : Word) (s : State) : Host.Outcome State Fault Refusal :=
  .next (quiet s (accessWrite s path (rMgTmxk k.val) v.toNat))
/-- One 4-byte write of an access: of all registers only BT_CTL and BT_COMMIT move the beat unit (R25, R29). -/
def writeWord (path : Path) (o : Nat) (v : Word) (s : State) : State :=
  let t := accessWrite s path o v.toNat
  if o = rBtCtl ∨ o = rBtCommit then keepQueue s (keepBeat t (settle t)) else quiet s (settle t)

/-- The successive 4-byte writes of an access, in ascending address order (R427). -/
def writeAccess (path : Path) : Nat → List Word → State → State
  | _, [], s => s
  | o, v :: vs, s => writeAccess path (o + 4) vs (writeWord path o v s)

/-- REGISTER_WRITE (R7). One whose byte enables do not cover every register it touches is dropped (R427). DESIGN CHOICE (log 13): a dropped
write does not end the boot window. -/
def execRegisterWrite (path : Path) (off : BitVec 26) (v : RegWrite) (s : State) : Host.Outcome State Fault Refusal :=
  .next (if v.whole then writeAccess path (off.toNat / 4 * 4) v.words s else s)
/-- BAR0_UNMAPPED_ACCESS (R426): an access at an offset that names no register; one that names a register is no such event. -/
def execBar0UnmappedAccess (fn : FnId) (isWrite : Bool) (off : BitVec 26) (s : State) : Host.Outcome State Fault Refusal :=
  let path : Path := if fn.val = 0 then .bar0 else .vf fn
  let o := off.toNat / 4 * 4
  let named := if fn.val = 0 then (regRow? o).isSome else decide (o < 0x400) && (regRow? (rHiFnCommitSt fn.val + o)).isSome
  .next (quiet s (if named then s else if isWrite then accessWrite s path o 0 else accessRead s path o 4))

end Sys2Proof.Machine
end

