-- ==== Sys2Proof/Machine/Mgmt.lean ====
section
/-!
DEFINITION. The management port and debug access (spec/17_management_debug.md R374–R388): SGMII frames, register access, telemetry,
event delivery, the I3C target with MCTP, and the TAP. The form of the I3C and MCTP answers is that of the standards R383 and R384 name.
-/

namespace Sys2Proof.Machine

/-! ## Frames (R374–R378) -/

def kRead : Nat := 1
def kWrite : Nat := 2
def kTelemetry : Nat := 3
def kReadAcct : Nat := 4
def kPullEvents : Nat := 5

/-- A frame as it is tagged: header and body (R376). -/
def mgmtBytes (kind : Nat) (seq status resv boot : Nat) (body : List Byte) : List Byte :=
  [1, BitVec.ofNat 8 kind] ++ leBytes 2 body.length ++ leBytes 8 seq ++ leBytes 2 status ++ leBytes 2 resv ++ leBytes 8 boot ++ body

/-- TAG of header and body, zeros with no MKEY (R376). -/
def mgmtTag (s : State) (bs : List Byte) : List Byte :=
  match s.mgmt.mkey with
  | some k => (hmac384 k bs).take 16
  | none => leBytes 16 0

/-- The port is up and serves (R374, R375). -/
def sgmiiUp (s : State) : Bool := s.mgmt.serving && s.mgmt.link == .up1000 && s.mgmt.mac.isSome && !scanOwnsPins s

/-- The octets of a frame without its padding: addresses (first octet in the low bits, R389), EtherType, header, body, TAG (R376). -/
def frameOctets (s : State) (dst : BitVec 48) (kind : Nat) (st : Half) (seq : Nat) (body : List Byte) : List Byte :=
  let bs := mgmtBytes kind seq st.toNat 0 s.mgmt.boot.toNat body
  leBytes 6 dst.toNat ++ leBytes 6 ((s.mgmt.mac.map fun a => a.toNat).getD 0) ++ (leBytes 2 (cfld s rMgCfg 31 16)).reverse ++ bs ++ mgmtTag s bs

/-- Sends a frame, tagged, and padded after TAG to 60 octets before the frame check. DESIGN CHOICE (log 81): the padding, which the spec
leaves open, is a free value, and the 64 bytes count the frame check. -/
def sendFrame (s : State) (dst : BitVec 48) (kind : Nat) (st : Half) (seq : Nat) (body : List Byte) : State :=
  let bs := frameOctets s dst kind st seq body
  let (pad, s) := takeFree s (8 * (60 - bs.length))
  emit s (.mgmtFrame (bs ++ leBytes (60 - bs.length) pad))

/-- The collector's address, zero for none. -/
def collector (s : State) : Nat := cbase s rMgCollectorLo rMgCollectorHi

/-- The port accepts the frame (R375). An I3C message reaches a target that has an address. -/
def frameAccepted (s : State) (f : MgmtFrame) : Bool :=
  if f.sgmii then
    sgmiiUp s && (s.mgmt.mac == some f.dst || f.dst == BitVec.allOnes 48) && f.ethertype.toNat == cfld s rMgCfg 31 16
  else s.mgmt.i3cOn && s.mgmt.daddr.isSome && !scanOwnsPins s

def bodyNat (f : MgmtFrame) (o n : Nat) : Nat := leNat ((f.body.drop o).take n)

/-- OFFSET and COUNT of READ and WRITE; Count of PULL_EVENTS. -/
def frameOffsetField (f : MgmtFrame) : Nat := bodyNat f 0 4
def frameCount (kind : Nat) (f : MgmtFrame) : Nat := if kind = kPullEvents then bodyNat f 0 1 else bodyNat f 4 2

/-- KIND is one of R377's requests. -/
def listedKind (k : Nat) : Bool := decide (kRead ≤ k) && decide (k ≤ kPullEvents)
/-- KIND of a frame that comes under a row: the row's, unless the frame carries one that R377 does not list. -/
def frameKind (row : Nat) (f : MgmtFrame) : Nat :=
  match f.otherKind with
  | some k => if listedKind k.toNat then row else k.toNat
  | none => row
/-- KIND is not in R377 for the frame's path. -/
def kindBad (kind : Nat) (f : MgmtFrame) : Bool := !listedKind kind || (kind == kPullEvents && f.sgmii)

/-- Body bytes the kind requires (R377). -/
def frameLength (kind : Nat) (f : MgmtFrame) : Nat :=
  if kind = kTelemetry then 0 else if kind = kWrite then 8 + 4 * frameCount kind f else 8

/-- A reserved field of the body. -/
def frameResv (kind : Nat) (f : MgmtFrame) : Bool :=
  if kind = kRead ∨ kind = kWrite then bodyNat f 6 2 != 0
  else if kind = kReadAcct ∨ kind = kPullEvents then bodyNat f 1 7 != 0
  else false

/-- A word of a WRITE lies outside the list of R380. -/
def writeOutside (f : MgmtFrame) : Bool :=
  (List.range (frameCount kWrite f)).any fun i => !mgmtMayWrite (frameOffsetField f + 4 * i)

/-- The rows of R378 down to the SEQ check. -/
def headStatus (s : State) (kind : Nat) (f : MgmtFrame) : Option Half :=
  if f.version != 1 || f.resv != 0 || f.status != 0 || frameResv kind f then some stBadField
  else if kindBad kind f then some stBadOpcode
  else if f.length.toNat ≠ frameLength kind f ∨ f.body.length ≠ f.length.toNat then some stBadLength
  else if f.sgmii && (f.boot != s.mgmt.boot || decide (f.seq.toNat ≤ s.mgmt.rxSeq)) then some stStaleGeneration
  else none

/-- The rows of R378 after it. -/
def tailStatus (s : State) (kind : Nat) (f : MgmtFrame) : Half :=
  let counted := kind == kRead || kind == kWrite || kind == kPullEvents
  let n := frameCount kind f
  if counted && n == 0 then stBadLength
  else if (kind == kPullEvents && decide (8 < n)) || (counted && decide (64 < n)) then stBadField
  else if (kind == kRead || kind == kWrite) && frameOffsetField f % 4 != 0 then stBadField
  else if (kind == kRead || kind == kWrite) && decide (2 ^ 26 < frameOffsetField f + 4 * n) then stBounds
  else if kind == kWrite && ((f.sgmii && s.mgmt.mkey.isNone) || writeOutside f) then stRights
  else if kind == kWrite && f.sgmii && s.mgmt.boot == 0 then stNoResource
  else stOk

/-- The response goes back on the path of the request. -/
def respond (s : State) (kind : Nat) (f : MgmtFrame) (st : Half) (body : List Byte) : State :=
  if f.sgmii then sendFrame s f.src (kind + 0x40) st f.seq.toNat body
  else emit s (.mctp (BitVec.ofNat 8 (kind + 0x40)) st f.seq body)

def refuseFrame (s : State) (kind : Nat) (f : MgmtFrame) (st : Half) : State :=
  respond (setEvent (satAdd s rMgCount 15 0 1) rMgEvent 3) kind f st []

/-- The frame's TAG fails under MKEY (R378). -/
def tagFails (s : State) (kind : Nat) (f : MgmtFrame) : Bool :=
  match s.mgmt.mkey with
  | none => false
  | some k =>
    let head := [f.version, BitVec.ofNat 8 kind] ++ leBytes 2 f.length.toNat ++ leBytes 8 f.seq.toNat ++ leBytes 2 f.status.toNat ++
      leBytes 2 f.resv.toNat ++ leBytes 8 f.boot.toNat
    f.sgmii && (hmac384 k (head ++ f.body)).take 16 != f.tag

/-- A management request under a row: the checks of R378, then its effect and the body of its response. -/
def onRequest (s : State) (row : Nat) (f : MgmtFrame) (act : State → State × List Byte) : State :=
  let kind := frameKind row f
  if !frameAccepted s f then s
  else if tagFails s kind f then setEvent (satAdd s rMgCount 15 0 1) rMgEvent 2
  else
    match headStatus s kind f with
    | some st => refuseFrame s kind f st
    | none =>
      let s := if f.sgmii then { s with mgmt := { s.mgmt with rxSeq := f.seq.toNat } } else s
      let st := tailStatus s kind f
      if st != stOk then refuseFrame s kind f st
      else
        let (s, body) := act (satAdd s rMgCount 31 16 1)
        respond s kind f stOk body

/-! ## Register access (R379, R380) -/

def framePath (f : MgmtFrame) : Path := if f.sgmii then .sgmii else .i3c

/-- Writes words in ascending offset order. -/
def writeWords (path : Path) (f : MgmtFrame) (s : State) : State :=
  (List.range (frameCount kWrite f)).foldl (fun s i => writeReg s path (frameOffsetField f + 4 * i) (bodyNat f (8 + 4 * i) 4)) s

/-! ## Telemetry (R381) -/

/-- The 64-byte telemetry record. -/
def telemetryRecord (s : State) : List Byte :=
  leBytes 6 (now s) ++ leBytes 1 (lockCode s.beat.state) ++ leBytes 1 (healthCode s.reliab.health) ++ leBytes 2 s.reliab.score ++
  leBytes 2 (viewReg s rPwPower / 2 ^ 16) ++ leBytes 2 (viewReg s rPwPower) ++ leBytes 2 s.power.cap ++ leBytes 2 (viewReg s rPwTemp) ++
  leBytes 1 (roleOf s) ++ leBytes 1 0 ++ leBytes 4 (roleEpoch s) ++ leBytes 2 (nodeWord s) ++ leBytes 2 0 ++ leBytes 4 s.reliab.seq ++
  leBytes 4 (viewReg s rPwDomainStLo) ++ leBytes 4 (viewReg s rPwDomainStHi) ++
  ((List.range 6).flatMap fun p => leBytes 1 (bits (viewReg s (rEgPortStatus p)) 2 0 + bits (viewReg s (rEgPortStatus p)) 5 4 * 16)) ++
  leBytes 2 0 ++ leBytes 4 (freeHbmTiles s) ++ leBytes 4 (freeDdrTiles s) ++ leBytes 4 s.tiers.freeNand ++ leBytes 4 (rget s rBtMissCount)

/-- Every `MG_CFG.TELEM` × 100 ms, while the port is up and the collector is non-zero. -/
def telemetryTick (s : State) : State :=
  if cfld s rMgCfg 15 8 != 0 && sgmiiUp s && collector s != 0 then
    sendFrame s (BitVec.ofNat 48 (collector s)) 0x43 stOk 0 (telemetryRecord s)
  else s

/-! ## Event delivery (R382) -/

/-- SEQ of the next record to take, where one is unsent and still in the ring. -/
def nextUnsent (s : State) : Option Nat :=
  if s.mgmt.sent < s.reliab.seq then some (max (s.mgmt.sent + 1) (s.reliab.seq - 255)) else none

/-- Takes the next record on the selected path. -/
def takeRecord (s : State) : Option (List Byte × State) :=
  (nextUnsent s).map fun n => (tgetD s.reliab.log (n % 256) [], { s with mgmt := { s.mgmt with sent := n } })

/-- An EVENT frame to the collector. -/
def eventFrame (s : State) : State :=
  if cfld s rMgCfg 0 0 == 0 && sgmiiUp s && collector s != 0 then
    match takeRecord s with
    | some (bs, s) => sendFrame s (BitVec.ofNat 48 (collector s)) 0x50 stOk 0 bs
    | none => s
  else s

/-- Takes up to `n` records for PULL_EVENTS; none while the records go by SGMII. -/
def pullRecords : Nat → State → State × List Byte
  | 0, s => (s, [])
  | n + 1, s =>
    if cfld s rMgCfg 0 0 == 0 then (s, [])
    else
      match takeRecord s with
      | none => (s, [])
      | some (bs, s) =>
        let (s, more) := pullRecords n s
        (s, bs ++ more)

/-! ## The I3C target (R383, R384) -/

/-- The 48-bit provisional ID. -/
def provisionalId (s : State) : Nat := Config.mipiId.toNat * 2 ^ 33 + 2 ^ 32 + s.mgmt.pid.toNat

/-- The target serves (R383) and its pins are its own (R386). -/
def i3cServes (s : State) : Bool := s.mgmt.i3cOn && !scanOwnsPins s

/-- The target answers a direct CCC: it serves and has a dynamic address. -/
def i3cAnswer (s : State) (k : State → State) : State := if i3cServes s && s.mgmt.daddr.isSome then k s else s

/-- ENTDAA: a target without an address sends its provisional ID, BCR and DCR, and takes the address. -/
def assignAddress (s : State) (a : BitVec 7) : State :=
  if i3cServes s && s.mgmt.daddr.isNone then
    let s := emit s (.i3c ((leBytes 6 (provisionalId s)).reverse ++ [0x06, 0x00]))
    raiseIbi (setEvent { s with mgmt := { s.mgmt with daddr := some a } } rMgEvent 0)
  else s

/-- 1 ms after an IBI: it is raised again while unsent records remain. -/
def retryIbi (s : State) : State :=
  let s := { s with mgmt := { s.mgmt with ibiHold := false } }
  raiseIbi s

/-- ENEC and DISEC with the interrupt bit. -/
def setIbi (s : State) (int on : Bool) : State :=
  if i3cServes s && int then raiseIbi { s with mgmt := { s.mgmt with ibiOn := on } } else s

/-- An MCTP control response. -/
def control (s : State) (code : Byte) (body : List Byte) : State := i3cAnswer s fun s => emit s (.mctpControl code body)

/-! ## Observation pins (R385) -/

/-- The signal of a group and index of R385, where it is a level of State; the pulses and the divided clocks live within a beat and show
in no state. -/
def tmxSignal (s : State) (group index : Nat) : Option Bool :=
  match group, index with
  | 0, 0 => some false
  | 1, 1 => some (s.beat.state == .locked)
  | 1, 2 => some (s.beat.state == .holdover)
  | 3, 4 => some (cfld s rPwCfg 24 24 = 1 && decide (peakRemain s < periodUs s))
  | 3, 5 => some s.power.thermal.isSome
  | 3, 6 => some s.power.thermtrip
  | 3, comb => if comb < 4 then some (s.power.holdAll || s.grid.rotating) else none
  | 4, g => some ((s.grid.cells).any fun e => e.1 % 32 == g && e.2.engine.streaming)
  | 5, n =>
    if n < 6 then some ((portGet s n).state == .up)
    else if 8 ≤ n then some ((portGet s ((n - 8) / 4)).locked.getLsbD ((n - 8) % 4)) else none
  | 6, 1 => some (s.reliab.health != .healthy)
  | 6, 3 => some (match s.reliab.test with | .kat _ => true | _ => false)
  | 7, 0 => some s.host.linkUp
  | _, _ => none

/-- What TMXk drives: none at high impedance, without OBSERVE or while boundary scan owns the pins. -/
def tmxPin (s : State) (k : Nat) : Option (Option Bool) :=
  if bit s.sec.debug 0 = 1 && !scanOwnsPins s then some (tmxSignal s (rfld s (rMgTmxk k) 15 8) (rfld s (rMgTmxk k) 7 0)) else none

/-! ## The TAP (R386–R388) -/

def setTap (s : State) (i : TapInsn) (scan : Bool) : State :=
  { s with mgmt := { s.mgmt with tap := i, scanned := s.mgmt.scanned || scan } }

/-- IJTAG needs INSTRUMENT; without it the instruction behaves as BYPASS. -/
def tapIjtag (s : State) : State := setTap s (if bit s.sec.debug 1 = 1 then .ijtag else .bypass) false

/-- REGACC's Update-DR with an operation; the capture that follows reports it. -/
def regaccOp (s : State) (write : Bool) (dr : DWord) : State :=
  let d := dr.toNat
  let op := bits d 31 30
  let off := bits d 25 2 * 4
  if s.mgmt.tap != .regacc || op != (if write then 2 else 1) then s
  else
    let done := fun (s : State) (data result : Nat) =>
      emit { s with mgmt := { s.mgmt with regData := BitVec.ofNat 32 data, regResult := BitVec.ofNat 2 result, regOff := BitVec.ofNat 24 (off / 4) } }
        (.tap (BitVec.ofNat 64 (data * 2 ^ 32 + result * 2 ^ 30 + off)))
    if write then
      if mgmtMayWrite off then done (writeReg s .tap off (bits d 63 32)) s.mgmt.regData.toNat 0
      else done s s.mgmt.regData.toNat 1
    else
      let (v, s) := readReg s .tap off
      done s v 0

/-- An instrument's operation: one that would change a memory or a PHY is refused while a job is started. -/
def instrumentOp (s : State) (segment : Nat) (changes : Bool) : State :=
  if s.mgmt.tap != .ijtag || bit s.sec.debug 1 = 0 then s
  else
    emit { s with mgmt := { s.mgmt with segments := s.mgmt.segments ||| BitVec.ofNat 8 (2 ^ segment) } }
      (.instrument segment (!(changes && jobStarted s)))

/-! ## Meanings -/

/-- READ (R379). -/
def execMgmtRead (f : MgmtFrame) (s : State) : Host.Outcome State Fault Refusal :=
  .next (quiet s (onRequest s kRead f fun s => readWords (framePath f) (frameCount kRead f) (frameOffsetField f) s))
/-- WRITE (R380). -/
def execMgmtWrite (f : MgmtFrame) (s : State) : Host.Outcome State Fault Refusal :=
  .next (quiet s (onRequest s kWrite f fun s => (writeWords (framePath f) f s, [])))
/-- TELEMETRY (R381). -/
def execTelemetry (f : MgmtFrame) (s : State) : Host.Outcome State Fault Refusal :=
  .next (quiet s (onRequest s kTelemetry f fun s => (s, telemetryRecord s)))
/-- TELEMETRY_TIMER (R381). -/
def execTelemetryTimer (s : State) : Host.Outcome State Fault Refusal := .next (quiet s (telemetryTick s))
/-- READ_ACCT (R377). -/
def execReadAcct (f : MgmtFrame) (s : State) : Host.Outcome State Fault Refusal :=
  .next (quiet s (onRequest s kReadAcct f fun s => (s, accountBytes s (bodyNat f 0 1))))
/-- PULL_EVENTS (R382). -/
def execPullEvents (f : MgmtFrame) (s : State) : Host.Outcome State Fault Refusal :=
  .next (quiet s (onRequest s kPullEvents f fun s => pullRecords (frameCount kPullEvents f) s))
/-- EVENT_FRAME_SEND (R382). -/
def execEventFrameSend (s : State) : Host.Outcome State Fault Refusal := .next (quiet s (eventFrame s))
/-- SGMII_LINK_CHANGE (R374). -/
def execSgmiiLinkChange (l : SgmiiLink) (s : State) : Host.Outcome State Fault Refusal :=
  .next (quiet s (if s.mgmt.link == l then s else setEvent { s with mgmt := { s.mgmt with link := l } } rMgEvent 1))
/-- MGMT_FRAME_DROP (R378): a frame finds the receive buffer full. -/
def execMgmtFrameDrop (s : State) : Host.Outcome State Fault Refusal :=
  .next (quiet s (if sgmiiUp s then setEvent (satAdd s rMgCount 15 0 1) rMgEvent 4 else s))
/-- ENTDAA (R383). -/
def execEntdaa (a : BitVec 7) (s : State) : Host.Outcome State Fault Refusal := .next (quiet s (assignAddress s a))
/-- RSTDAA (R383). -/
def execRstdaa (s : State) : Host.Outcome State Fault Refusal :=
  .next (quiet s (if i3cServes s then { s with mgmt := { s.mgmt with daddr := none } } else s))
/-- ENEC (R383). -/
def execEnec (int : Bool) (s : State) : Host.Outcome State Fault Refusal := .next (quiet s (setIbi s int true))
/-- DISEC (R383). -/
def execDisec (int : Bool) (s : State) : Host.Outcome State Fault Refusal := .next (quiet s (setIbi s int false))
/-- GETPID (R383). -/
def execGetpid (s : State) : Host.Outcome State Fault Refusal :=
  .next (quiet s (i3cAnswer s fun s => emit s (.i3c (leBytes 6 (provisionalId s)).reverse)))
/-- GETBCR (R383). -/
def execGetbcr (s : State) : Host.Outcome State Fault Refusal := .next (quiet s (i3cAnswer s fun s => emit s (.i3c [0x06])))
/-- GETDCR (R383). -/
def execGetdcr (s : State) : Host.Outcome State Fault Refusal := .next (quiet s (i3cAnswer s fun s => emit s (.i3c [0x00])))
/-- GETSTATUS (R383): the two status bytes are not stated, so they are a free value. -/
def execGetstatus (s : State) : Host.Outcome State Fault Refusal :=
  .next (quiet s (i3cAnswer s fun s => let (v, s) := takeFree s 16; emit s (.i3c (leBytes 2 v))))
/-- GETMXDS (R383): the two data-speed bytes are not stated, so they are a free value. -/
def execGetmxds (s : State) : Host.Outcome State Fault Refusal :=
  .next (quiet s (i3cAnswer s fun s => let (v, s) := takeFree s 16; emit s (.i3c (leBytes 2 v))))
/-- IBI_RETRY (R383). -/
def execIbiRetry (s : State) : Host.Outcome State Fault Refusal := .next (quiet s (retryIbi s))
/-- SET_ENDPOINT_ID (R384): completion code, EID status, EID, pool size; the reserved EIDs 0x00 and 0xFF are invalid data. -/
def execSetEndpointId (eid : Byte) (s : State) : Host.Outcome State Fault Refusal :=
  .next (quiet s (i3cAnswer s fun s =>
    if eid == 0 || eid == 0xFF then emit s (.mctpControl 1 [2])
    else emit { s with mgmt := { s.mgmt with eid := eid } } (.mctpControl 1 [0, 0, eid, 0])))
/-- GET_ENDPOINT_ID (R384): completion code, EID, endpoint type, medium-specific byte. -/
def execGetEndpointId (s : State) : Host.Outcome State Fault Refusal := .next (quiet s (control s 2 [0, s.mgmt.eid, 0, 0]))
/-- GET_MCTP_VERSION_SUPPORT (R384): which version is not stated, so the entry is a free value. -/
def execGetMctpVersionSupport (s : State) : Host.Outcome State Fault Refusal :=
  .next (quiet s (i3cAnswer s fun s => let (v, s) := takeFree s 32; emit s (.mctpControl 4 ([0, 1] ++ leBytes 4 v))))
/-- GET_MESSAGE_TYPE_SUPPORT (R384): one type beside control messages, Vendor Defined – IANA. -/
def execGetMessageTypeSupport (s : State) : Host.Outcome State Fault Refusal := .next (quiet s (control s 5 [0, 1, 0x7F]))
/-- GET_VENDOR_DEFINED_SUPPORT (R384): one set, of IANA format, with the PEN that MG_PEN reports. -/
def execGetVendorDefinedSupport (s : State) : Host.Outcome State Fault Refusal :=
  .next (quiet s (control s 6 ([0, 0xFF, 1] ++ (leBytes 4 Config.pen.toNat).reverse ++ [0, 0])))
/-- BYPASS (R386). -/
def execBypass (s : State) : Host.Outcome State Fault Refusal := .next (quiet s (setTap s .bypass false))
/-- IDCODE (R386). -/
def execIdcode (s : State) : Host.Outcome State Fault Refusal :=
  .next (quiet s (emit (setTap s .idcode false) (.tap (BitVec.ofNat 64 idcodeWord))))
/-- SAMPLE/PRELOAD (R386). -/
def execSamplePreload (s : State) : Host.Outcome State Fault Refusal := .next (quiet s (setTap s .samplePreload false))
/-- EXTEST (R386). -/
def execExtest (s : State) : Host.Outcome State Fault Refusal := .next (quiet s (setTap s .extest true))
/-- CLAMP (R386). -/
def execClamp (s : State) : Host.Outcome State Fault Refusal := .next (quiet s (setTap s .clamp true))
/-- HIGHZ (R386). -/
def execHighz (s : State) : Host.Outcome State Fault Refusal := .next (quiet s (setTap s .highz true))
/-- REGACC (R387). -/
def execRegacc (s : State) : Host.Outcome State Fault Refusal := .next (quiet s (setTap s .regacc false))
/-- A read by REGACC (R387). -/
def execRegaccRead (dr : DWord) (s : State) : Host.Outcome State Fault Refusal := .next (quiet s (regaccOp s false dr))
/-- A write by REGACC (R387). -/
def execRegaccWrite (dr : DWord) (s : State) : Host.Outcome State Fault Refusal := .next (quiet s (regaccOp s true dr))
/-- IJTAG (R386, R388). -/
def execIjtag (s : State) : Host.Outcome State Fault Refusal := .next (quiet s (tapIjtag s))
/-- INSTRUMENT_OPERATION (R388). -/
def execInstrumentOperation (segment : Fin 8) (changes : Bool) (s : State) : Host.Outcome State Fault Refusal :=
  .next (quiet s (instrumentOp s segment.val changes))

end Sys2Proof.Machine
end

