-- ==== Sys2Proof/Machine/Boot.lean ====
section
/-!
DEFINITION. Start-up and reset (spec/18_startup_reset.md R390–R401) and the reset pins (spec/19_pins_electrical.md R411, R414, R415):
the SPI flash, the wear log (R391), the configuration image (R392, R393), the power-up sequence (R394, R395), the boot window (R396, R397),
the reset kinds (R400). A sequence runs within the command that starts it, as far as it goes without the host.
-/

namespace Sys2Proof.Machine

/-! ## The flash (R390): kept complemented, so that an unlisted byte is an erased one -/

def areaHelper : Nat := 0
def areaCert : Nat := 0x10000
def areaImageA : Nat := 0x1000000
def areaImageB : Nat := 0x1800000
def areaRepair : Nat := 0x2000000
def areaWear : Nat := 0x3000000
def flashSize : Nat := 0x4000000

/-- `n` bytes of the flash from `a`. -/
def flashRead (s : State) (a n : Nat) : List Byte := (mread s.boot.flash a n).map fun b => ~~~ b
def flashNat (s : State) (a n : Nat) : Nat := leNat (flashRead s a n)
/-- Programs bytes. -/
def flashPut (s : State) (a : Nat) (bs : List Byte) : State :=
  { s with boot := { s.boot with flash := mwrite s.boot.flash a (bs.map fun b => ~~~ b) } }
/-- An area is absent when its first four bytes are all ones. -/
def areaPresent (s : State) (a : Nat) : Bool := flashNat s a 4 != 0xFFFFFFFF
/-- The world's flash in the canonical form, from address `lo` up to `hi`. -/
def flashFrom (m : Mem) (lo hi : Nat) (into : Mem) : Mem :=
  (m.filter fun (e : Host.Cell) => decide (lo ≤ e.1 ∧ e.1 < hi)).foldl (fun r e => mset r e.1 e.2) (into.filter fun (e : Host.Cell) =>
    decide (e.1 < lo ∨ hi ≤ e.1))

/-! ## The wear log (R391) -/

/-- A wear-log record with its check. -/
def wearRecord (seq hours seconds : Nat) : List Byte :=
  let b := leBytes 4 seq ++ leBytes 4 hours ++ leBytes 4 seconds
  b ++ leBytes 4 (crc32c b).toNat

/-- The record at flash offset `a`: SEQ, hours, seconds, where its CRC matches. -/
def wearAt (s : State) (a : Nat) : Option (Nat × Nat × Nat) :=
  let bs := flashRead s a 16
  let f := fun (o : Nat) => leNat ((bs.drop o).take 4)
  if wearRecord (f 0) (f 4) (f 8) = bs then some (f 0, f 4, f 8) else none

/-- Offset and contents of the record with the highest SEQ whose CRC matches. -/
def newestWear (s : State) : Option (Nat × Nat × Nat × Nat) :=
  let slots := (s.boot.flash.filter fun (e : Host.Cell) => decide (areaWear ≤ e.1)).foldl
    (fun (l : List Nat) e => if l.head? = some (e.1 / 16 * 16) then l else e.1 / 16 * 16 :: l) []
  slots.foldl (fun (b : Option (Nat × Nat × Nat × Nat)) a =>
    match wearAt s a, b with
    | none, _ => b
    | some r, none => some (a, r)
    | some r, some q => if q.2.1 < r.1 then some (a, r) else b) none

/-- Appends a record after the newest, erasing a sector that is entered and not blank. -/
def wearAppend (s : State) (hours : Nat) : State :=
  let seconds := s.power.wear / 1000000
  let last := newestWear s
  let seq := (last.map fun r => r.2.1).getD 0 + 1
  let at_ := match last with
    | none => areaWear
    | some r => if r.1 + 16 = flashSize then areaWear else r.1 + 16
  let s := if at_ % 65536 = 0 then { s with boot := { s.boot with flash := mclear s.boot.flash at_ 65536 } } else s
  let s := flashPut s at_ (wearRecord seq hours seconds)
  { s with power := { s.power with wearHours := hours } }

/-- WEAR_LOG_APPEND. -/
def wearLogAppend (s : State) (hours : Nat) : State := if s.boot.phase != 0 then wearAppend s hours else s

/-! ## Step 2: built-in self-test, HBM training, the repair map (R390, R394) -/

/-- Writes the repair map where it differs from the stored one; COUNT holds the new repairs. -/
def writeRepairs (s : State) (repairs : List (Nat × Byte)) : State :=
  let new := repairs.filter fun (r : Nat × Byte) => decide (flashRead s (areaRepair + r.1) 1 ≠ [r.2])
  if new.isEmpty then s
  else
    let s := new.foldl (fun s r => flashPut s (areaRepair + r.1 % 0x1000000) [r.2]) s
    event s { sev := sevNotice, src := srcReliab, count := new.length }

/-- Step 1 of R394: out of reset with the control block's domain powered (R13); a part with MFG_TEST high stays here (R411). -/
def outOfReset (s : State) : State :=
  { s with boot := { s.boot with phase := 1 }, power := { s.power with on := controlDomain, ready := controlDomain } }

def bootStep2 (s : State) (w : BootWorld) : State :=
  let s := { s with
    boot := { s.boot with phase := 2 }
    power := { s.power with on := fixedDomains, ready := fixedDomains }
    tiers := { s.tiers with hbmOut := ~~~ w.hbmTrained } }
  let s := if w.hbmTrained = BitVec.allOnes 20 then s else setEvent s rMtEvent 5
  writeRepairs s w.repairs

/-- The wear count is read at power-on (R333). -/
def readWear (s : State) : State :=
  match newestWear s with
  | some r => { s with power := { s.power with wear := r.2.2.2 * 1000000, wearHours := r.2.2.1 } }
  | none => s

/-! ## Step 3: identity and random bits (R362, R364, R365, R383) -/

/-- The identity needs the helper record (R362). -/
def bootStep3 (s : State) (w : BootWorld) : State :=
  let s := deriveIdentity { s with boot := { s.boot with phase := 3 } } (if areaPresent s areaHelper then w.seed else none)
  let s := { s with sec := { s.sec with rngOk := true } }
  let s := if w.rngOk then s else rngFails s
  let s := if w.rngOk then drawRandom { s with sec := { s.sec with xtsFrom := some s.freeCtr } } 256 else s
  let (boot, s) := if w.rngOk then takeRandom s 64 else (0, s)
  let s := if w.rngOk then drawChallenge s else s
  let (pid, s) := if s.sec.idkeys.isSome then (identity s % 2 ^ 32, s) else takeRandom s 32
  { s with mgmt := { s.mgmt with boot := BitVec.ofNat 64 boot, pid := BitVec.ofNat 32 pid, i3cOn := true } }

/-! ## Step 4a: the configuration image (R392, R393, R395, R397) -/

/-- Offset and value of preload entry `i`. -/
def preload (p : List Byte) (i : Nat) : Nat × Nat := (imgNat p (64 + 8 * i) 4, imgNat p (68 + 8 * i) 4)

/-- The checks of the payload before any entry is applied. -/
def configStatus (p : List Byte) (len : Nat) : Half :=
  let n := imgNat p 48 4
  let hasSh := fun (i : Nat) => ((regRow? (preload p i).1).map fun r => r.sh != 0).getD false
  if len ≠ 64 + 8 * n then stBadLength
  else if imgNat p 0 2 ≠ 1 ∨ 8 ≤ imgNat p 2 1 ∨ imgNat p 3 1 ≠ 0 ∨ imgNat p 14 2 ≠ 0 ∨ imgNat p 52 12 ≠ 0 ∨ 4096 < n then stBadField
  else if (List.range n).all hasSh then stOk
  else stBadField

/-- The register blocks whose shadow sets a configuration commits, in ascending order of base; stops at the first refusal. -/
def commitAll (s : State) : Half × State :=
  let window := fun (s : State) (f : Nat) =>
    let (st, _) := commitOutcome (windowFails s f)
    if st == stOk then (st, commitRings (takeShadow s (rHiFnCommitSt f) (rHiFnCommitSt f + 1024)) f) else (st, s)
  blockSpans.foldl (fun (r : Half × State) b =>
    if r.1 != stOk then r
    else if b.1 = 11 then (List.range 256).foldl (fun (r : Half × State) f => if r.1 != stOk then r else window r.2 f) r
    else if b.2.2.2 = 0 then r
    else
      let (st, _, s) := commitBlock r.2 b.1 b.2.1 b.2.2.1
      (st, s)) (stOk, s)

/-- Applies a checked payload: the preloads as PF0 writes, the commits, the rest; a refused commit undoes all of it. -/
def applyConfig (s : State) (p : List Byte) (digest : BitVec 384) (source : Nat) : State × Half :=
  let pre := (List.range (imgNat p 48 4)).foldl (fun s i => writeReg s .bar0 (preload p i).1 (preload p i).2) s
  let (st, t) := commitAll pre
  if st != stOk then (s, st)
  else
    let flags := imgNat p 2 1
    let budget := imgNat p 4 4
    let t := { t with
      power := { t.power with wearBudget := if budget = 0 then 3600000 else budget }
      mgmt := { t.mgmt with
        mac := if bit flags 1 = 1 then some (BitVec.ofNat 48 (imgNat p 8 6)) else none
        mkey := if bit flags 2 = 1 then some (imgBytes p 16 32) else none }
      boot := { t.boot with stress := bit flags 0 == 1, source := source } }
    (setMeas t 2 digest, stOk)

/-- Status of a refused certificate or image (R397). -/
def bootRefused (s : State) (st : Half) : State := { s with boot := { s.boot with status := st } }

/-- Presents a certificate of `given` bytes, none if the area is absent (R359, R395). -/
def presentCert (s : State) (given : Nat) (bs : List Byte) : State :=
  let st := imageStatus s false given 7 bs
  let (t, st) := if st == stOk then admitOwner s bs else (s, st)
  let t := verified t (if given < headerSize then 0 else imgType bs) st
  if st == stOk || st == stOkNoop then t else bootRefused t st

/-- Presents a configuration image: verified, checked, applied; the answer says whether it was accepted. -/
def presentImage (s : State) (given : Nat) (bs : List Byte) (source : Nat) : State × Bool :=
  let st := imageStatus s false given 1 bs
  let st := if st == stOk then configStatus (imgPayload bs) (imgPayloadLen bs) else st
  let (t, st) := if st == stOk then applyConfig s (imgPayload bs) (imgDigest bs) source else (s, st)
  let t := verified t (if given < headerSize then 0 else imgType bs) st
  if st == stOk then (t, true) else (bootRefused t st, false)

/-- Bytes of the image at flash offset `a`, or of its header only where the area of `size` bytes is too short for it. -/
def flashImage (s : State) (a size : Nat) : Nat × List Byte :=
  let len := flashNat s (a + 8) 8
  if size < headerSize + len then (headerSize, flashRead s a headerSize) else (headerSize + len, flashRead s a (headerSize + len))

/-- One flash source: the certificate area first, then the copy (R395). -/
def flashSource (s : State) (a source : Nat) : State × Bool :=
  let s :=
    if areaPresent s areaCert then let (n, bs) := flashImage s areaCert 0x10000; presentCert s n bs else s
  if areaPresent s a then let (n, bs) := flashImage s a 0x800000; presentImage s n bs source else (s, false)

/-- Copy A, then copy B. -/
def flashSources (s : State) : State × Bool :=
  let (s, ok) := flashSource s areaImageA 1
  if ok then (s, true) else flashSource s areaImageB 2

/-! ## Step 4b: tiers and calibration (R223, R225, R239, R240, R243, R246, R320, R335, R375) -/

/-- A module of the table of R239. -/
def dimmSupported (d : Dimm) : Bool :=
  match d.kind with
  | .mrdimm => decide (32 ≤ d.gib) && decide (d.gib ≤ 128) && d.width == 4
  | .rdimm => decide (16 ≤ d.gib) && decide (d.gib ≤ 128) && (d.width == 4 || d.width == 8)
  | .other => false

/-- The DIMMs of a channel. -/
def dimmsOf (d : DdrChannel) : List Dimm := d.slot0.toList ++ d.slot1.toList

/-- The channel passes rules 1 and 2 of R240, with the modules of R239 alone. -/
def channelSound (d : DdrChannel) : Bool := d.sound && d.slot0.isSome && (dimmsOf d).all dimmSupported

/-- The DDR5 channels in service and left out: channel, state, tiles, whether MRDIMMs (R240). A GiB is 32,768 tiles. -/
def ddrPopulation (s : State) (ddr : List DdrChannel) : List (Nat × Nat × Nat × Bool) :=
  let on := fun (c : Nat) => s.power.ready.getLsbD (if c < 6 then 42 else 43)
  let chans := (List.range 12).filterMap fun c => (ddr[c]?).bind fun d => if on c && !(dimmsOf d).isEmpty then some (c, d) else none
  let ref := (chans.find? fun e => channelSound e.2).bind fun e => e.2.slot0
  chans.map fun e =>
    let ds := dimmsOf e.2
    let fits := channelSound e.2 && ds.all fun d => ref == some d
    (e.1, if fits then 1 else 2, if fits then (ds.map fun d => d.gib * 32768).sum else 0, ds.any fun d => d.kind == .mrdimm)

/-- Takes `n` tiles from a table of free tiles, in rising order of number. -/
def takeReserve : Nat → Tab Nat → Tab Nat
  | _, [] => []
  | n, (k, f) :: t => (k, f - n) :: takeReserve (n - f) t

/-- What a NAND channel's packages report lies in the table of R242. A tile takes two planes (R243). -/
def nandSupported (c : NandChannel) : Bool :=
  c.fitted && c.pageKib == 16 && (List.range 32).any (fun k => c.blockPages == 2 ^ k) && among 2 4 c.planes && among 1 8 c.enables &&
  decide (c.luns.length ≤ 32) && (c.nvDdr3 || c.lpddr4)

/-- The NAND channels in service, by number. DESIGN CHOICE (log 26): R246 has one block size B, so a channel whose blocks differ from those
of the lowest one is left out. -/
def nandPopulation (s : State) (nand : List NandChannel) : List (Nat × NandChannel) :=
  let cs := (List.range 8).filterMap fun c => (nand[c]?).bind fun x =>
    if s.power.ready.getLsbD 44 && nandSupported x then some (c, x) else none
  cs.filter fun c => (cs.head?.map fun x => x.2.blockPages) == some c.2.blockPages

/-- A LUN at power-on: every good block is free, with the erase count its first page holds (R243). -/
def bootLun (planes : Nat) (blocks : List (Nat × Nat)) : Lun :=
  { planes := planes, blocks := blocks.foldl (fun t b => tset t b.1 ({ erase := b.2 } : NandBlock)) [] }

/-- The LUNs of the channels in service, numbered channel × 32 + LUN. -/
def bootLuns (nand : List (Nat × NandChannel)) : Tab Lun :=
  nand.foldl (fun t c => c.2.luns.foldl (fun t l => tset t (c.1 * 32 + l.1 % 32) (bootLun c.2.planes l.2)) t) []

/-- Tiles of an HBM4 stack of 128 GiB (R10, R225). -/
def hbmStackTiles : Nat := 4194304

/-- Counts the tiers and sets T (R225). -/
def countTiers (s : State) (w : BootWorld) : State :=
  let hbm := ((List.range 20).filter fun c => w.hbmTrained.getLsbD c).map fun c => (c, hbmStackTiles)
  let ddr := ddrPopulation s w.ddr
  let ddrOn := ddr.filter fun e => e.2.1 == 1
  let nand := nandPopulation s w.nand
  let luns := bootLuns nand
  let pages := (nand.head?.map fun c => c.2.blockPages).getD 0
  let g := (luns.map fun (l : Nat × Lun) => l.2.blocks.length).sum
  let h := sumTab hbm
  let d := (ddrOn.map fun e => e.2.2.1).sum
  let n := g * pages * (64 - cfld s rMtNandCfg 5 0) / 128
  let rm := (h + d + n + 4095) / 4096 + (n + 8191) / 8192
  let used := if pages = 0 then 0 else (2 * n + pages - 1) / pages
  { s with tiers := { s.tiers with
      total := h - rm + d + n - 4096, hbmTiles := h, ddrTiles := d, nandTiles := n, reserve := rm
      freeHbm := takeReserve rm hbm, freeDdr := ddrOn.map fun e => (e.1, e.2.2.1), freeNand := n
      ddrState := ddr.map fun e => (e.1, e.2.1), mrdimm := ddrOn.any fun e => e.2.2.2
      nandChannels := BitVec.ofNat 8 ((nand.map fun c => 2 ^ c.1).sum), spare := g - used, goodBlocks := g
      luns := luns, blockPages := pages, lpddr4 := nand.all fun c => c.2.lpddr4 } }

/-- The calibrations: coefficients, weights, the requests (30 mV above what the search found, within R322) and slacks. -/
def calibrate (s : State) (w : BootWorld) : State :=
  let s := (List.range 14).foldl (fun s i => rset s (rSqEcoef i) (w.ecoef.getD i 0).toNat) s
  let s := (List.range 8).foldl (fun s i => rset s (rPwWeight i) ((w.weights.getD i 0).toNat % 65536)) s
  let fit := fun (i : Nat) => min (areaTop i) (max (if i = 4 then 700 else 650) (w.vreq.getD i 0 / 5 * 5 + 30))
  let s := { s with power := { s.power with vreq := (List.range 5).map fit, slacks := w.slacks, temps := w.temps } }
  (List.range 5).foldl (fun s i => emit s (.avs i (s.power.vreq.getD i 0))) s

def bootStep4b (s : State) (w : BootWorld) : State :=
  let s := { s with
    boot := { s.boot with phase := 5 }
    power := { s.power with on := wantedDomains s, ready := wantedDomains s
                            worn := decide (s.power.wearBudget * 1000000 ≤ s.power.wear) || s.power.worn } }
  let s := calibrate (countTiers (setEvent s rPwEvent 0) w) w
  let s := (List.range 6).foldl enablePort s
  let mac := if s.sec.idkeys.isSome then some (BitVec.ofNat 48 (2 + (Config.macTail (BitVec.ofNat 40 (identity s))).toNat * 256)) else none
  thermtrip { s with mgmt := { s.mgmt with serving := true, mac := if s.mgmt.mac.isSome then s.mgmt.mac else mac } }

/-! ## Steps 5 and 6 (R345, R398) -/

def bootStep5 (s : State) (w : BootWorld) : State :=
  if s.boot.stress then stressFindings { s with boot := { s.boot with phase := 6 } } w.stressFailing w.stressCool else s

def bootReady (s : State) (w : BootWorld) : State :=
  let s := { s with
    boot := { s.boot with phase := 7 }
    host := { s.host with numVfs := w.numVfs % 256, barPf := w.barSizes.1.val, barVf := w.barSizes.2.val } }
  event s { sev := sevNotice, src := srcReliab, detail := [w.msStep2, w.msStep4a, w.msStep4b, w.msStep5] }

/-- Steps 4b to 6; a thermal trip stops the sequence (R399). -/
def bootConfigured (s : State) (w : BootWorld) : State :=
  let s := bootStep4b s w
  if s.power.thermtrip then s else bootReady (bootStep5 s w) w

/-- Step 4a from the flash and what follows; with no image there, phase 4 waits for a push. -/
def bootConfigure (s : State) (w : BootWorld) : State :=
  let (s, ok) := flashSources (setMeas { s with boot := { s.boot with phase := 4 } } 0 measM0)
  if ok then bootConfigured s w else s

/-- Steps 2 to 6. -/
def bootFrom2 (s : State) (w : BootWorld) (readsWear : Bool) : State :=
  let s := bootStep2 s w
  bootConfigure (bootStep3 (if readsWear then readWear s else s) w) w

/-! ## Reset kinds (R400, R414, R415) -/

/-- What no reset touches: the model's counter of free values, what has left the device, the queue of commands. -/
def coldState (s : State) : State := { State.reset with freeCtr := s.freeCtr, tx := s.tx, pending := s.pending }

/-- The beat unit as the power-up sequence leaves it: UNLOCKED, or ACQUIRING where the configuration has set BT_CTL.ENABLE (R25). -/
def bootBeat (s : State) : State := { s with beat := if rfld s rBtCtl 0 0 = 1 then enterAcquiring {} else {} }

/-- PWR_OK rises (R394): step 1 waits for RESET_N, and stays with MFG_TEST high (R411, R415). -/
def powerOnReset (s : State) (resetN : Bool) (w : BootWorld) : State :=
  let c := coldState s
  let c := { c with
    boot := { c.boot with pwrOk := true, resetN := resetN, flash := flashFrom w.flash 0 flashSize [] } }
  if !resetN then c
  else if w.mfgTest then outOfReset c
  else bootBeat (bootFrom2 c w true)

/-- RESET_N rises with PWR_OK high and the sequence not begun (R415). -/
def resetNRise (s : State) (w : BootWorld) : State :=
  if s.boot.pwrOk && !s.boot.resetN then
    let s := { s with boot := { s.boot with resetN := true } }
    if w.mfgTest then outOfReset s else bootBeat (bootFrom2 s w true)
  else s

/-- The words a warm reset carries: MT_NAND_CFG.OP and the PD42 to PD44 requests, whose commits take effect at it (R246, R318). -/
def carryForReset (old s : State) : State :=
  let op := cfld old rMtNandCfg 5 0
  let dom := cfld old rPwDomainHi 12 10
  let put := fun (s : State) (off hi lo v : Nat) =>
    let w := putBits (regReset off) hi lo v
    { rset s off w with committed := tset s.committed off (BitVec.ofNat 32 w) }
  put (put s rMtNandCfg 5 0 op) rPwDomainHi 12 10 dom

/-- The PUF helper record in a flash. -/
def helperOf (m : Mem) : Mem := m.filter fun (e : Host.Cell) => decide (e.1 < areaCert)

/-- A warm reset: all that power-on clears, but for the wear count, then steps 2 to 6. The PUF array keeps the values of the last power-up,
so with the same helper record it gives the same seed (R394, R400). -/
def warmReset (s : State) (asserted : Bool) (w : BootWorld) : State :=
  let c := coldState s
  let c := if s.power.thermtrip then emit c (.pin pinThermtrip 1) else c
  let c := { carryForReset s c with
    boot := { c.boot with pwrOk := true, resetN := true, flash := if asserted then flashFrom w.flash 0 areaRepair s.boot.flash else s.boot.flash }
    power := { c.power with wear := s.power.wear, wearHours := s.power.wearHours, worn := s.power.worn } }
  let w := if helperOf c.boot.flash = helperOf s.boot.flash then { w with seed := s.sec.seed } else w
  bootBeat (bootFrom2 c w false)

/-- PERST_N before READY holds only the PCI Express port in reset (R399). -/
def perstBeforeReady (s : State) : State :=
  if s.boot.pwrOk && s.boot.phase != 7 then keepBeat s (pcieLink s false 0 0 false) else s

/-- A warm reset by its cause; nothing runs with PWR_OK low, or in step 1. -/
def warmResetBy (s : State) (cause : WarmCause) (w : BootWorld) : State :=
  if !(s.boot.pwrOk && s.boot.resetN) || s.boot.phase == 1 then s
  else if cause == .perst && s.boot.phase != 7 then perstBeforeReady s
  else warmReset s (cause == .resetN) w

/-- Test-Logic-Reset: the instruction register takes IDCODE; after EXTEST, CLAMP or HIGHZ it is a warm reset (R386, R400). -/
def testLogicReset (s : State) (w : BootWorld) : State :=
  let scanned := s.mgmt.scanned
  let s := { s with mgmt := { s.mgmt with tap := .idcode, scanned := false } }
  if scanned then warmResetBy s .testLogicReset w else s

/-- PWR_OK falls: every output is released and nothing runs (R414). -/
def pwrOkFall (s : State) : State :=
  let c := coldState s
  let c := if s.power.thermtrip then emit c (.pin pinThermtrip 1) else c
  { c with boot := { c.boot with resetN := s.boot.resetN, flash := s.boot.flash } }

/-! ## The boot window (R396, R397) -/

def stagingSize : Nat := 0x400000
def stagingImage : Nat := 0x10000

/-- GO: a host push is verified in phase 4, once the flash has yielded no image. A thermal trip has stopped the sequence (R399). -/
def go (s : State) (w : BootWorld) : State :=
  if s.boot.phase != 4 || s.power.thermtrip then s
  else
    let at_ := fun (a n : Nat) => mread s.boot.staging a n
    let cert := leNat (at_ 0 4) == 0x49504C54 && leNat (at_ 4 1) == 7
    let len := leNat (at_ (stagingImage + 8) 8)
    if stagingSize < stagingImage + headerSize + len then
      keepBeat s (bootRefused (verified s (leNat (at_ (stagingImage + 4) 1)) stBadLength) stBadLength)
    else
      let clen := leNat (at_ 8 8)
      let t :=
        if !cert then s
        else if stagingImage < headerSize + clen then presentCert s headerSize (at_ 0 headerSize)
        else presentCert s (headerSize + clen) (at_ 0 (headerSize + clen))
      let (t, ok) := presentImage t (headerSize + len) (at_ stagingImage (headerSize + len)) 3
      if ok then bootBeat (bootConfigured t w) else keepBeat s t

/-- The boot status line (R397). -/
def statusLine (s : State) : List Byte :=
  leBytes 4 s.boot.phase ++ leBytes 2 s.boot.status.toNat ++ leBytes 2 s.boot.source ++ leBytes 4 0 ++
  leBytes 4 (viewReg s rRlHealth) ++ leBytes 8 (identity s) ++ leBytes 40 0

/-- The byte the boot window shows at a BAR2 offset. -/
def bootByte (s : State) (a : Nat) : Byte :=
  if a < stagingSize then mget s.boot.staging a
  else if a < stagingSize + 64 then (statusLine s).getD (a - stagingSize) 0
  else 0

/-- Bytes written through the boot window: the staging area takes them, all else is dropped; GO is a command of its own. -/
def bootWrite (s : State) (a : Nat) (bs : List Byte) : State :=
  { s with boot := { s.boot with staging := mwrite s.boot.staging a (bs.take (stagingSize - a)) } }

end Sys2Proof.Machine
end

