-- ==== Sys2Proof/Machine/Beat.lean ====
section
/-!
DEFINITION. The beat unit (spec/02_beat_time.md): edges (R19), markers (R23, R271), the lock states (R25, R434) and entry to LOST (R26).
-/

namespace Sys2Proof.Machine

/-- The largest beat number (R24). -/
def maxBeat : Nat := 2 ^ 48 - 1
/-- Half-width of the acceptance window in ns (R19). -/
def windowNs (s : State) : Nat := cfld s rBtCfg 15 8 * 10
/-- This device is the beat-number source (R23). -/
def isSource (s : State) : Bool := cfld s rBtCfg 16 16 == 1
/-- The source's first count. -/
def seedOf (s : State) : Nat := cbase s rBtSeedLo rBtSeedHi

/-- A stray edge (R19). -/
def strayEdge (s : State) : State := setEvent (satAdd s rBtErrCount 15 0 1) rBtEvent 3

/-- An accepted edge: BT_EDGE_ERR reports its offset. -/
def acceptEdge (s : State) (offset : Int) : State := rset s rBtEdgeErr (ofInt 16 offset)

/-- The status that goes with a cause of LOST (R434). -/
def lostStatus : LostCause → Half
  | .mismatch => stBeatMismatch
  | _ => stBeatLost

/-- Every context of the job is aborted and every held command completes with the cause's status (R26). -/
def loseJob (s : State) (st : Half) : State :=
  let s := s.sched.ctxs.foldl (fun (s : State) (e : Nat × Ctx) => if e.2.state == .aborted then s else makeAbort s e.1 st) s
  let s := { s with sched := { s.sched with steps := [], blocks := [], migs := [] } }
  event (setEvent (dropHeld s st) rBtEvent 2) { sev := sevError, src := srcBeat, status := st }

/-- Entry to LOST (R25, R26): the count is zero from here on. -/
def enterLost (s : State) (c : LostCause) : State :=
  let s := { s with beat := { s.beat with
    state := .lost, cause := c, run := 0, phased := false, good := 0, count := 0, mismatch := 0, markers := [], refPort := 15
    acqMarker := none, acqEdges := 0, fresh := false, leaving := none } }
  keepBeat s (loseJob s (lostStatus c))

/-- ACQUIRING to LOCKED at an accepted edge, with the count the next boundary starts (R25). A count past the last beat number stands at
the last, so that the next boundary overflows (R24): the table has no transition from ACQUIRING to LOST. -/
def lockAt (s : State) (count : Nat) : State :=
  let s := rset { s with beat := { s.beat with
    state := .locked, cause := .none, run := 0, phased := false, held := 0, good := 0, accepted := true, count := min count maxBeat
    mismatch := 0, markers := [], refPort := 15, acqMarker := none, acqEdges := 0, fresh := decide (count ≤ maxBeat)
    leaving := none } } rBtErrCount 0
  setEvent s rBtEvent 1

/-- An edge in ACQUIRING: the first sets the phase; sixteen in a row, and a marker at a device that is not the source, let the next one
lock (R25). -/
def edgeAcquiring (s : State) (offset : Int) : State :=
  let b := s.beat
  if !b.phased then acceptEdge { s with beat := { b with phased := true, acqEdges := b.acqEdges + b2n b.acqMarker.isSome } } 0
  else if windowNs s < offset.natAbs then strayEdge { s with beat := { b with run := 0 } }
  else
    let s := acceptEdge s offset
    if b.run = 16 && isSource s then lockAt s (seedOf s)
    else
      match b.acqMarker with
      | some m =>
        if b.run = 16 then lockAt s (m.2 + b.acqEdges)
        else { s with beat := { b with run := min 16 (b.run + 1), acqEdges := b.acqEdges + 1 } }
      | none => { s with beat := { b with run := min 16 (b.run + 1) } }

/-- BEAT_EDGE: an edge at `offset` ns from the expected instant of the next boundary (R19). The pins carry none to the unit while boundary
scan owns them (R386). -/
def beatEdge (s : State) (offset : Int) : State :=
  if scanOwnsPins s then s
  else
  match s.beat.state with
  | .unlocked => s
  | .acquiring => edgeAcquiring s offset
  | _ =>
    if decide (windowNs s < offset.natAbs) || s.beat.accepted then strayEdge s
    else acceptEdge { s with beat := { s.beat with accepted := true } } offset

/-- ACQUIRE_EDGE_TIMEOUT (R25). -/
def edgeTimeout (s : State) : State :=
  if s.beat.state == .acquiring then { s with beat := { s.beat with run := 0 } } else s

/-- The beat that the next boundary starts. -/
def nextBeat (s : State) : Nat := if s.beat.fresh then s.beat.count else s.beat.count + 1

/-- A marker in ACQUIRING: of those between the same two edges the lowest port's stands (R25). -/
def markerAcquiring (s : State) (p v : Nat) : State :=
  let keep := match s.beat.acqMarker with
    | some m => s.beat.acqEdges == 0 && decide (m.1 < p)
    | none => false
  if keep then s else { s with beat := { s.beat with acqMarker := some (p, v), acqEdges := 0 } }

/-- MARKER: compared with the count, and kept for the choice of the reference port (R23, R271). -/
def marker (s : State) (p v : Nat) (hchkOk : Bool) : State :=
  if (portGet s p).state != .up then s
  else if !hchkOk then discardHchk s
  else if v = 0 then s
  else
    match s.beat.state with
    | .acquiring => markerAcquiring s p v
    | .locked | .holdover =>
      let s := if v = nextBeat s then s else setEvent (satAdd s rBtErrCount 31 16 1) rBtEvent 4
      if (tget s.beat.markers p).isSome then s else { s with beat := { s.beat with markers := tset s.beat.markers p v } }
    | _ => s

/-! ## Lock states at a boundary (R23–R25, R434) -/

/-- The reference port of the beat that ends, and its marker: the lowest port that is UP and has delivered one. -/
def refMarker (s : State) : Option (Nat × Nat) := s.beat.markers.find? fun e => (portGet s e.1).state == .up

/-- The run of reference-port mismatches as the beat that ends leaves it. -/
def mismatchRun (s : State) : Nat :=
  if isSource s then 0
  else
    match refMarker s with
    | none => s.beat.mismatch
    | some m => if m.2 = nextBeat s then 0 else s.beat.mismatch + 1

/-- The causes that take the unit to LOST at this boundary, the recorded one first (R434). -/
def lostCause (s : State) : Option LostCause :=
  if maxBeat < nextBeat s then some .overflow
  else if 3 ≤ mismatchRun s then some .mismatch
  else if s.beat.state == .holdover && !s.beat.accepted && decide (256 ≤ s.beat.held) then some .noEdges
  else none

/-- LOCKED and HOLDOVER as the edges of the beat that ends leave them. -/
def heldLogic (s : State) : State :=
  let b := s.beat
  match b.state with
  | .locked =>
    if b.accepted then s
    else setEvent { s with beat := { b with state := .holdover, held := 1, good := 0 } } rBtEvent 0
  | .holdover =>
    if !b.accepted then { s with beat := { b with held := b.held + 1, good := 0 } }
    else if b.good < 3 then { s with beat := { b with good := b.good + 1 } }
    else setEvent { s with beat := { b with state := .locked, cause := .none, held := 0, good := 0, mismatch := 0 } } rBtEvent 1
  | _ => s

/-- A boundary of LOCKED or HOLDOVER that starts the next beat. -/
def startBeat (s : State) : State :=
  let b := nextBeat s
  let run := mismatchRun s
  let ref := if isSource s then 15 else ((refMarker s).map (·.1)).getD 15
  let s := { s with beat := { s.beat with mismatch := run } }
  let s := heldLogic s
  { s with beat := { s.beat with count := b, markers := [], refPort := ref, fresh := false, accepted := false } }

/-- Step 1 of R28, the count and the transition. A boundary at which the unit leaves by software starts no beat. DESIGN CHOICE: where a
leave by software (ENABLE = 0, or a new PERIOD) waits and a cause of LOST comes up at the same boundary, the leave is taken and LOST is
not entered; R25 and R434 give no order between the two (log entry 30). -/
def lockBoundary (s : State) : State :=
  let s := { s with beat := { s.beat with periods := s.beat.periods + 1 } }
  match s.beat.leaving, s.beat.state with
  | some acquire, .locked | some acquire, .holdover =>
    { s with beat := if acquire then enterAcquiring s.beat else enterUnlocked s.beat }
  | some false, .lost => { s with beat := enterUnlocked s.beat }
  | _, .locked | _, .holdover =>
    match lostCause s with
    | some c => let s := enterLost s c; { s with beat := { s.beat with accepted := false } }
    | none => startBeat s
  | _, .lost => { s with beat := { s.beat with accepted := false, leaving := none } }
  | _, _ => s

/-- The markers of the beat that has begun, on every port that is UP (R23); no beat follows the last. -/
def sendMarkers (s : State) : State :=
  if hasBeat s && decide (now s < maxBeat) then
    ((List.range 6).filter fun p => (portGet s p).state == .up).foldl (fun s p => sendMarker s p (now s + 1)) s
  else s

end Sys2Proof.Machine
end

