-- ==== Sys2Proof/Machine/Boundary.lean ====
section
/-!
DEFINITION. The beat boundary (R28): the steps of R28 in their order, each made of what the blocks do at a boundary; the boundaries
without a beat number (R435).
-/

namespace Sys2Proof.Machine

/-! ## Step 1 -/

/-- The accounting counters are published (R222). -/
def publish (s : State) : State := { s with sched := { s.sched with acctPub := s.sched.acct, pubBeat := now s } }

/-- What takes effect in step 1 beside the count: slots, scores, domains, caps, routes, demotion. -/
def stepOne (s : State) : State :=
  let s := bankBoundary (grammarBoundary (codebookBoundary (publish s)))
  autoDemote (ddrBoundary (routeBoundary (powerBoundary (healthTests (decayScore s)))))

/-! ## Step 2 (R34, R35) -/

/-- A miss found in step 2: kind, client, deadline beat, status. -/
structure Miss where
  kind : Nat
  client : Nat
  beat : Nat
  status : Half
  deriving DecidableEq, Repr

/-- The deadline beat has come. -/
def dueNow (s : State) (d : Nat) : Bool := d != 0 && decide (d ≤ now s)

/-- The command is an OP_SEND: its miss is of kind 5 (R288). -/
def isSend (c : Cmd) : Bool := match c.op with | .send _ => true | _ => false

/-- Commands in progress whose deadline beat has come and has not been noted. -/
def dueCmds (s : State) : List Cmd := s.host.cmds.filter fun c => dueNow s c.hdr.deadline.toNat && !c.late

/-- Kind 0: commands without a reply, also those whose reply will be discarded; not OP_SEND. -/
def lateCmds (s : State) : List Cmd := (dueCmds s).filter fun c => !isSend c

/-- Kind 1: generation steps whose VERIFY result has not been released (R192); a step that recomputes logged positions has none (R165). -/
def lateSteps (s : State) : List Step :=
  s.sched.steps.filter fun x => x.gen && !x.recompute && x.deadline == now s && (x.accepted.isNone || x.fellBack)

/-- Kind 2: stages that have not ended: the stage of a layer is the item, whatever keeps it (R121, R134). -/
def lateStages (s : State) : List Stage := s.cache.stages.filter fun st => st.due == now s && !st.items.isEmpty

/-- Kinds 3 and 6: migration entries with a tile that does not lie in DEST; a ZERO tile lies in no tier (R226, R236). -/
def lateMigs (s : State) : List MigEntry :=
  s.sched.migs.filter fun m => m.due == now s && (List.range m.count).any fun i =>
    (tileGet s (m.first + i)).map (fun x => tierOf x.place) != some m.dest

/-- Kind 4: collectives (R127). -/
def lateColls (s : State) : List Coll := s.cache.colls.filter fun c => c.due == now s

/-- Kind 5: send transfers and forager transfers (R143, R288, R290). -/
def lateSends (s : State) : List SendTx := s.remote.sends.filter fun t => dueNow s t.deadline

/-- Kind 5: OP_SEND commands that have no transfer yet, behind a FENCE. -/
def lateUnsent (s : State) : List Cmd := (dueCmds s).filter fun c => isSend c && !s.remote.sends.any fun t => t.cmd == c.id

/-- Every miss at this boundary, by kind, then client. -/
def misses (s : State) : List Miss :=
  let step := fun (x : Step) => if x.fellBack || x.tilde.isSome then stOkDegraded else stDeadlineMissed
  let clientOf := fun (h : DWord) => ((descOf s h).map fun d => d.client).getD 0
  let all : List Miss :=
    (lateCmds s).map (fun c => { kind := 0, client := c.hdr.fn.val, beat := c.hdr.deadline.toNat, status := stDeadlineMissed }) ++
    (lateSteps s).map (fun x => { kind := 1, client := ctxClient s x.ctx, beat := now s, status := step x }) ++
    (lateStages s).map (fun x => { kind := 2, client := clientOf x.handle, beat := now s, status := stOkDegraded }) ++
    (lateMigs s).map (fun m => { kind := if m.consumer = 1 then 3 else 6, client := ctxClient s m.ctx, beat := now s
                                 status := if m.consumer = 1 then stOkDegraded else stOk }) ++
    (lateColls s).map (fun c => { kind := 4, client := ctxClient s c.ctx, beat := now s, status := stDeadlineMissed }) ++
    (lateSends s).map (fun t => { kind := 5, client := t.fn, beat := t.deadline, status := stDeadlineMissed }) ++
    (lateUnsent s).map (fun c => { kind := 5, client := c.hdr.fn.val, beat := c.hdr.deadline.toNat, status := stDeadlineMissed }) ++
    ((lateMsgs s).filterMap msgHead).map (fun h => { kind := 5, client := 0, beat := h.1.deadline.toNat, status := stDeadlineMissed }) ++
    (lateBlocks s).map fun b => { kind := 7, client := ctxClient s b.ctx, beat := now s, status := stDeadlineMissed }
  sortBy (fun m => m.kind * 256 + m.client) all

/-- Misses are counted and logged; a late command is marked, the context of a late block is to be aborted. -/
def noteMisses (s : State) : State :=
  let cmds := (lateCmds s).map fun c => c.id
  let blocks := lateBlocks s
  let s := (misses s).foldl (fun s m => missDeadline s m.kind m.client m.beat m.status) s
  let s := { s with host := { s.host with cmds := s.host.cmds.map fun c => if cmds.contains c.id then { c with late := true } else c } }
  blocks.foldl (fun s b => abortCtx s b.ctx stDeadlineMissed) s

/-- What step 6 acts on. -/
structure Late where
  steps : List DWord
  stages : List Stage
  weights : List Nat
  colls : List Coll
  /-- Tags of transfers, and OP_SEND commands that have none. -/
  sends : List Nat
  unsent : List Nat
  /-- Messages held here. -/
  msgs : List Instr
  deriving DecidableEq, Repr

def lateOf (s : State) : Late :=
  { steps := (lateSteps s).map fun x => x.handle, stages := lateStages s
    weights := ((lateMigs s).filter fun m => m.consumer == 1).map fun m => m.ctx, colls := lateColls s
    sends := (lateSends s).map fun t => t.tag, unsent := (lateUnsent s).map fun c => c.id, msgs := lateMsgs s }

/-! ## Step 5 (R31, R405, R218, R219) -/

/-- The idle test beat of the offset: at most one cell is tested in a beat (R342). -/
def idleTest (s : State) (kat : KatEnd) (entries : List FrameEntry) : State :=
  let busy := entries.flatMap fun e => match e.kind with
    | .block _ ws _ _ => ws.map (·.1)
    | _ => []
  match entries.findSome? fun e => match e.kind with | .idle cells => some cells | _ => none with
  | some cells => katEntry s busy cells kat
  | none => s

/-- Starts what the frame offset holds. -/
def startEntries (s : State) (kat : KatEnd) : State :=
  match jobOrigin s, s.sched.image with
  | some j0, some (im, _) =>
    if now s < j0 then s
    else
      let off := frameOffset s
      let s := spanBoundary (changeLevel (evaluateSplit s) off)
      let es := entriesAt s off
      let s := es.foldl (fun s e => startEntry s im.frame e) s
      let s := idleTest s kat es
      prefetchSteps (stepOffsets s) off
  | _, _ => spanBoundary s

/-! ## Step 6 (R34, R133, R193, R194) -/

/-- A late stage takes summaries, and its step's tokens are degraded. -/
def stageLate (s : State) (st : Stage) : State :=
  let (s, any) := summarise s st
  if any then stepMod s st.handle fun x => { x with degraded := true } else s

/-- A late collective's destination is poisoned, and it is given up; its context gets ST_DEADLINE_MISSED (R34 kind 4). -/
def collLate (s : State) (c : Coll) : State :=
  let s := { s with cache := { s.cache with colls := s.cache.colls.filter fun x => x.id != c.id } }
  let s := collStatus s c.ctx stDeadlineMissed
  match winOfCtx s c.dst.cell c.ctx with
  | some w => poisonCell s c.dst.cell (w.base + c.dst.addr) (4 * c.dst.len)
  | none => s

/-- Running generation steps that a late weight migration of a context's residency slot holds up. -/
def weightSteps (s : State) (ctxs : List Nat) : List DWord :=
  (s.sched.steps.filter fun x => x.gen && ctxs.any fun c => c == x.ctx || c == 0xFFFF).map fun x => x.handle

/-- A late transfer is given up at the sender; a forager's is reported to the forager (R34 kind 5). -/
def sendGivenUp (s : State) (tag : Nat) : State :=
  match s.remote.sends.find? fun t => t.tag == tag with
  | some t => if t.forager then settleForager s t stDeadlineMissed else abandonSend s t
  | none => s

def lateActions (s : State) (late : Late) : State :=
  let s := late.steps.foldl (fun s h => takeFallback s h true) s
  let s := late.stages.foldl stageLate s
  let s := (weightSteps s late.weights).foldl (fun s h => takeFallback s h false) s
  let s := late.colls.foldl collLate s
  let s := late.unsent.foldl (fun s c => refuseCmd s c stDeadlineMissed) (late.sends.foldl sendGivenUp s)
  late.msgs.foldl refuseLate s

/-! ## The boundary -/

/-- What every boundary does after its steps: spill, page pins, per-beat lane counts, the age of queue heads. -/
def afterSteps (s : State) : State :=
  let s := { s with sched := { s.sched with migs := s.sched.migs.filter fun m => !hasBeat s || decide (now s < m.due) } }
  settle (ageHeads (laneBoundary (answerPins (spillPages s))))

/-- A boundary that starts a beat. -/
def timedBoundary (s : State) (kat : KatEnd) : State :=
  let s := stepOne (sendMarkers s)
  let late := lateOf s
  let s := foragerBoundary (remoteBoundary (noteMisses s))
  let s := dropEndedBlocks (residency (stopBoundary (flrBoundary (makeAborts s))))
  let s := releaseMsgs (releaseHeld s)
  let s := startEntries (startDue s) kat
  afterSteps (lateActions s late)

/-- A boundary without a beat number: only the work that needs none (R435). -/
def untimedBoundary (s : State) : State :=
  let s := foragerBoundary (remoteBoundary (stepOne s))
  afterSteps (spanBoundary (stopBoundary (flrBoundary (makeAborts s))))

/-- BEAT_BOUNDARY. -/
def beatBoundary (s : State) (kat : KatEnd) : State :=
  if s.boot.phase != 7 then s
  else
    let s := lockBoundary s
    if hasBeat s then keepBeat s (timedBoundary s kat)
    else
      let t := keepBeat s (untimedBoundary s)
      if jobStarted s && !jobStarted t then leaveLost t else t

/-! ## Meanings -/

/-- BEAT_EDGE (R19). -/
def execBeatEdge (offset : Int) (s : State) : Host.Outcome State Fault Refusal := .next (keepQueue s (beatEdge s offset))
/-- ACQUIRE_EDGE_TIMEOUT (R25). -/
def execAcquireEdgeTimeout (s : State) : Host.Outcome State Fault Refusal := .next (keepQueue s (edgeTimeout s))
/-- BEAT_BOUNDARY (R28). -/
def execBeatBoundary (kat : KatEnd) (s : State) : Host.Outcome State Fault Refusal := .next (keepQueue s (beatBoundary s kat))
/-- HOLDOVER_EXPIRY (R25): the boundary at which the held count is spent; no such event while it is not. -/
def execHoldoverExpiry (kat : KatEnd) (s : State) : Host.Outcome State Fault Refusal :=
  .next (keepQueue s (if s.beat.state == .holdover && decide (256 ≤ s.beat.held) && !s.beat.accepted then beatBoundary s kat else s))
/-- BEAT_COUNT_OVERFLOW (R24): the boundary that would pass the last beat number; no such event before. -/
def execBeatCountOverflow (kat : KatEnd) (s : State) : Host.Outcome State Fault Refusal :=
  .next (keepQueue s (if hasBeat s && decide (maxBeat < nextBeat s) then beatBoundary s kat else s))
/-- MARKER (R23, R271). -/
def execMarker (p : PortId) (v : BeatField) (hchkOk : Bool) (s : State) : Host.Outcome State Fault Refusal :=
  .next (keepQueue s (marker s p.val v.toNat hchkOk))
/-- SPLIT_EVALUATION (R218): the boundary does it; nothing is left to do once it has been done at this beat. -/
def execSplitEvaluation (s : State) : Host.Outcome State Fault Refusal := .next (quiet s (evaluateSplit s))

end Sys2Proof.Machine
end

