-- ==== Sys2Proof/Machine/DeviceRows.lean ====
section
/-!
DEFINITION. The meanings of the remaining commands of the device's blocks: codebooks, stages and collectives, the lens, swaps, the tiers
and BAR2, verifications, power, reliability, and the resets; each one call of the operation its block's file gives it.
-/

namespace Sys2Proof.Machine

/-! ## Attention cache and prism -/

/-- The next slot of a stage's ring on a cell, where the stage has one left for it (R122). -/
def fillNextSlot (s : State) (h : DWord) (layer c : Nat) (found : Findings) : State :=
  match s.cache.stages.find? (fun (x : Stage) => x.handle == h && x.layer == layer), descOf s h, stepOf s h with
  | some st, some d, some x =>
    match descLayout s d with
    | some l => tryEndStep (fillSlotOf s l st x.ctx x.e c found) h
    | none => s
  | _, _, _ => s

/-- CODEBOOK_COPY_COMPLETE (R94). -/
def execCodebookCopyComplete (n : Nat) (s : State) : Host.Outcome State Fault Refusal := .next (quiet s (settle (codebookCopied s n)))
/-- STAGE_SLOT_FILL (R122). -/
def execStageSlotFill (handle : DWord) (layer : Nat) (f : StageFill) (s : State) : Host.Outcome State Fault Refusal :=
  .next (quiet s (settle (fillNextSlot s handle layer f.cell.val f.found)))
/-- COLLECTIVE_COMPLETE (R127). -/
def execCollectiveComplete (n : Nat) (inputs : List (List Word)) (s : State) : Host.Outcome State Fault Refusal :=
  .next (quiet s (completeColl s n inputs))

/-! ## The lens -/

/-- LENS_REQUEST (R173). -/
def execLensRequest (c : CellId) (n : Nat) (ecc : Ecc) (s : State) : Host.Outcome State Fault Refusal :=
  .next (quiet s (lensRequest s c.val n ecc))
/-- DRAFT (R178). -/
def execDraft (m : LensMeets) (s : State) : Host.Outcome State Fault Refusal := .next (quiet s (settle (serveDraft s m)))
/-- VERIFY (R179). -/
def execVerify (m : LensMeets) (s : State) : Host.Outcome State Fault Refusal := .next (quiet s (settle (serveVerify s m)))
/-- FIRST (R173). -/
def execFirst (m : LensMeets) (s : State) : Host.Outcome State Fault Refusal := .next (quiet s (settle (serveFirst s m)))
/-- GRAMMAR_COPY_COMPLETE (R185). -/
def execGrammarCopyComplete (slot : Fin 8) (s : State) : Host.Outcome State Fault Refusal :=
  .next (quiet s (settle (grammarCopied s slot.val)))
/-- BANK_SEARCHABLE (R189). -/
def execBankSearchable (bank : Fin 64) (s : State) : Host.Outcome State Fault Refusal := .next (quiet s (bankSearchable s bank.val))
/-- SHADOW_SWEEP (R190). -/
def execShadowSweep (upsets : List (Fin 64 × Fin 32768)) (s : State) : Host.Outcome State Fault Refusal :=
  .next (quiet s (shadowSweep s upsets))

/-! ## Swaps -/

/-- SWAP_DRAIN_COMPLETE (R209). -/
def execSwapDrainComplete (ctx : Nat) (s : State) : Host.Outcome State Fault Refusal := .next (quiet s (swapDrained s ctx))
/-- SWAP_SAVE_COMPLETE (R209). -/
def execSwapSaveComplete (ctx : Nat) (s : State) : Host.Outcome State Fault Refusal := .next (quiet s (swapSaved s ctx))
/-- SWAP_RESTORE_COMPLETE (R210). -/
def execSwapRestoreComplete (e : RestoreEnd) (s : State) : Host.Outcome State Fault Refusal := .next (quiet s (swapRestored s e.ctx e.found))

/-! ## Tiers and the BAR2 window -/

/-- BAR2 of PF0 is the boot window: until READY, and on to PF0's first write to BAR0 (R396). -/
def bootWindow (s : State) (f : Nat) : Bool := f == 0 && (s.boot.phase != 7 || s.boot.window)

/-- Range offset of a BAR2 window offset (R229). -/
def windowAt (s : State) (f off : Nat) : Nat := cbase s (rMtWinLo f) (rMtWinHi f) + off

/-- Bytes of a function's BAR2 (R229). An access beyond them is not one of the function's. -/
def barSize (s : State) (f : Nat) : Nat := 2 ^ (34 + if f = 0 then s.host.barPf else s.host.barVf)

/-- The refusals of R229. -/
def bar2Refused (s : State) (f a n : Nat) : Bool := !inRange s a n || !fnMay s f a n || protectedRange s a n

/-- A refusal is flagged and logged (R229, R315). -/
def noteBar2 (s : State) (f : Nat) : State := aerLog (setEvent s rMtEvent 4) f aerUnsupported

/-- Charges exactly the bytes of [a, a+n), line by line (R221). -/
def chargeBytes (s : State) (f a n : Nat) (wr : Bool) : State :=
  (linesOf a n).foldl (fun s l =>
    let lo := max a (l * 64)
    chargeAccess s f lo (min (a + n) (l * 64 + 64) - lo) wr) s

/-- A write through BAR2: staged in the boot window, dropped where R229 or a seal refuses it, else placed (R229, R360, R396). -/
def bar2Put (s : State) (f off : Nat) (bs : List Byte) : State :=
  if barSize s f < off + bs.length then s
  else if bootWindow s f then bootWrite s off bs
  else if s.boot.phase != 7 || !fnEnabled s f then s
  else
    let a := windowAt s f off
    if bar2Refused s f a bs.length then noteBar2 s f
    else if sealedRange s a bs.length then sealRefused (noteBar2 s f)
    else chargeBytes (rangeWrite s a bs).1 f a bs.length true

/-- A read through BAR2: Unsupported Request where R229 refuses it; poisoned data is marked so (R229, R396). -/
def bar2Get (s : State) (f off n : Nat) (found : Findings) : State :=
  if barSize s f < off + n then s
  else if bootWindow s f then emit s (.completion 0 ((List.range n).map fun i => bootByte s (off + i)) false)
  else if !fnEnabled s f then s
  else if s.boot.phase != 7 then emit s (.completion f (List.replicate n 0) false)
  else
    let a := windowAt s f off
    if bar2Refused s f a n then emit (noteBar2 s f) (.unsupported f)
    else
      let s := memoryFindings s a n found
      emit (chargeBytes (touchRange s a n) f a n false) (.completion f (rangeRead s a n) (rangePoisoned s a n))

/-- The patrol scrubber met errors on lines backed by HBM or DDR5 (R238, R241). -/
def scrubLines (s : State) (found : List (Nat × Ecc)) : State :=
  found.foldl (fun s f =>
    match tileGet s (f.1 / 512) with
    | some x => if tierOf x.place < 2 then memoryEcc s f.1 f.2 else s
    | none => s) s

/-- A channel that lost training or passed 16 uncorrectable lines in a beat fails (R241). -/
def channelFails (s : State) (c : Nat) (lost : Bool) : State :=
  if lost || decide (16 < tgetD s.tiers.ddrLines c 0) then failChannel s c else s

/-- TILE_MOVE_START (R232). -/
def execTileMoveStart (s : State) : Host.Outcome State Fault Refusal := .next (quiet s (settle (startMove s)))
/-- TILE_MOVE_SWITCH (R232). -/
def execTileMoveSwitch (tile : Nat) (found : Findings) (s : State) : Host.Outcome State Fault Refusal :=
  .next (quiet s (settle (answerPins (switchMove s tile found))))
/-- BAR2_WRITE (R229). -/
def execBar2Write (fn : FnId) (off : BitVec 38) (bytes : List Byte) (s : State) : Host.Outcome State Fault Refusal :=
  .next (quiet s (bar2Put s fn.val off.toNat bytes))
/-- BAR2_READ (R229). -/
def execBar2Read (fn : FnId) (off : BitVec 38) (r : Bar2Span) (s : State) : Host.Outcome State Fault Refusal :=
  .next (quiet s (bar2Get s fn.val off.toNat r.len r.found))
/-- MEMORY_PATROL_SCRUB (R238). -/
def execMemoryPatrolScrub (found : List (Nat × Ecc)) (s : State) : Host.Outcome State Fault Refusal := .next (quiet s (scrubLines s found))
/-- HBM_STACK_FAIL (R238). -/
def execHbmStackFail (stack : Fin 20) (s : State) : Host.Outcome State Fault Refusal := .next (quiet s (failStack s stack.val))
/-- DDR_CHANNEL_FAIL (R241): the lines found uncorrectable count for their channel, and it fails above 16 in a beat or on lost training. -/
def execDdrChannelFail (ch : Fin 12) (lostTraining : Bool) (found : List (Nat × Ecc)) (s : State) : Host.Outcome State Fault Refusal :=
  .next (quiet s (channelFails (scrubLines s found) ch.val lostTraining))
/-- NAND_GARBAGE_COLLECT (R243). -/
def execNandGarbageCollect (lun : Nat) (s : State) : Host.Outcome State Fault Refusal := .next (quiet s (garbageCollect s lun))
/-- NAND_RELOCATE (R244). -/
def execNandRelocate (lun block : Nat) (cause : RelocCause) (s : State) : Host.Outcome State Fault Refusal :=
  .next (quiet s (relocateBlock s lun block cause))
/-- NAND_PROGRAM_FAIL (R245). -/
def execNandProgramFail (lun block : Nat) (s : State) : Host.Outcome State Fault Refusal := .next (quiet s (retireBlock s lun block))
/-- NAND_LUN_FAIL (R245). -/
def execNandLunFail (lun : Nat) (s : State) : Host.Outcome State Fault Refusal := .next (quiet s (failLun s lun))

/-! ## Images, grants, randomness -/

/-- IMAGE_VERIFY_COMPLETE (R357). -/
def execImageVerifyComplete (n : Nat) (c : ImageFound) (s : State) : Host.Outcome State Fault Refusal :=
  .next (quiet s (settle (imageVerified s n c.content c.found)))
/-- GRANT_VERIFY_COMPLETE (R371). -/
def execGrantVerifyComplete (s : State) : Host.Outcome State Fault Refusal := .next (quiet s (grantDone s))
/-- RNG_FAIL (R364). -/
def execRngFail (s : State) : Host.Outcome State Fault Refusal := .next (quiet s (rngFails s))

/-! ## Power -/

/-- The wear count has reached the budget (R333). -/
def wearSpent (s : State) : Bool := decide (s.power.wearBudget * 1000000 ≤ s.power.wear)

/-- HOLD_ROTATION (R327). -/
def execHoldRotation (aboveCap : Bool) (unmet : Bool) (s : State) : Host.Outcome State Fault Refusal :=
  .next (quiet s (holdRotation s aboveCap unmet))
/-- DOMAIN_CLOSURE (R320). -/
def execDomainClosure (s : State) : Host.Outcome State Fault Refusal := .next (quiet s (closeDomain s))
/-- DOMAIN_READY (R320). -/
def execDomainReady (pd : Fin 50) (s : State) : Host.Outcome State Fault Refusal := .next (quiet s (groupReady s pd.val))
/-- RAIL_READ (R323). -/
def execRailRead (readings : List RailReading) (k : Nat) (s : State) : Host.Outcome State Fault Refusal :=
  .next (quiet s (railRead s readings k))
/-- ALLOC_LAPSE (R330). -/
def execAllocLapse (s : State) : Host.Outcome State Fault Refusal := .next (quiet s (allocLapse s))
/-- SENSOR_READ (R332). -/
def execSensorRead (temps : List Int) (s : State) : Host.Outcome State Fault Refusal := .next (quiet s (sensorRead s temps))
/-- THERMAL_CAP_STEP (R332). -/
def execThermalCapStep (s : State) : Host.Outcome State Fault Refusal := .next (quiet s (thermalStep s))
/-- WEAR_LOG_APPEND (R333). -/
def execWearLogAppend (hours : Nat) (s : State) : Host.Outcome State Fault Refusal := .next (quiet s (wearLogAppend s hours))
/-- WEAR_OUT (R333). -/
def execWearOut (s : State) : Host.Outcome State Fault Refusal := .next (quiet s (if wearSpent s then wearOut s else s))
/-- MARGIN_TRIM (R335). -/
def execMarginTrim (slacks : List Nat) (s : State) : Host.Outcome State Fault Refusal := .next (quiet s (marginTrim s slacks))

/-! ## Reliability -/

/-- HEALTH_DECAY (R346). -/
def execHealthDecay (s : State) : Host.Outcome State Fault Refusal := .next (quiet s (decayScore s))
/-- SOFT_REQUEST_RESEND (R347). -/
def execSoftRequestResend (s : State) : Host.Outcome State Fault Refusal := .next (quiet s (resendSoft s))
/-- COALESCE_WINDOW_CLOSE (R351). -/
def execCoalesceWindowClose (source : Byte) (s : State) : Host.Outcome State Fault Refusal := .next (quiet s (closeWindow s source.toNat))
/-- STRESS_TEST_END (R345). -/
def execStressTestEnd (failing : List CellId) (cool : Bool) (s : State) : Host.Outcome State Fault Refusal :=
  .next (quiet s (settle (stressEnds s failing cool)))
/-- SELF_TEST_KAT_END (R344). -/
def execSelfTestKatEnd (failing transient : List CellId) (s : State) : Host.Outcome State Fault Refusal :=
  .next (quiet s (settle (katPassEnds s failing transient)))

/-! ## Start-up and resets -/

/-- TEST_LOGIC_RESET (R386). -/
def execTestLogicReset (w : BootWorld) (s : State) : Host.Outcome State Fault Refusal := .next (keepQueue s (testLogicReset s w))
/-- POWER_ON_RESET (R394). -/
def execPowerOnReset (resetN : Bool) (w : BootWorld) (s : State) : Host.Outcome State Fault Refusal :=
  .next (keepQueue s (powerOnReset s resetN w))
/-- GO (R397). -/
def execGo (w : BootWorld) (s : State) : Host.Outcome State Fault Refusal := .next (keepQueue s (go s w))
/-- PWR_OK_FALL (R414). -/
def execPwrOkFall (s : State) : Host.Outcome State Fault Refusal := .next (keepQueue s (pwrOkFall s))
/-- WARM_RESET (R400). -/
def execWarmReset (cause : WarmCause) (w : BootWorld) (s : State) : Host.Outcome State Fault Refusal :=
  .next (keepQueue s (warmResetBy s cause w))
/-- PERST_BEFORE_READY (R399). -/
def execPerstBeforeReady (s : State) : Host.Outcome State Fault Refusal := .next (keepQueue s (perstBeforeReady s))
/-- RESET_N_RISE (R415). -/
def execResetNRise (w : BootWorld) (s : State) : Host.Outcome State Fault Refusal := .next (keepQueue s (resetNRise s w))

end Sys2Proof.Machine
end

