-- ==== Sys2Proof/Machine/FabricRows.lean ====
section
/-!
DEFINITION. The meanings of the fabric's commands (spec/11_emgait_fabric.md) and of the packets and timers of remote access
(spec/12_remote_access.md), each one call of the operation that Machine/Fabric.lean or Machine/Remote.lean gives it.
-/

namespace Sys2Proof.Machine

/-! ## Links, packets, credits, ports -/
/-- NODE_DOWN: the operations outstanding to the node fail, and the node is no peer any more (R293, R140). -/
def nodeGoesDown (n : Nat) (s : State) : State × Half × List Nat := (peerLost (markDown s n) n .down, stOk, [])
/-- NODE_UP brings a spare in under the node's number (R293, R140). -/
def nodeComesUp (n : Nat) (roleEpoch : Word) (s : State) : State × Half × List Nat := (peerBack (markUp s n) n roleEpoch, stOk, [])


/-- CODEWORD_RECEIVE (R251). -/
def execCodewordReceive (p : PortId) (w : CodewordIn) (s : State) : Host.Outcome State Fault Refusal :=
  .next (quiet s (settle (receiveCodeword s p.val w)))
/-- LINK_REPLAY (R251). -/
def execLinkReplay (p : PortId) (s : State) : Host.Outcome State Fault Refusal := .next (quiet s (settle (linkReplay s p.val)))
/-- LANE_DROP (R258). -/
def execLaneDrop (p : PortId) (l : Fin 4) (x : LaneLoss) (s : State) : Host.Outcome State Fault Refusal :=
  .next (quiet s (settle (dropLane s p.val l.val x.cause x.peer)))
/-- PACKET_FORWARD (R264). -/
def execPacketForward (arr : Option PortId) (p : Packet) (s : State) : Host.Outcome State Fault Refusal :=
  .next (quiet s (settle (forwardPacket s arr p)))
/-- PACKET_EXPIRE (R265). -/
def execPacketExpire (p : PortId) (vc : BitVec 2) (s : State) : Host.Outcome State Fault Refusal :=
  .next (quiet s (settle (expirePacket s p.val vc.toNat)))
/-- CREDIT (R255). -/
def execCredit (p : PortId) (counts : List Half) (s : State) : Host.Outcome State Fault Refusal :=
  .next (quiet s (settle (receiveCredit s p.val (counts.map (·.toNat)))))
/-- CREDIT_RETURN_TIMER (R255). -/
def execCreditReturnTimer (p : PortId) (s : State) : Host.Outcome State Fault Refusal :=
  .next (quiet s (if (portGet s p.val).timer then sendCredit s p.val else s))
/-- PORT_UP (R260). -/
def execPortUp (p : PortId) (t : TrainEnd) (s : State) : Host.Outcome State Fault Refusal :=
  .next (quiet s (settle (portComesUp s p.val t)))
/-- PORT_DOWN (R261). -/
def execPortDown (p : PortId) (c : DownCause) (s : State) : Host.Outcome State Fault Refusal :=
  .next (quiet s (settle (portGoesDown s p.val c)))
/-- PORT_SILENCE_TIMEOUT (R260). -/
def execPortSilenceTimeout (p : PortId) (s : State) : Host.Outcome State Fault Refusal :=
  .next (quiet s (settle (portGoesDown s p.val .silence)))
/-- PORT_HOLD_EXPIRY (R260). -/
def execPortHoldExpiry (p : PortId) (s : State) : Host.Outcome State Fault Refusal := .next (quiet s (holdExpires s p.val))
/-- VC_STALL (R266). -/
def execVcStall (p : PortId) (vc : BitVec 2) (s : State) : Host.Outcome State Fault Refusal :=
  .next (quiet s (settle (vcStall s p.val vc.toNat)))
/-- SPAN_GUARD_OPEN (R273). -/
def execSpanGuardOpen (p : PortId) (s : State) : Host.Outcome State Fault Refusal := .next (quiet s (openGuard s p.val))
/-- DIRECTED_WAGGLE_FORWARD (R267). -/
def execDirectedWaggleForward (w : WagglePass) (s : State) : Host.Outcome State Fault Refusal :=
  .next (quiet s (if waggleTransit w.hdr then forwardWaggle s w.hdr w.kind else s))
/-- PROBE_WAGGLE (R268). -/
def execProbeWaggle (w : WaggleHdr) (s : State) : Host.Outcome State Fault Refusal :=
  .next (quiet s (onWaggle s w 1 false probeEffect'))
/-- ASSIGN (R268). -/
def execAssign (w : WaggleHdr) (node : Half) (epoch : Word) (s : State) : Host.Outcome State Fault Refusal :=
  .next (quiet s (onWaggle s w 2 (decide (16383 < node.toNat)) (assignNode w node.toNat epoch.toNat)))
/-- ROUTE_WRITE (R269). -/
def execRouteWrite (w : WaggleHdr) (table : Byte) (first count : Half) (entries : List Half) (rest : RouteRest) (s : State) :
    Host.Outcome State Fault Refusal :=
  let b := routeBody table first count entries rest
  .next (quiet s (onWaggle s { w with body := b } 3 (routeBodyBad b) (writeRoutes (routeTable b) (routeFirst b) (routeEntries b))))
/-- ROUTE_COMMIT (R270). -/
def execRouteCommit (w : WaggleHdr) (beat : BeatField) (s : State) : Host.Outcome State Fault Refusal :=
  .next (quiet s (onWaggle s w 4 false (routeCommitAt beat.toNat)))

/-- NODE_DOWN (R293). -/
def execNodeDown (w : WaggleHdr) (node : Half) (s : State) : Host.Outcome State Fault Refusal :=
  .next (quiet s (settle (onWaggle s w 5 (decide (16383 < node.toNat)) (nodeGoesDown node.toNat))))
/-- NODE_UP (R293). -/
def execNodeUp (w : WaggleHdr) (node : Half) (roleEpoch : Word) (s : State) : Host.Outcome State Fault Refusal :=
  .next (quiet s (settle (onWaggle s w 6 (decide (16383 < node.toNat)) (nodeComesUp node.toNat roleEpoch))))
/-- TEARDOWN (R407). -/
def execTeardown (w : WaggleHdr) (job : Half) (s : State) : Host.Outcome State Fault Refusal :=
  .next (quiet s (onWaggle s w 7 false (teardownJob job.toNat)))
/-- POWER_ALLOC (R330). -/
def execPowerAlloc (w : WaggleHdr) (watts : Word) (first : BeatField) (span : BitVec 48) (s : State) : Host.Outcome State Fault Refusal :=
  let b := allocBody watts first span
  .next (quiet s (onWaggle s { w with body := b } 8 (allocBodyBad b) (powerAlloc (allocWatts b) (allocFirst b) (allocSpan b))))

/-! ## Remote access -/

/-- The parts of an answer that concern a forager message's transfer go to it, the rest to the requester's trackers. -/
def answerIn (s : State) (p : Packet) : State :=
  let (s, was) := foragerAnswer s p
  if was then s else onAnswer s p

/-- The attempt that ends at its BEAT without having been settled (R290). -/
def timeOut (s : State) (tag : Nat) : State :=
  match s.remote.lines.find? fun l => l.tag == tag with
  | some l => if l.sent && attemptOver s l.until_ l.last then endAttemptLine s l else s
  | none =>
    match s.remote.sends.find? fun t => t.tag == tag && !t.forager with
    | some t => if t.inFlight && attemptOver s t.until_ t.last then endAttemptSend s t else s
    | none => s

/-- WRITE (R283). -/
def execWrite (arr : Option PortId) (p : Packet) (s : State) : Host.Outcome State Fault Refusal :=
  .next (quiet s (settle (arriving s arr p 1 (fun s => receiveWrite s p))))
/-- READ (R283). -/
def execRead (arr : Option PortId) (p : Packet) (s : State) : Host.Outcome State Fault Refusal :=
  .next (quiet s (settle (arriving s arr p 2 (fun s => receiveRead s p))))
/-- READ_RESP (R290). -/
def execReadResp (arr : Option PortId) (p : Packet) (s : State) : Host.Outcome State Fault Refusal :=
  .next (quiet s (settle (arriving s arr p 3 (fun s => onAnswer s p))))
/-- COMPLETION (R290). -/
def execCompletion (arr : Option PortId) (p : Packet) (s : State) : Host.Outcome State Fault Refusal :=
  .next (quiet s (settle (arriving s arr p 5 (fun s => onAnswer s p))))
/-- SEND_PIECE (R286). -/
def execSendPiece (arr : Option PortId) (p : Packet) (s : State) : Host.Outcome State Fault Refusal :=
  .next (quiet s (settle (arriving s arr p 4 (fun s => receivePiece s p))))
/-- FLUSH (R286). -/
def execFlush (arr : Option PortId) (p : Packet) (s : State) : Host.Outcome State Fault Refusal :=
  .next (quiet s (settle (arriving s arr p 6 (fun s => receiveFlush s p))))
/-- FLUSH_RESP (R290). -/
def execFlushResp (arr : Option PortId) (p : Packet) (s : State) : Host.Outcome State Fault Refusal :=
  .next (quiet s (settle (arriving s arr p 7 (fun s => answerIn s p))))
/-- RETURN (R265). -/
def execReturn (arr : Option PortId) (p : Packet) (s : State) : Host.Outcome State Fault Refusal :=
  .next (quiet s (settle (arriving s arr p 0x13 (fun s => foragerReturn (receiveReturn s p) p))))
/-- WRITE_PLACEMENT_COMPLETE (R285). -/
def execWritePlacementComplete (n : Nat) (s : State) : Host.Outcome State Fault Refusal := .next (quiet s (settle (placeWrite s n)))
/-- REMOTE_READ_COMPLETE (R283). -/
def execRemoteReadComplete (n : Nat) (found : Findings) (s : State) : Host.Outcome State Fault Refusal :=
  .next (quiet s (settle (finishRead s n found)))
/-- PIECE_PLACEMENT_COMPLETE (R286). -/
def execPiecePlacementComplete (n : Nat) (s : State) : Host.Outcome State Fault Refusal := .next (quiet s (settle (placePiece s n)))
/-- ATTEMPT_TIMEOUT (R290). -/
def execAttemptTimeout (tag : Word) (s : State) : Host.Outcome State Fault Refusal := .next (quiet s (settle (timeOut s tag.toNat)))
/-- SEND_TRANSFER_START (R288). -/
def execSendTransferStart (s : State) : Host.Outcome State Fault Refusal := .next (quiet s (settle (startSend s)))
/-- LINE_OP_ISSUE (R285). -/
def execLineOpIssue (s : State) : Host.Outcome State Fault Refusal := .next (quiet s (settle (issueLine s)))
/-- DMA_DESCRIPTOR_START (R58). -/
def execDmaDescriptorStart (c : CellId) (n : Nat) (s : State) : Host.Outcome State Fault Refusal :=
  .next (quiet s (startDma s c.val n))
/-- DMA_COMPLETION (R58). -/
def execDmaCompletion (c : CellId) (n : Nat) (found : Findings) (s : State) : Host.Outcome State Fault Refusal :=
  .next (quiet s (completeDma s c.val n found))

end Sys2Proof.Machine
end

