-- ==== Sys2Proof/Machine/HostRows.lean ====
section
/-!
DEFINITION. The meanings of the host interface's commands (spec/13_host_interface.md): doorbells, fetches, resets of functions, and the
command packets, each of which goes through the command processor's checks (R303) to the operation its opcode names.
-/

namespace Sys2Proof.Machine

/-! ## Doorbells, fetches, functions -/

/-- HI_DB_SQ (R300). -/
def execHiDbSq (fn : FnId) (ring : Fin 16) (value : Word) (s : State) : Host.Outcome State Fault Refusal :=
  .next (quiet s (doorbellSq s fn.val ring.val value.toNat))
/-- HI_DB_CQ (R300). -/
def execHiDbCq (fn : FnId) (value : Word) (s : State) : Host.Outcome State Fault Refusal :=
  .next (quiet s (settle (doorbellCq s fn.val value.toNat)))
/-- COMMAND_FETCH (R301). -/
def execCommandFetch (e : FetchEnd) (s : State) : Host.Outcome State Fault Refusal := .next (quiet s (commandFetch s e))
/-- IRQ_COALESCE_TIMER (R309). -/
def execIrqCoalesceTimer (fn : FnId) (s : State) : Host.Outcome State Fault Refusal := .next (quiet s (coalesceTimer s fn.val))
/-- FUNCTION_LEVEL_RESET (R310). -/
def execFunctionLevelReset (fn : FnId) (s : State) : Host.Outcome State Fault Refusal := .next (quiet s (functionLevelReset s fn.val))
/-- NUMVFS_CLEAR (R298). -/
def execNumvfsClear (s : State) : Host.Outcome State Fault Refusal := .next (quiet s (clearNumVfs s))
/-- HOST_COMPLETION_TIMEOUT (R315). -/
def execHostCompletionTimeout (fn : FnId) (s : State) : Host.Outcome State Fault Refusal := .next (quiet s (completionTimeout s fn.val))
/-- PCIE_LINK_CHANGE (R317). -/
def execPcieLinkChange (up : Bool) (width rate : BitVec 4) (flit : Bool) (s : State) : Host.Outcome State Fault Refusal :=
  .next (quiet s (pcieLink s up width rate flit))

/-! ## Command packets (R311, R312) -/

/-- OP_NOP (R311). -/
def execOpNop (h : CmdHdr) (s : State) : Host.Outcome State Fault Refusal := .next (quiet s (issueHostCommand s h .nop))
/-- OP_IDENTIFY (R312). -/
def execOpIdentify (h : CmdHdr) (page : DWord) (s : State) : Host.Outcome State Fault Refusal :=
  .next (quiet s (issueHostCommand s h (.identify page)))
/-- OP_SET_ROLE (R402). -/
def execOpSetRole (h : CmdHdr) (role : Byte) (s : State) : Host.Outcome State Fault Refusal :=
  .next (quiet s (issueHostCommand s h (.setRole role)))
/-- OP_LOAD_MODEL_IMAGE (R197). -/
def execOpLoadModelImage (h : CmdHdr) (a : ImageArg) (s : State) : Host.Outcome State Fault Refusal :=
  .next (quiet s (issueHostCommand s h (.loadModel a)))
/-- OP_LOAD_SCHEDULE_IMAGE (R198). -/
def execOpLoadScheduleImage (h : CmdHdr) (a : ImageArg) (s : State) : Host.Outcome State Fault Refusal :=
  .next (quiet s (issueHostCommand s h (.loadSchedule a)))
/-- OP_START_JOB (R404). -/
def execOpStartJob (h : CmdHdr) (s : State) : Host.Outcome State Fault Refusal := .next (quiet s (issueHostCommand s h .startJob))
/-- OP_STOP_JOB (R406). -/
def execOpStopJob (h : CmdHdr) (job : Half) (s : State) : Host.Outcome State Fault Refusal :=
  .next (quiet s (issueHostCommand s h (.stopJob job)))
/-- OP_CONTEXT_CREATE (R201). -/
def execOpContextCreate (h : CmdHdr) (a : ContextArg) (s : State) : Host.Outcome State Fault Refusal :=
  .next (quiet s (issueHostCommand s h (.contextCreate a)))
/-- OP_CONTEXT_DESTROY (R202). -/
def execOpContextDestroy (h : CmdHdr) (context : Half) (s : State) : Host.Outcome State Fault Refusal :=
  .next (quiet s (issueHostCommand s h (.contextDestroy context)))
/-- OP_SEM_INIT (R212). -/
def execOpSemInit (h : CmdHdr) (number count : Half) (s : State) : Host.Outcome State Fault Refusal :=
  .next (quiet s (issueHostCommand s h (.semInit number count)))
/-- OP_READ_ACCOUNTING (R222). -/
def execOpReadAccounting (h : CmdHdr) (client : Byte) (buf : DWord) (s : State) : Host.Outcome State Fault Refusal :=
  .next (quiet s (issueHostCommand s h (.readAccounting client buf)))
/-- OP_MIGRATE_TILES (R235). -/
def execOpMigrateTiles (h : CmdHdr) (a : MigrateArg) (s : State) : Host.Outcome State Fault Refusal :=
  .next (quiet s (issueHostCommand s h (.migrate a)))
/-- OP_PREFETCH (R235). -/
def execOpPrefetch (h : CmdHdr) (a : PrefetchArg) (s : State) : Host.Outcome State Fault Refusal :=
  .next (quiet s (issueHostCommand s h (.prefetch a)))
/-- OP_REGISTER_REGION (R279). -/
def execOpRegisterRegion (h : CmdHdr) (a : RegionArg) (s : State) : Host.Outcome State Fault Refusal :=
  .next (quiet s (issueHostCommand s h (.registerRegion a)))
/-- OP_REVOKE_REGION (R280). -/
def execOpRevokeRegion (h : CmdHdr) (key : DWord) (s : State) : Host.Outcome State Fault Refusal :=
  .next (quiet s (issueHostCommand s h (.revokeRegion key)))
/-- OP_POST_RECV (R287). -/
def execOpPostRecv (h : CmdHdr) (a : PostArg) (s : State) : Host.Outcome State Fault Refusal :=
  .next (quiet s (issueHostCommand s h (.postRecv a)))
/-- OP_SEND (R288). -/
def execOpSend (h : CmdHdr) (a : SendArg) (s : State) : Host.Outcome State Fault Refusal := .next (quiet s (issueHostCommand s h (.send a)))
/-- OP_FLUSH (R291). -/
def execOpFlush (h : CmdHdr) (node : Half) (s : State) : Host.Outcome State Fault Refusal :=
  .next (quiet s (issueHostCommand s h (.flush node)))
/-- OP_SET_POWER_LIMIT (R329). -/
def execOpSetPowerLimit (h : CmdHdr) (mode : Byte) (window : Half) (limit : Word) (s : State) : Host.Outcome State Fault Refusal :=
  .next (quiet s (issueHostCommand s h (.setPowerLimit mode window limit)))
/-- OP_ATTEST (R363). -/
def execOpAttest (h : CmdHdr) (buf : DWord) (nonce : BitVec 256) (s : State) : Host.Outcome State Fault Refusal :=
  .next (quiet s (issueHostCommand s h (.attest buf nonce)))
/-- OP_SELF_TEST_KAT (R344). -/
def execOpSelfTestKat (h : CmdHdr) (s : State) : Host.Outcome State Fault Refusal := .next (quiet s (issueHostCommand s h (.selfTest 0)))
/-- OP_SELF_TEST_STRESS (R345). -/
def execOpSelfTestStress (h : CmdHdr) (s : State) : Host.Outcome State Fault Refusal := .next (quiet s (issueHostCommand s h (.selfTest 1)))
/-- OP_DMA_COPY (R313). -/
def execOpDmaCopy (h : CmdHdr) (a : DmaCopyArg) (host : HostLines) (s : State) : Host.Outcome State Fault Refusal :=
  .next (quiet s (issueHostCommand s h (.dmaCopy a host)))
/-- OP_LOAD_CODEBOOK (R96). -/
def execOpLoadCodebook (h : CmdHdr) (a : ImageArg) (slot : Byte) (first last : Half) (s : State) : Host.Outcome State Fault Refusal :=
  .next (quiet s (issueHostCommand s h (.loadCodebook a slot first last)))
/-- OP_RETIRE_CODEBOOK (R97). -/
def execOpRetireCodebook (h : CmdHdr) (version : Half) (first last : Half) (s : State) : Host.Outcome State Fault Refusal :=
  .next (quiet s (issueHostCommand s h (.retireCodebook version first last)))
/-- OP_LOAD_GRAMMAR (R184). -/
def execOpLoadGrammar (h : CmdHdr) (a : ImageArg) (slot : Byte) (s : State) : Host.Outcome State Fault Refusal :=
  .next (quiet s (issueHostCommand s h (.loadGrammar a slot)))
/-- OP_RETIRE_GRAMMAR (R187). -/
def execOpRetireGrammar (h : CmdHdr) (id : Half) (s : State) : Host.Outcome State Fault Refusal :=
  .next (quiet s (issueHostCommand s h (.retireGrammar id)))

end Sys2Proof.Machine
end

