-- ==== Sys2Proof/Machine/Dispatch.lean ====
section
/-!
DEFINITION. What each command does: one arm per row of spec/opcode_table.json.
-/

namespace Sys2Proof.Machine

def exec (i : Instr) (s : State) : Host.Outcome State Fault Refusal :=
  match i with
  | .beatEdge offset => Sys2Proof.Machine.execBeatEdge offset s
  | .acquireEdgeTimeout => Sys2Proof.Machine.execAcquireEdgeTimeout s
  | .beatBoundary kat => Sys2Proof.Machine.execBeatBoundary kat s
  | .holdoverExpiry kat => Sys2Proof.Machine.execHoldoverExpiry kat s
  | .beatCountOverflow kat => Sys2Proof.Machine.execBeatCountOverflow kat s
  | .marker port value hchkOk => Sys2Proof.Machine.execMarker port value hchkOk s
  | .btCtlEnable path value => Sys2Proof.Machine.execBtCtlEnable path value s
  | .btCommit path value => Sys2Proof.Machine.execBtCommit path value s
  | .loHalfReadLatch path r => Sys2Proof.Machine.execLoHalfReadLatch path r s
  | .scalarAlu c w insn => Sys2Proof.Machine.execScalarAlu c w insn s
  | .scalarLoad c w insn ecc => Sys2Proof.Machine.execScalarLoad c w insn ecc s
  | .scalarStore c w insn => Sys2Proof.Machine.execScalarStore c w insn s
  | .amoadd c w insn ecc => Sys2Proof.Machine.execAmoadd c w insn ecc s
  | .amocas c w insn ecc => Sys2Proof.Machine.execAmocas c w insn ecc s
  | .branch c w insn => Sys2Proof.Machine.execBranch c w insn s
  | .jal c w insn => Sys2Proof.Machine.execJal c w insn s
  | .jalr c w insn => Sys2Proof.Machine.execJalr c w insn s
  | .vectorAlu c w insn => Sys2Proof.Machine.execVectorAlu c w insn s
  | .vld c w insn ecc => Sys2Proof.Machine.execVld c w insn ecc s
  | .vst c w insn => Sys2Proof.Machine.execVst c w insn s
  | .vbcast c w insn => Sys2Proof.Machine.execVbcast c w insn s
  | .vectorReduce c w insn => Sys2Proof.Machine.execVectorReduce c w insn s
  | .vperm c w insn => Sys2Proof.Machine.execVperm c w insn s
  | .vext c w insn => Sys2Proof.Machine.execVext c w insn s
  | .send c w insn => Sys2Proof.Machine.execSend c w insn s
  | .recv c w insn => Sys2Proof.Machine.execRecv c w insn s
  | .probe c w insn => Sys2Proof.Machine.execProbe c w insn s
  | .messageArrival src port => Sys2Proof.Machine.execMessageArrival src port s
  | .creditReturn c port => Sys2Proof.Machine.execCreditReturn c port s
  | .dma c w insn ecc => Sys2Proof.Machine.execDma c w insn ecc s
  | .dmaDescriptorStart c n => Sys2Proof.Machine.execDmaDescriptorStart c n s
  | .dmaCompletion c n found => Sys2Proof.Machine.execDmaCompletion c n found s
  | .bar c w insn => Sys2Proof.Machine.execBar c w insn s
  | .barrierRelease barrier => Sys2Proof.Machine.execBarrierRelease barrier s
  | .waitc c w insn => Sys2Proof.Machine.execWaitc c w insn s
  | .nop c w insn => Sys2Proof.Machine.execNop c w insn s
  | .sysRd c w insn => Sys2Proof.Machine.execSysRd c w insn s
  | .halt c w insn => Sys2Proof.Machine.execHalt c w insn s
  | .semacq c w insn => Sys2Proof.Machine.execSemacq c w insn s
  | .semrel c w insn => Sys2Proof.Machine.execSemrel c w insn s
  | .semtry c w insn => Sys2Proof.Machine.execSemtry c w insn s
  | .semrd c w insn => Sys2Proof.Machine.execSemrd c w insn s
  | .critEnter c w insn => Sys2Proof.Machine.execCritEnter c w insn s
  | .critExit c w insn => Sys2Proof.Machine.execCritExit c w insn s
  | .semcancel c w insn => Sys2Proof.Machine.execSemcancel c w insn s
  | .semheld c w insn => Sys2Proof.Machine.execSemheld c w insn s
  | .patrolScrub found => Sys2Proof.Machine.execPatrolScrub found s
  | .clCommit path value => Sys2Proof.Machine.execClCommit path value s
  | .mma c w insn => Sys2Proof.Machine.execMma c w insn s
  | .mmaComplete c mism found => Sys2Proof.Machine.execMmaComplete c mism found s
  | .mlda c w insn => Sys2Proof.Machine.execMlda c w insn s
  | .mldaComplete c found => Sys2Proof.Machine.execMldaComplete c found s
  | .mst c w insn => Sys2Proof.Machine.execMst c w insn s
  | .mstComplete c ecc => Sys2Proof.Machine.execMstComplete c ecc s
  | .mstat c w insn => Sys2Proof.Machine.execMstat c w insn s
  | .engineStaggerStart c count => Sys2Proof.Machine.execEngineStaggerStart c count s
  | .governorHoldRelease c fits => Sys2Proof.Machine.execGovernorHoldRelease c fits s
  | .holdRotation aboveCap unmet => Sys2Proof.Machine.execHoldRotation aboveCap unmet s
  | .mxCommit path value => Sys2Proof.Machine.execMxCommit path value s
  | .opLoadCodebook h a slot first last => Sys2Proof.Machine.execOpLoadCodebook h a slot first last s
  | .codebookCopyComplete n => Sys2Proof.Machine.execCodebookCopyComplete n s
  | .opRetireCodebook h version first last => Sys2Proof.Machine.execOpRetireCodebook h version first last s
  | .stageSlotFill handle layer fill => Sys2Proof.Machine.execStageSlotFill handle layer fill s
  | .collectiveComplete n inputs => Sys2Proof.Machine.execCollectiveComplete n inputs s
  | .opPagePin h page => Sys2Proof.Machine.execOpPagePin h page s
  | .opPageUnpin h page => Sys2Proof.Machine.execOpPageUnpin h page s
  | .kvCommit path value => Sys2Proof.Machine.execKvCommit path value s
  | .opSubmitRequest h a => Sys2Proof.Machine.execOpSubmitRequest h a s
  | .opCancelRequest h handle => Sys2Proof.Machine.execOpCancelRequest h handle s
  | .opHandoffOut h handle target => Sys2Proof.Machine.execOpHandoffOut h handle target s
  | .handoffProposeSend handle => Sys2Proof.Machine.execHandoffProposeSend handle s
  | .opHandoffIn h a => Sys2Proof.Machine.execOpHandoffIn h a s
  | .opQueryRequest h handle buf => Sys2Proof.Machine.execOpQueryRequest h handle buf s
  | .opPrefixLookup h home count tokens => Sys2Proof.Machine.execOpPrefixLookup h home count tokens s
  | .create m client plen maxlen parent tokens hashes => Sys2Proof.Machine.execCreate m client plen maxlen parent tokens hashes s
  | .renew m => Sys2Proof.Machine.execRenew m s
  | .propose m target => Sys2Proof.Machine.execPropose m target s
  | .claim m expOwner expEpoch => Sys2Proof.Machine.execClaim m expOwner expEpoch s
  | .commit m block hash pages => Sys2Proof.Machine.execCommit m block hash pages s
  | .tokens m first count ids => Sys2Proof.Machine.execTokens m first count ids s
  | .fetch m first count => Sys2Proof.Machine.execFetch m first count s
  | .pages m part first ids pages => Sys2Proof.Machine.execPages m part first ids pages s
  | .end_ m status => Sys2Proof.Machine.execEnd m status s
  | .query m lookup => Sys2Proof.Machine.execQuery m lookup s
  | .replicate m d => Sys2Proof.Machine.execReplicate m d s
  | .grant m r => Sys2Proof.Machine.execGrant m r s
  | .released m => Sys2Proof.Machine.execReleased m s
  | .expired m => Sys2Proof.Machine.execExpired m s
  | .adopt m r => Sys2Proof.Machine.execAdopt m r s
  | .join m => Sys2Proof.Machine.execJoin m s
  | .pendingCleared m => Sys2Proof.Machine.execPendingCleared m s
  | .direct m first pages => Sys2Proof.Machine.execDirect m first pages s
  | .reply m r => Sys2Proof.Machine.execReply m r s
  | .leaseFence handle => Sys2Proof.Machine.execLeaseFence handle s
  | .leaseReassign handle => Sys2Proof.Machine.execLeaseReassign handle s
  | .resilverComplete node => Sys2Proof.Machine.execResilverComplete node s
  | .fgCommit path value => Sys2Proof.Machine.execFgCommit path value s
  | .lensRequest c n ecc => Sys2Proof.Machine.execLensRequest c n ecc s
  | .draft m => Sys2Proof.Machine.execDraft m s
  | .verify m => Sys2Proof.Machine.execVerify m s
  | .first m => Sys2Proof.Machine.execFirst m s
  | .opLoadGrammar h a slot => Sys2Proof.Machine.execOpLoadGrammar h a slot s
  | .grammarCopyComplete slot => Sys2Proof.Machine.execGrammarCopyComplete slot s
  | .opRetireGrammar h id => Sys2Proof.Machine.execOpRetireGrammar h id s
  | .bankSearchable bank => Sys2Proof.Machine.execBankSearchable bank s
  | .shadowSweep upsets => Sys2Proof.Machine.execShadowSweep upsets s
  | .lnCommit path value => Sys2Proof.Machine.execLnCommit path value s
  | .opLoadModelImage h a => Sys2Proof.Machine.execOpLoadModelImage h a s
  | .opLoadScheduleImage h a => Sys2Proof.Machine.execOpLoadScheduleImage h a s
  | .opStartJob h => Sys2Proof.Machine.execOpStartJob h s
  | .opStopJob h job => Sys2Proof.Machine.execOpStopJob h job s
  | .opContextCreate h a => Sys2Proof.Machine.execOpContextCreate h a s
  | .opContextDestroy h context => Sys2Proof.Machine.execOpContextDestroy h context s
  | .opSemInit h number count => Sys2Proof.Machine.execOpSemInit h number count s
  | .opReadAccounting h client buf => Sys2Proof.Machine.execOpReadAccounting h client buf s
  | .swapDrainComplete ctx => Sys2Proof.Machine.execSwapDrainComplete ctx s
  | .swapSaveComplete ctx => Sys2Proof.Machine.execSwapSaveComplete ctx s
  | .swapRestoreComplete e => Sys2Proof.Machine.execSwapRestoreComplete e s
  | .splitEvaluation => Sys2Proof.Machine.execSplitEvaluation s
  | .sqCommit path value => Sys2Proof.Machine.execSqCommit path value s
  | .tileMoveStart => Sys2Proof.Machine.execTileMoveStart s
  | .tileMoveSwitch tile found => Sys2Proof.Machine.execTileMoveSwitch tile found s
  | .opMigrateTiles h a => Sys2Proof.Machine.execOpMigrateTiles h a s
  | .opPrefetch h a => Sys2Proof.Machine.execOpPrefetch h a s
  | .bar2Write fn off bytes => Sys2Proof.Machine.execBar2Write fn off bytes s
  | .bar2Read fn off r => Sys2Proof.Machine.execBar2Read fn off r s
  | .memoryPatrolScrub found => Sys2Proof.Machine.execMemoryPatrolScrub found s
  | .hbmStackFail stack => Sys2Proof.Machine.execHbmStackFail stack s
  | .ddrChannelFail ch lostTraining found => Sys2Proof.Machine.execDdrChannelFail ch lostTraining found s
  | .nandGarbageCollect lun => Sys2Proof.Machine.execNandGarbageCollect lun s
  | .nandRelocate lun block cause => Sys2Proof.Machine.execNandRelocate lun block cause s
  | .nandProgramFail lun block => Sys2Proof.Machine.execNandProgramFail lun block s
  | .mtCommit path value => Sys2Proof.Machine.execMtCommit path value s
  | .codewordReceive port w => Sys2Proof.Machine.execCodewordReceive port w s
  | .linkReplay port => Sys2Proof.Machine.execLinkReplay port s
  | .laneDrop port lane loss => Sys2Proof.Machine.execLaneDrop port lane loss s
  | .packetForward port p => Sys2Proof.Machine.execPacketForward port p s
  | .packetExpire port vc => Sys2Proof.Machine.execPacketExpire port vc s
  | .credit port counts => Sys2Proof.Machine.execCredit port counts s
  | .creditReturnTimer port => Sys2Proof.Machine.execCreditReturnTimer port s
  | .egPortEnable path port value => Sys2Proof.Machine.execEgPortEnable path port value s
  | .egPortRetrain path port value => Sys2Proof.Machine.execEgPortRetrain path port value s
  | .portUp port t => Sys2Proof.Machine.execPortUp port t s
  | .portDown port cause => Sys2Proof.Machine.execPortDown port cause s
  | .portSilenceTimeout port => Sys2Proof.Machine.execPortSilenceTimeout port s
  | .portHoldExpiry port => Sys2Proof.Machine.execPortHoldExpiry port s
  | .vcStall port vc => Sys2Proof.Machine.execVcStall port vc s
  | .spanGuardOpen port => Sys2Proof.Machine.execSpanGuardOpen port s
  | .probeWaggle w => Sys2Proof.Machine.execProbeWaggle w s
  | .assign w node epoch => Sys2Proof.Machine.execAssign w node epoch s
  | .routeWrite w table first count entries rest => Sys2Proof.Machine.execRouteWrite w table first count entries rest s
  | .routeCommit w beat => Sys2Proof.Machine.execRouteCommit w beat s
  | .nodeDown w node => Sys2Proof.Machine.execNodeDown w node s
  | .nodeUp w node roleEpoch => Sys2Proof.Machine.execNodeUp w node roleEpoch s
  | .teardown w job => Sys2Proof.Machine.execTeardown w job s
  | .powerAlloc w watts first span => Sys2Proof.Machine.execPowerAlloc w watts first span s
  | .egCommit path value => Sys2Proof.Machine.execEgCommit path value s
  | .opRegisterRegion h a => Sys2Proof.Machine.execOpRegisterRegion h a s
  | .opRevokeRegion h key => Sys2Proof.Machine.execOpRevokeRegion h key s
  | .opPostRecv h a => Sys2Proof.Machine.execOpPostRecv h a s
  | .opSend h a => Sys2Proof.Machine.execOpSend h a s
  | .sendTransferStart => Sys2Proof.Machine.execSendTransferStart s
  | .opFlush h node => Sys2Proof.Machine.execOpFlush h node s
  | .lineOpIssue => Sys2Proof.Machine.execLineOpIssue s
  | .write arr p => Sys2Proof.Machine.execWrite arr p s
  | .writePlacementComplete n => Sys2Proof.Machine.execWritePlacementComplete n s
  | .read arr p => Sys2Proof.Machine.execRead arr p s
  | .readResp arr p => Sys2Proof.Machine.execReadResp arr p s
  | .completion arr p => Sys2Proof.Machine.execCompletion arr p s
  | .sendPiece arr p => Sys2Proof.Machine.execSendPiece arr p s
  | .flush arr p => Sys2Proof.Machine.execFlush arr p s
  | .flushResp arr p => Sys2Proof.Machine.execFlushResp arr p s
  | .return_ arr p => Sys2Proof.Machine.execReturn arr p s
  | .attemptTimeout tag => Sys2Proof.Machine.execAttemptTimeout tag s
  | .raCommit path value => Sys2Proof.Machine.execRaCommit path value s
  | .hiDbSq fn ring value => Sys2Proof.Machine.execHiDbSq fn ring value s
  | .hiDbCq fn value => Sys2Proof.Machine.execHiDbCq fn value s
  | .commandFetch e => Sys2Proof.Machine.execCommandFetch e s
  | .irqCoalesceTimer fn => Sys2Proof.Machine.execIrqCoalesceTimer fn s
  | .functionLevelReset fn => Sys2Proof.Machine.execFunctionLevelReset fn s
  | .numvfsClear => Sys2Proof.Machine.execNumvfsClear s
  | .hiFnCommit path fn value => Sys2Proof.Machine.execHiFnCommit path fn value s
  | .opNop h => Sys2Proof.Machine.execOpNop h s
  | .opIdentify h page => Sys2Proof.Machine.execOpIdentify h page s
  | .opSetRole h role => Sys2Proof.Machine.execOpSetRole h role s
  | .opSetPowerLimit h mode window limit => Sys2Proof.Machine.execOpSetPowerLimit h mode window limit s
  | .opAttest h buf nonce => Sys2Proof.Machine.execOpAttest h buf nonce s
  | .opSelfTestKat h => Sys2Proof.Machine.execOpSelfTestKat h s
  | .opSelfTestStress h => Sys2Proof.Machine.execOpSelfTestStress h s
  | .stressTestEnd failing cool => Sys2Proof.Machine.execStressTestEnd failing cool s
  | .opDmaCopy h a host => Sys2Proof.Machine.execOpDmaCopy h a host s
  | .pwCommit path value => Sys2Proof.Machine.execPwCommit path value s
  | .domainClosure => Sys2Proof.Machine.execDomainClosure s
  | .domainReady pd => Sys2Proof.Machine.execDomainReady pd s
  | .railRead readings k => Sys2Proof.Machine.execRailRead readings k s
  | .allocLapse => Sys2Proof.Machine.execAllocLapse s
  | .sensorRead temps => Sys2Proof.Machine.execSensorRead temps s
  | .thermalCapStep => Sys2Proof.Machine.execThermalCapStep s
  | .wearLogAppend hours => Sys2Proof.Machine.execWearLogAppend hours s
  | .wearOut => Sys2Proof.Machine.execWearOut s
  | .marginTrim slacks => Sys2Proof.Machine.execMarginTrim slacks s
  | .healthDecay => Sys2Proof.Machine.execHealthDecay s
  | .softRequestResend => Sys2Proof.Machine.execSoftRequestResend s
  | .grantExpel path => Sys2Proof.Machine.execGrantExpel path s
  | .noSpare path => Sys2Proof.Machine.execNoSpare path s
  | .coalesceWindowClose source => Sys2Proof.Machine.execCoalesceWindowClose source s
  | .rlCommit path value => Sys2Proof.Machine.execRlCommit path value s
  | .submit path value => Sys2Proof.Machine.execSubmit path value s
  | .grantVerifyComplete => Sys2Proof.Machine.execGrantVerifyComplete s
  | .endDebug path => Sys2Proof.Machine.execEndDebug path s
  | .rngFail => Sys2Proof.Machine.execRngFail s
  | .mgmtRead f => Sys2Proof.Machine.execMgmtRead f s
  | .mgmtWrite f => Sys2Proof.Machine.execMgmtWrite f s
  | .telemetry f => Sys2Proof.Machine.execTelemetry f s
  | .telemetryTimer => Sys2Proof.Machine.execTelemetryTimer s
  | .readAcct f => Sys2Proof.Machine.execReadAcct f s
  | .pullEvents f => Sys2Proof.Machine.execPullEvents f s
  | .eventFrameSend => Sys2Proof.Machine.execEventFrameSend s
  | .sgmiiLinkChange l => Sys2Proof.Machine.execSgmiiLinkChange l s
  | .mgmtFrameDrop => Sys2Proof.Machine.execMgmtFrameDrop s
  | .entdaa addr => Sys2Proof.Machine.execEntdaa addr s
  | .rstdaa => Sys2Proof.Machine.execRstdaa s
  | .enec int => Sys2Proof.Machine.execEnec int s
  | .disec int => Sys2Proof.Machine.execDisec int s
  | .getpid => Sys2Proof.Machine.execGetpid s
  | .getbcr => Sys2Proof.Machine.execGetbcr s
  | .getdcr => Sys2Proof.Machine.execGetdcr s
  | .getstatus => Sys2Proof.Machine.execGetstatus s
  | .getmxds => Sys2Proof.Machine.execGetmxds s
  | .ibiRetry => Sys2Proof.Machine.execIbiRetry s
  | .setEndpointId eid => Sys2Proof.Machine.execSetEndpointId eid s
  | .getEndpointId => Sys2Proof.Machine.execGetEndpointId s
  | .getMctpVersionSupport => Sys2Proof.Machine.execGetMctpVersionSupport s
  | .getMessageTypeSupport => Sys2Proof.Machine.execGetMessageTypeSupport s
  | .getVendorDefinedSupport => Sys2Proof.Machine.execGetVendorDefinedSupport s
  | .mgTmxSelect path k value => Sys2Proof.Machine.execMgTmxSelect path k value s
  | .mgCommit path value => Sys2Proof.Machine.execMgCommit path value s
  | .bypass => Sys2Proof.Machine.execBypass s
  | .idcode => Sys2Proof.Machine.execIdcode s
  | .samplePreload => Sys2Proof.Machine.execSamplePreload s
  | .extest => Sys2Proof.Machine.execExtest s
  | .clamp => Sys2Proof.Machine.execClamp s
  | .highz => Sys2Proof.Machine.execHighz s
  | .regacc => Sys2Proof.Machine.execRegacc s
  | .regaccRead dr => Sys2Proof.Machine.execRegaccRead dr s
  | .regaccWrite dr => Sys2Proof.Machine.execRegaccWrite dr s
  | .ijtag => Sys2Proof.Machine.execIjtag s
  | .instrumentOperation segment changes => Sys2Proof.Machine.execInstrumentOperation segment changes s
  | .testLogicReset w => Sys2Proof.Machine.execTestLogicReset w s
  | .powerOnReset resetN w => Sys2Proof.Machine.execPowerOnReset resetN w s
  | .go w => Sys2Proof.Machine.execGo w s
  | .pwrOkFall => Sys2Proof.Machine.execPwrOkFall s
  | .warmReset cause w => Sys2Proof.Machine.execWarmReset cause w s
  | .perstBeforeReady => Sys2Proof.Machine.execPerstBeforeReady s
  | .bar0UnmappedAccess fn isWrite off => Sys2Proof.Machine.execBar0UnmappedAccess fn isWrite off s
  | .registerWrite path off v => Sys2Proof.Machine.execRegisterWrite path off v s
  | .imageVerifyComplete n c => Sys2Proof.Machine.execImageVerifyComplete n c s
  | .selfTestKatEnd failing transient => Sys2Proof.Machine.execSelfTestKatEnd failing transient s
  | .hostCompletionTimeout fn => Sys2Proof.Machine.execHostCompletionTimeout fn s
  | .pcieLinkChange up width rate flit => Sys2Proof.Machine.execPcieLinkChange up width rate flit s
  | .resetNRise w => Sys2Proof.Machine.execResetNRise w s
  | .directedWaggleForward w => Sys2Proof.Machine.execDirectedWaggleForward w s
  | .remoteReadComplete n found => Sys2Proof.Machine.execRemoteReadComplete n found s
  | .piecePlacementComplete n => Sys2Proof.Machine.execPiecePlacementComplete n s
  | .nandLunFail lun => Sys2Proof.Machine.execNandLunFail lun s

end Sys2Proof.Machine
end

