-- ==== Sys2Proof/Safety.lean ====
section
/-!
DEFINITION. What counts as a good state and a safe step: the invariants that every command keeps, and a step that neither faults nor is
refused.
-/

namespace Sys2Proof.Machine

/-- The beat unit is in a state that R23 to R25 allow: at most 256 boundaries held, at most 16 edges in the run, a beat number only in
LOCKED and HOLDOVER, and none beyond the last. -/
structure BeatUnit.Ok (b : BeatUnit) : Prop where
  held : b.held ≤ 256
  run : b.run ≤ 16
  idle : b.state ≠ .locked → b.state ≠ .holdover → b.count = 0
  bound : b.count ≤ maxBeat

/-- The step neither faults nor is refused. -/
def StepSafe (s : State) : Prop := ∃ t, step s = .next t

/-- Power-up has begun: commands other than power and resets act (R394, R414). -/
def Powered (s : State) : Prop := s.boot.phase ≠ 0

/-- The state once a word is fetched: it is counted for its client, and what the fetch met of ECC is recorded (R41, R48, R221). -/
def fetchedAt (s : State) (c : CellId) (w : WorkerId) (win : Win) (i : Insn) : State :=
  cellEcc (charge (noteIssue s c.val w.val i) (ctxClient s win.ctx) 0 0 1) c.val (lineOf (win.base + (workerGet s c.val w.val).pc.toNat)) i.fetch

/-- The word issues on a worker and is a legal word of the row (R43, R45, R48, R51): the worker is READY on a powered cell with a window
of a RESIDENT context and it is its turn, its PC is below CODE, and the line it is fetched from is not poisoned. -/
structure Issues (s : State) (c : CellId) (w : WorkerId) (win : Win) (i : Insn) (r : Row) : Prop where
  power : Powered s
  word : rowOf i = some r
  window : winOf s c.val w.val = some win
  ready : canIssue s c.val w.val = true
  fetch : (workerGet s c.val w.val).pc.toNat < win.code
  clean : cellPoisoned (fetchedAt s c w win i) c.val (lineOf (win.base + (workerGet s c.val w.val).pc.toNat)) = false

/-- The state an instruction's effect starts from: the PC already past the word fetched. -/
def issued (s : State) (c : CellId) (w : WorkerId) (win : Win) (i : Insn) : State :=
  setPc (fetchedAt s c w win i) c.val w.val ((workerGet s c.val w.val).pc.toNat + 8)

/-- The issuing instruction as its effect sees it. -/
def issueOf (s : State) (c : CellId) (w : WorkerId) (win : Win) (i : Insn) : Issue :=
  { c := c.val, w := w.val, win := win, pc := (workerGet s c.val w.val).pc.toNat, i := i }

/-- Nothing but one worker of one cell has changed, apart from the accounts and the free values taken: every other cell and worker, the
cell's memory, ports, channels, engine and prism, the barriers, and every other block stand as they were. -/
structure OnlyWorker (s t : State) (c w : Nat) : Prop where
  blocks : t = { s with
    grid := { s.grid with cells := t.grid.cells }
    sched := { s.sched with acct := t.sched.acct, energyFrac := t.sched.energyFrac }
    freeCtr := t.freeCtr }
  cells : ∀ k, k ≠ c → cellGet t k = cellGet s k
  cell : cellGet t c = { cellGet s c with workers := (cellGet t c).workers, lastIssued := w, issues := (cellGet s c).issues + 1 }
  workers : ∀ k, k ≠ w → workerGet t c k = workerGet s c k

/-- A command packet starts at once: its function may have a command parsed, it passes rows 2 to 6 of R303 with R27 and R32, and neither a
FENCE, with the commands and unwritten replies before it, nor an earlier command of its ring makes it wait (R304). -/
structure Starts (s : State) (h : CmdHdr) (op : HostOp) : Prop where
  fetch : fetchOpen s h.fn.val = true
  checks : parseCheck s h op = .start
  first : ∀ x ∈ s.host.cmds, x.hdr.fn = h.fn → x.hdr.ring = h.ring → h.fence = false ∧ x.phase ≠ 0
  written : h.fence = true → ∀ r ∈ (fnGet s h.fn.val).queue, r.kind = 0 → r.ring ≠ h.ring.val

/-- A forager message is let in and acts at once (R141, R26, R32): a job is started, its role epoch is the device's, the device's role takes
its type, no reserved bit is set, the device has beat numbers or never had them, and its not-before beat has come. -/
structure LetIn (s : State) (m : FHdr) (cacheType : Bool) : Prop where
  power : Powered s
  job : jobStarted s = true
  status : msgStatus s m cacheType = stOk
  beat : s.beat.state ≠ .lost
  due : m.notBefore = 0 ∨ m.notBefore.toNat ≤ now s

/-- A home operation at the end of the queue of its handle. -/
def queuedOp (s : State) (h : DWord) (i : Instr) : State :=
  { s with forager := { s.forager with homeOps := s.forager.homeOps ++ [{ handle := h, msg := i, came := now s }] } }

/-- A packet of a type is delivered to this node whole and in time (R251 to R254, R264, R265). -/
structure Arrives (s : State) (arr : Option PortId) (p : Packet) (type : Byte) : Prop where
  power : Powered s
  kind : p.type = type
  header : pktHchkOk p = true
  known : pktTypeOk p = true
  span : pktSpanOk p = true
  assigned : s.fabric.node.isSome = true
  mine : pktNode p = nodeNum s
  whole : pktPcrcOk p = true
  inTime : packetLate (takenIn s arr p) p = false
  zero : p.resv = false
  form : pktFormOk p = true

/-- The commands that are events of the beat unit's table (R25) or reset it (R400): writes of BT_CTL, BT_COMMIT and registers in general,
edges, boundaries and markers, and the resets with GO. -/
def movesBeat : Instr → Bool
  | .btCtlEnable .. | .btCommit .. | .registerWrite .. | .beatEdge .. | .acquireEdgeTimeout | .beatBoundary .. | .holdoverExpiry ..
  | .beatCountOverflow .. | .marker .. | .testLogicReset .. | .powerOnReset .. | .go .. | .pwrOkFall | .warmReset .. | .resetNRise .. => true
  | _ => false

/-- The instruction word of a cell instruction's row. -/
def cellWord : Instr → Option Insn
  | .scalarAlu _ _ i => some i
  | .scalarLoad _ _ i _ => some i
  | .scalarStore _ _ i => some i
  | .amoadd _ _ i _ => some i
  | .amocas _ _ i _ => some i
  | .branch _ _ i => some i
  | .jal _ _ i => some i
  | .jalr _ _ i => some i
  | .vectorAlu _ _ i => some i
  | .vld _ _ i _ => some i
  | .vst _ _ i => some i
  | .vbcast _ _ i => some i
  | .vectorReduce _ _ i => some i
  | .vperm _ _ i => some i
  | .vext _ _ i => some i
  | .send _ _ i => some i
  | .recv _ _ i => some i
  | .probe _ _ i => some i
  | .dma _ _ i _ => some i
  | .bar _ _ i => some i
  | .waitc _ _ i => some i
  | .nop _ _ i => some i
  | .sysRd _ _ i => some i
  | .halt _ _ i => some i
  | .semacq _ _ i => some i
  | .semrel _ _ i => some i
  | .semtry _ _ i => some i
  | .semrd _ _ i => some i
  | .critEnter _ _ i => some i
  | .critExit _ _ i => some i
  | .semcancel _ _ i => some i
  | .semheld _ _ i => some i
  | .mma _ _ i => some i.insn
  | .mlda _ _ i => some i
  | .mst _ _ i => some i
  | .mstat _ _ i => some i
  | _ => none

end Sys2Proof.Machine
end

