-- ==== Sys2Proof/Certificates/Slice0/Obligations.lean ====
section
/-!
DEFINITION. The statements for the provers. Each says what the commands of one family do to a state that meets its conditions; the last
ones speak of every command, every step, and what reset leaves. A free value is written ∃, or as the operation that takes it.
-/

open Sys2Proof Sys2Proof.Machine

/-- R51, R52: the scalar results, jumps and branches. D ← A op B; a taken branch, JAL and JALR set the PC. A result that the spec leaves
open is a free value (log entries 1 to 3). -/
def Obligations.ScalarInstructions : Prop :=
  ∀ (s : State) (c : CellId) (w : WorkerId) (win : Win) (i : Insn),
    let u := issued s c w win i
    let x := issueOf s c w win i
    (Issues s c w win i .scalarAlu →
      let r := resolve u 64 (scalarOp (iOpNum i % 16) (x.g u (iA i)) (x.bOrImm u))
      exec (.scalarAlu c w i) s = .next (quiet s (setG r.2 c.val w.val (iD i) r.1))) ∧
    (Issues s c w win i .branch →
      exec (.branch c w i) s = .next (quiet s
        (if branchTaken (iOpNum i) (x.g u (iD i)) (x.g u (iA i)) then setPc u c.val w.val ((x.pc + 8 * x.bOrImm u) % 2 ^ 64) else u))) ∧
    (Issues s c w win i .jal →
      exec (.jal c w i) s = .next (quiet s
        (setPc (setG u c.val w.val (iD i) (x.pc + 8)) c.val w.val ((x.pc + 8 * x.bOrImm u) % 2 ^ 64)))) ∧
    (Issues s c w win i .jalr →
      exec (.jalr c w i) s = .next (quiet s
        (setPc (setG u c.val w.val (iD i) (x.pc + 8)) c.val w.val ((x.g u (iA i) + x.bOrImm u) % 2 ^ 64 / 8 * 8))))

/-- R45, R46, R48, R51: loads and stores of local memory. An access that is aligned, in its window, above CODE for a store, and for a
load meets no poisoned line, reads or writes the bytes at BASE + A + IMM. -/
def Obligations.LocalLoadsAndStores : Prop :=
  ∀ (s : State) (c : CellId) (w : WorkerId) (win : Win) (i : Insn) (e : Ecc),
    let u := issued s c w win i
    let x := issueOf s c w win i
    let a := (x.g u (iA i) + x.bOrImm u) % 2 ^ 64
    let n := accessBytes (iOp i)
    let m := cellEcc u c.val (lineOf (win.base + a)) e
    (Issues s c w win i .scalarLoad → accessFault win a n false = none → cellPoisoned m c.val (lineOf (win.base + a)) = false →
      let v := leNat (cellRead m c.val (win.base + a) n)
      exec (.scalarLoad c w i e) s = .next (quiet s
        (setG m c.val w.val (iD i) (if iOp i < 0x24 then v else ofInt 64 (sInt (8 * n) v))))) ∧
    (Issues s c w win i .scalarStore → accessFault win a n true = none →
      exec (.scalarStore c w i) s = .next (quiet s (cellWrite u c.val (win.base + a) (leBytes n (x.g u (iD i)))))) ∧
    (Issues s c w win i .vld → accessFault win a 64 false = none → cellPoisoned m c.val (lineOf (win.base + a)) = false →
      exec (.vld c w i e) s = .next (quiet s
        (setV m c.val w.val (iD i) (bytesVReg (cellRead m c.val (win.base + a) 64))))) ∧
    (Issues s c w win i .vst → accessFault win a 64 true = none →
      exec (.vst c w i) s = .next (quiet s (cellWrite u c.val (win.base + a) (vregBytes (x.v u (iD i))))))

/-- R51: AMOADD adds D to the word at A + IMM; AMOCAS stores D where the word equals its comparand. What D holds afterwards, and the
comparand of the immediate form, are free values (log entry 1). -/
def Obligations.AtomicInstructions : Prop :=
  ∀ (s : State) (c : CellId) (w : WorkerId) (win : Win) (i : Insn) (e : Ecc),
    let u := issued s c w win i
    let x := issueOf s c w win i
    let a := (x.g u (iA i) + x.bOrImm u) % 2 ^ 64
    let m := cellEcc u c.val (lineOf (win.base + a)) e
    let old := leNat (cellRead m c.val (win.base + a) 8)
    accessFault win a 8 true = none → cellPoisoned m c.val (lineOf (win.base + a)) = false →
    (Issues s c w win i .amoadd →
      ∃ d, exec (.amoadd c w i e) s = .next (quiet s
        (setG { cellWrite m c.val (win.base + a) (leBytes 8 ((old + x.g m (iD i)) % 2 ^ 64)) with freeCtr := m.freeCtr + 1 }
          c.val w.val (iD i) d))) ∧
    (Issues s c w win i .amocas →
      ∃ k d, exec (.amocas c w i e) s = .next (quiet s
        (setG { (if old = k then cellWrite m c.val (win.base + a) (leBytes 8 (x.g m (iD i))) else m) with freeCtr := m.freeCtr + 2 }
          c.val w.val (iD i) d)))

/-- R51, R52: the vector results; a conversion between f32 and bf16 narrows or widens lanes. Lanes the spec leaves open are free values (log
entries 1 to 3). -/
def Obligations.VectorInstructions : Prop :=
  ∀ (s : State) (c : CellId) (w : WorkerId) (win : Win) (i : Insn),
    let u := issued s c w win i
    let x := issueOf s c w win i
    let n := laneBits (iW i)
    let ls := lanesOf (x.v u (iA i)) (iW i)
    (Issues s c w win i .vectorAlu → iOpNum i = 0x12 →
      ∃ f, exec (.vectorAlu c w i) s = .next (quiet s
        (setV { u with freeCtr := u.freeCtr + 1 } c.val w.val (iD i) (cvtF32Bf (x.v u (iA i)) f)))) ∧
    (Issues s c w win i .vectorAlu → iOpNum i = 0x13 →
      ∃ f, exec (.vectorAlu c w i) s = .next (quiet s
        (setV { u with freeCtr := u.freeCtr + 1 } c.val w.val (iD i) (cvtBf32 (x.v u (iA i)) f)))) ∧
    (Issues s c w win i .vectorAlu → iOpNum i ≠ 0x12 → iOpNum i ≠ 0x13 →
      let r := resolveLanes u n ((List.range (512 / n)).map fun k =>
        vectorLane (iW i) (iOpNum i) (lane (x.v u (iA i)) n k) (x.bLane u k)
          (if iImmForm i then none else some (lane (x.v u (iC i)) n k)))
      exec (.vectorAlu c w i) s = .next (quiet s (setV r.2 c.val w.val (iD i) r.1))) ∧
    (Issues s c w win i .vbcast →
      exec (.vbcast c w i) s = .next (quiet s
        (setV u c.val w.val (iD i) (ofLanes n (List.replicate (512 / n) (x.g u (iA i))))))) ∧
    (Issues s c w win i .vectorReduce →
      let r := resolveLanes u n (reduceLanes n (iOpNum i) ls :: List.replicate (ls.length - 1) .any)
      exec (.vectorReduce c w i) s = .next (quiet s (setV r.2 c.val w.val (iD i) r.1))) ∧
    (Issues s c w win i .vperm →
      let r := resolveLanes u n ((List.range ls.length).map fun k =>
        if x.bLane u k < ls.length then .is (ls.getD (x.bLane u k) 0) else .any)
      exec (.vperm c w i) s = .next (quiet s (setV r.2 c.val w.val (iD i) r.1))) ∧
    (Issues s c w win i .vext →
      let k := if iImmForm i then iImm i else lane (x.v u (iB i)) n 0
      let r := resolve u 64 (if k < ls.length then Res.both (ls.getD k 0) (ofInt 64 (sInt n (ls.getD k 0))) else .any)
      exec (.vext c w i) s = .next (quiet s (setG r.2 c.val w.val (iD i) r.1)))

/-- R54: a bound port with a credit sends, else the worker waits; a bound channel gives its oldest message and returns a credit, else
the worker waits; PROBE counts what waits. R54: a message in flight is given to the first waiting RECV or queued where the binding is
that of its context; a credit lets the first waiting SEND go, or is counted. -/
def Obligations.Messages : Prop :=
  (
    ∀ (s : State) (c : CellId) (w : WorkerId) (win : Win) (i : Insn),
      let u := issued s c w win i
      let x := issueOf s c w win i
      let n := iImm i
      (∀ p, Issues s c w win i .send → tget (cellGet u c.val).ports n = some p → p.ctx = win.ctx → cellOn u p.dstCell = true →
        exec (.send c w i) s = .next (quiet s
          (if 0 < p.credits ∧ p.waiters = [] then
            sendMsg (portSet u c.val n { p with credits := p.credits - 1 }) c.val n p (x.v u (iA i))
          else setWait (portSet u c.val n { p with waiters := p.waiters ++ [(w.val, iA i)] }) c.val w.val (.send n (iA i))))) ∧
      (∀ ch m rest, Issues s c w win i .recv → tget (cellGet u c.val).chans n = some ch → ch.ctx = win.ctx → ch.queue = m :: rest →
        exec (.recv c w i) s = .next (quiet s
          (returnCredit (setV (chanSet u c.val n { ch with queue := rest }) c.val w.val (iD i) m) ch.srcCell ch.srcPort))) ∧
      (∀ ch, Issues s c w win i .recv → tget (cellGet u c.val).chans n = some ch → ch.ctx = win.ctx → ch.queue = [] →
        exec (.recv c w i) s = .next (quiet s
          (setWait (chanSet u c.val n { ch with waiters := ch.waiters ++ [(w.val, iD i)] }) c.val w.val (.recv n (iD i))))) ∧
      (∀ ch, Issues s c w win i .probe → tget (cellGet u c.val).chans n = some ch → ch.ctx = win.ctx →
        exec (.probe c w i) s = .next (quiet s (setG u c.val w.val (iD i) ch.queue.length)))) ∧ (
    ∀ (s : State) (c : CellId) (p : Fin 32), Powered s →
      (∀ m ch, nextOnPath s c.val p.val = some m →
        tget (cellGet s m.dstCell).chans m.channel = some ch → ch.ctx = m.ctx → ch.srcCell = c.val →
        let u := { s with grid := { s.grid with msgs := removeFirst (fun m => m.srcCell == c.val && m.port == p.val) s.grid.msgs } }
        (ch.waiters = [] →
          exec (.messageArrival c p) s = .next (quiet s (chanSet u m.dstCell m.channel { ch with queue := ch.queue ++ [m.data] }))) ∧
        (∀ w d rest, ch.waiters = (w, d) :: rest →
          exec (.messageArrival c p) s = .next (quiet s
            (returnCredit (wake (setV (chanSet u m.dstCell m.channel { ch with waiters := rest }) m.dstCell w d m.data) m.dstCell w)
              ch.srcCell ch.srcPort)))) ∧
      (∀ q, s.grid.credits.contains (c.val, p.val) = true → tget (cellGet s c.val).ports p.val = some q →
        let u := { s with grid := { s.grid with credits := removeFirst (· == (c.val, p.val)) s.grid.credits } }
        (q.waiters = [] → exec (.creditReturn c p) s = .next (quiet s (portSet u c.val p.val { q with credits := q.credits + 1 }))) ∧
        (∀ w v rest, q.waiters = (w, v) :: rest →
          let t := portSet u c.val p.val { q with waiters := rest }
          exec (.creditReturn c p) s = .next (quiet s
            (wake (sendMsg t c.val p.val q (vGet (workerGet t c.val w) v)) c.val w)))))

/-- R51, R53, R55, R42: BAR adds an arrival and waits; WAITC waits until the counter is at least g register A; NOP only advances the PC;
SYS.RD reads a system value; HALT halts until the next block. A barrier whose arrivals have reached its count releases its waiters. R53:
what SYS.RD reads. PHASE (6) and CYCLE (7) depend on time within the beat and are free values (log entry 4). -/
def Obligations.WaitsAndSystemValues : Prop :=
  (
    ∀ (s : State) (c : CellId) (w : WorkerId) (win : Win) (i : Insn),
      let u := issued s c w win i
      let x := issueOf s c w win i
      (∀ b : Barrier, Issues s c w win i .bar → tget u.grid.barriers (iImm i) = some b → b.ctx = win.ctx →
        let b' : Barrier := { b with arrivals := b.arrivals + 1, waiting := b.waiting ++ [(c.val, w.val)] }
        exec (.bar c w i) s = .next (quiet s
          (setWait { u with grid := { u.grid with barriers := tset u.grid.barriers (iImm i) b' } } c.val w.val (.barrier (iImm i))))) ∧
      (Issues s c w win i .waitc →
        exec (.waitc c w i) s = .next (quiet s
          (if x.g u (iA i) ≤ ctrGet (workerGet u c.val w.val) (iD i % 4) then u
          else setWait u c.val w.val (.counter (iD i % 4) (BitVec.ofNat 64 (x.g u (iA i))))))) ∧
      (Issues s c w win i .nop → exec (.nop c w i) s = .next (quiet s u)) ∧
      (Issues s c w win i .halt →
        exec (.halt c w i) s = .next (quiet s (workerSet u c.val w.val { workerGet u c.val w.val with state := .halted }))) ∧
      (Powered s → ∀ (n : BitVec 8) (b : Barrier), tget s.grid.barriers n.toNat = some b → b.expected ≤ b.arrivals →
        exec (.barrierRelease n) s = .next (quiet s
          (b.waiting.foldl (fun s q => wake s q.1 q.2)
            { s with grid := { s.grid with barriers := tset s.grid.barriers n.toNat { b with arrivals := 0, waiting := [] } } })))) ∧ (
    ∀ (s : State) (c : CellId) (w : WorkerId) (win : Win) (i : Insn), Issues s c w win i .sysRd →
      let u := issued s c w win i
      let is := fun v => exec (.sysRd c w i) s = .next (quiet s (setG u c.val w.val (iD i) v))
      (iImm i = 0 → is c.val) ∧ (iImm i = 1 → is w.val) ∧ (iImm i = 2 → is win.ctx) ∧ (iImm i = 3 → is (ctxClient u win.ctx)) ∧
      (iImm i = 4 → is (now u)) ∧ (iImm i = 5 → is (frameOffset u)) ∧ (iImm i = 8 → is win.size) ∧ (iImm i = 9 → is win.code) ∧
      (iImm i = 6 ∨ iImm i = 7 →
        ∃ v, exec (.sysRd c w i) s = .next (quiet s (setG { u with freeCtr := u.freeCtr + 1 } c.val w.val (iD i) v))))

/-- R213, R214: the semaphore operations on a semaphore LIVE for the context's client. SEM.ACQ queues its units and requests are granted
in order; SEM.REL returns units the context holds; SEM.TRY takes units only when none waits and enough are there; SEM.RD and SEM.HELD
read; SEM.CANCEL withdraws the worker's requests. R215: CRIT.ENTER opens a critical section while fewer than 255 are open, CRIT.EXIT
closes one; each faults with ILLEGAL otherwise. -/
def Obligations.SemaphoresAndCriticalSections : Prop :=
  (
    ∀ (s : State) (c : CellId) (w : WorkerId) (win : Win) (i : Insn) (m : Sem),
      let u := issued s c w win i
      let x := issueOf s c w win i
      let n := x.g u (iA i)
      let k := iImm i
      semOf u (iImm i % 1024) = some m → m.client = ctxClient u win.ctx →
      (Issues s c w win i .semacq → n ≤ 65535 →
        exec (.semacq c w i) s = .next (quiet s
          (if n = 0 then incCounter u c.val w.val (iD i % 4)
          else grantSem (semSet u k { m with
            queue := m.queue ++ [{ cell := c.val, worker := w.val, ctx := win.ctx, units := n, ctr := iD i % 4 }] }) k))) ∧
      (Issues s c w win i .semrel → n ≤ tgetD m.held win.ctx 0 →
        exec (.semrel c w i) s = .next (quiet s
          (grantSem (semSet u k { m with
            count := m.count + n, held := tsetD m.held win.ctx (tgetD m.held win.ctx 0 - n) 0 }) k))) ∧
      (Issues s c w win i .semtry →
        exec (.semtry c w i) s = .next (quiet s
          (if m.queue = [] ∧ n ≤ m.count then
            setG (semSet u k { m with count := m.count - n, held := tsetD m.held win.ctx (tgetD m.held win.ctx 0 + n) 0 }) c.val w.val (iD i) 1
          else setG u c.val w.val (iD i) 0))) ∧
      (Issues s c w win i .semrd → exec (.semrd c w i) s = .next (quiet s (setG u c.val w.val (iD i) m.count))) ∧
      (Issues s c w win i .semheld →
        exec (.semheld c w i) s = .next (quiet s (setG u c.val w.val (iD i) (tgetD m.held win.ctx 0)))) ∧
      (Issues s c w win i .semcancel →
        let mine := fun (q : SemReq) => q.cell == c.val && q.worker == w.val
        exec (.semcancel c w i) s = .next (quiet s
          (grantSem (setG (semSet u k { m with queue := m.queue.filter fun q => !mine q }) c.val w.val (iD i)
            (m.queue.filter mine).length) k)))) ∧ (
    ∀ (s : State) (c : CellId) (w : WorkerId) (win : Win) (i : Insn),
      let u := issued s c w win i
      let k := (workerGet u c.val w.val).crit
      let pc := (workerGet s c.val w.val).pc.toNat
      (Issues s c w win i .critEnter →
        (k < 255 → exec (.critEnter c w i) s = .next (quiet s (workerSet u c.val w.val { workerGet u c.val w.val with crit := k + 1 }))) ∧
        (255 ≤ k → exec (.critEnter c w i) s = .next (quiet s (takeFault u c.val w.val pc causeIllegal 0)))) ∧
      (Issues s c w win i .critExit →
        (0 < k → exec (.critExit c w i) s = .next (quiet s (workerSet u c.val w.val { workerGet u c.val w.val with crit := k - 1 }))) ∧
        (k = 0 → exec (.critExit c w i) s = .next (quiet s (takeFault u c.val w.val pc causeIllegal 0)))))

/-- R71, R73, R74, R100: on a cell whose engine the context owns, MMA with a legal mode word and operands in range, MLDA and MST with rows in
range join the engine's queue while fewer than 16 are there; a compressed MMA joins with the slot that its descriptor passes for, whose
reference count it raises, or with the status that the descriptor fails with; MSTAT answers the status word. While 16 are queued MMA, MLDA
and MST wait at their own PC: the state stands. -/
def Obligations.MatrixInstructions : Prop :=
  ∀ (s : State) (c : CellId) (w : WorkerId) (win : Win) (i : Insn) (ecc : Ecc),
    let u := issued s c w win i
    let x := issueOf s c w win i
    let a := x.g u (iA i)
    let m := x.g u (iB i)
    let f := futureTile (engGet u c.val) (bits (iD i) 1 0)
    let imm := iImm i
    let stride := bits imm 31 16 * 64
    (queueFull s c.val = true →
      (Issues s c w win i .mma → exec (.mma c w ⟨i, ecc⟩) s = .next s) ∧ (Issues s c w win i .mlda → exec (.mlda c w i) s = .next s) ∧
      (Issues s c w win i .mst → exec (.mst c w i) s = .next s)) ∧
    (win.engine = true → queueFull s c.val = false → a % 64 = 0 →
      (Issues s c w win i .mma → mResvOk m = true → mAfmt m < 7 → mBfmt m < 7 → pairOk (mAfmt m) (mBfmt m) = true →
        0 < mNk m → mKoff m + mNk m ≤ 8 → (mZero m = true ∨ f = (fmtInt (mAfmt m), mRows m)) →
        let op := fun slot fail desc => MatInsn.mma (bits (iD i) 1 0) (bit (iD i) 2) a (BitVec.ofNat 64 m) slot fail desc
        (mBcomp m = false → a + mNk m * bBlockBytes (mBfmt m) ≤ win.size →
          exec (.mma c w ⟨i, ecc⟩) s = .next (quiet s (x.enqueue u (op none none [])))) ∧
        (mBcomp m = true → (mBfmt m = 0 ∨ mBfmt m = 1 ∨ mBfmt m = 3) → a + 64 ≤ win.size →
          let v := cellEcc u c.val (lineOf (win.base + a)) ecc
          let bs := cellRead v c.val (win.base + a) 64
          let d := parseCbDesc bs
          let r := checkCbDesc v c.val win (ctxProt v win.ctx) (cellPoisoned v c.val (lineOf (win.base + a))) (mBfmt m) (mNk m) d
          (∀ st, r = .inl st →
            exec (.mma c w ⟨i, ecc⟩) s = .next (quiet s (x.enqueue (prismFail v c.val a d.version 0 st) (op none (some st) bs)))) ∧
          (∀ j, r = .inr j →
            exec (.mma c w ⟨i, ecc⟩) s = .next (quiet s
              (x.enqueue (slotSet v c.val j { slotGet v c.val j with refs := (slotGet v c.val j).refs + 1 }) (op (some j) none bs)))))) ∧
      (Issues s c w win i .mlda →
        let rows := bits imm 5 0 + 1
        let kb := bits imm 8 6 + 1
        let fp4 := bit imm 9 == 1
        (stride ≠ 0 ∨ rows ≤ 1) → a + rowsSpan rows stride (32 * kb + (if fp4 then 2 * kb else 0)) ≤ win.size →
        exec (.mlda c w i) s = .next (quiet s (x.enqueue u (.mlda (bit (iD i) 0) a rows kb fp4 stride)))) ∧
      (Issues s c w win i .mst →
        let fmt := bits imm 3 0
        (stride ≠ 0 ∨ f.2 ≤ 1) → fmt < 7 → (f.1 = decide (5 ≤ fmt)) → 0 < f.2 → win.code ≤ a →
        a + rowsSpan f.2 stride (64 * outBytes fmt) ≤ win.size →
        exec (.mst c w i) s = .next (quiet s (x.enqueue u (.mst (bits (iD i) 1 0) a fmt stride f.2))))) ∧
    (win.engine = true → Issues s c w win i .mstat →
      let e := engGet u c.val
      exec (.mstat c w i) s = .next (quiet s
        (setG u c.val w.val (iD i)
          (tileBits e (fun t => !t.poison.isEmpty) + 16 * tileBits e (fun t => t.isInt && !t.sat.isEmpty) +
            256 * e.queue.length + 8192 * b2n e.failed))))

/-- R74, R75, R77, R79, R82, R84, R104: the engine's completions. The oldest MMA that may stream, with the findings of its check in row order
up to the first permanent one, writes its tile and is charged the cclk it streamed; the oldest MLDA fills its A buffer's rows; the oldest
MST writes its tile's rows to local memory. Each leaves the queue and increments its worker's counter where CEN is set. R87, R88, R326: a
cold engine with an MMA queued starts its first stream at the stagger count 4 × (c mod 32); the governor's hold on an engine is dropped when
its start fits the slew limit and taken when it does not. -/
def Obligations.EngineEvents : Prop :=
  (
    ∀ (s : State) (c : CellId) (win : Win), Powered s →
      let e := engGet s c.val
      (∀ (mism : List Mismatch) (found : EngineFound) op rest t b addr mode slot fail desc,
        takeMat isMma [] e.queue = some (op, rest) → op.insn = .mma t b addr mode slot fail desc →
        winOfCtx s c.val op.ctx = some win →
        let m := mode.toNat
        let streams := !(e.failed || fail.isSome)
        (streams = true → engineHeld s c.val = false ∧ e.cold = false) →
        let v := if streams then engineFindings s c.val win op.insn found else found.own.foldl (fun s x => engineEcc s c.val x) s
        let l := if streams then settledPart (settledOrder m op.skip mism) else []
        let v := match l.find? (fun x => !x.repeatPasses) with
          | some x => countCodes v c.val win op.insn (x.block.val - mKoff m + 1) op.skip
          | none => v
        let r := mmaTile (l.foldl (fun s x => applyMismatch t s c.val x) v) c.val win op.insn (mNk m) op.skip
        let dual := dualRun r c.val
        let r := if streams then streamed r c.val op.ctx m dual (streamCycles m op.skip dual l) else r
        exec (.mmaComplete c mism found) s = .next (quiet s (finishMat (engSet r c.val { engGet r c.val with queue := rest }) c.val op))) ∧
      (∀ (found : EngineFound) op rest b addr rows kb fp4 stride,
        takeMat isMlda [] e.queue = some (op, rest) → op.insn = .mlda b addr rows kb fp4 stride → winOfCtx s c.val op.ctx = some win →
        let v := engineFindings s c.val win op.insn found
        let len := 32 * kb + (if fp4 then 2 * kb else 0)
        let bad := (List.range rows).filter fun r => cellRangePoisoned v c.val (win.base + addr + r * stride) len
        let buf := (List.range rows).foldl (fun (x : ABuf) r =>
          let row := cellRead v c.val (win.base + addr + r * stride) len
          { data := mwrite x.data (r * 256) (row.take (32 * kb))
            scale := if fp4 then mwrite x.scale (r * 16) (row.drop (32 * kb)) else x.scale
            poison := if bad.contains r then insertNat r x.poison else if kb = 8 then x.poison.filter (· != r) else x.poison })
          (bufOfEng (engGet v c.val) b)
        let r := engSet v c.val { engGet v c.val with bufs := tset (engGet v c.val).bufs b buf, queue := rest }
        exec (.mldaComplete c found) s = .next (quiet s (finishMat (if bad = [] then r else setEvent r (rMxEvent c.val) 2) c.val op))) ∧
      (∀ (ecc : List EngineEcc) op rest t addr fmt stride rows,
        takeMat isMst [] e.queue = some (op, rest) → op.insn = .mst t addr fmt stride rows → winOfCtx s c.val op.ctx = some win →
        let v := ecc.foldl (fun s x => engineEcc s c.val x) s
        let x := tileOfEng (engGet v c.val) t
        let r := (List.range rows).foldl (fun s r =>
          cellWrite s c.val (win.base + addr + r * stride)
            ((List.range 64).flatMap fun n => leBytes (outBytes fmt) (storeElem fmt (tgetD x.vals (r * 64 + n) 0))) (x.poison.contains r)) v
        exec (.mstComplete c ecc) s = .next (quiet s (finishMat (engSet r c.val { engGet r c.val with queue := rest }) c.val op)))) ∧ (
    ∀ (s : State) (c : CellId), Powered s →
      let e := engGet s c.val
      (∀ count, e.cold = true → e.queue.any (fun op => isMma op.insn) = true → count % 128 = 4 * (c.val % 32) →
        exec (.engineStaggerStart c count) s = .next (quiet s (engSet s c.val { e with cold := false, streaming := true }))) ∧
      (∀ fits, exec (.governorHoldRelease c fits) s =
        .next (quiet s (if e.held = fits then engSet s c.val { e with held := !fits } else s))))

/-- R56, R57, R58: DMA reads its descriptor as it issues; beyond 32 in flight the worker waits. A descriptor that may start and meets no
refusal of R57 starts, one refused ends with the status, and a refused write to a sealed range is flagged (R360); at completion its data is
moved, STATUS written and its counter incremented. -/
def Obligations.DmaTransfers : Prop :=
  ∀ (s : State) (c : CellId),
    (∀ (w : WorkerId) (win : Win) (i : Insn) (e : Ecc), Issues s c w win i .dma →
      let u := issued s c w win i
      let x := issueOf s c w win i
      let a := (x.g u (iA i) + x.bOrImm u) % 2 ^ 64
      let m := cellEcc u c.val (lineOf (win.base + a)) e
      accessFault win a 64 false = none → cellPoisoned m c.val (lineOf (win.base + a)) = false →
      let r := takeDma m c.val w.val win a
      (r.2 = none → exec (.dma c w i e) s = .next (quiet s r.1)) ∧
      (∀ id, r.2 = some id → exec (.dma c w i e) s = .next (quiet s (setWait r.1 c.val w.val (.dmaSlot id))))) ∧
    (∀ n d, Powered s → dmaOf s c.val n = some d → dmaMayStart s c.val d = true →
      (∀ st, checkDma s c.val d = .inl st →
        exec (.dmaDescriptorStart c n) s = .next (quiet s
          (finishDma (if d.dstSpace = 2 ∧ sealedRange s d.dst d.len = true ∧ st = stRights then sealRefused s else s) c.val n st))) ∧
      (∀ a b, checkDma s c.val d = .inr (a, b) →
        let v := dmaMod s c.val n fun d => { d with started := true, srcAt := a, dstAt := b }
        (d.srcSpace ≠ 3 → d.dstSpace ≠ 3 → exec (.dmaDescriptorStart c n) s = .next (quiet s v)) ∧
        (d.srcSpace = 3 ∨ d.dstSpace = 3 →
          (∀ st, ownNodeStatus v d = some st → exec (.dmaDescriptorStart c n) s = .next (quiet s (finishDma v c.val n st))) ∧
          (ownNodeStatus v d = none →
            exec (.dmaDescriptorStart c n) s = .next (quiet s (dmaMod v c.val n fun d => { d with linesToIssue := d.len / 128 })))))) ∧
    (∀ n d (found : Findings), Powered s → dmaOf s c.val n = some d → d.started = true → d.srcSpace ≠ 3 → d.dstSpace ≠ 3 →
      dmaToLens s d = false →
      let v := sourceEcc s d.srcSpace d.srcAt d.len found
      let r := moveLines (ctxClient v d.ctx) d.srcSpace d.dstSpace d.srcAt d.dstAt (d.len / 64) v
      exec (.dmaCompletion c n found) s = .next (quiet s
        (finishDma r.1 c.val n (if r.2.2 then stNoResource else if r.2.1 then stPoisoned else stOk))))

/-- R48, R122, R127, R94: the patrol scrub of cell memory moves on by one line of 20,480; a slot of a stage's ring is filled, which may end
the step; a collective's result is written to its destination; a codebook's copies are marked, to become LIVE at the next boundary. -/
def Obligations.CellAndCacheEvents : Prop :=
  ∀ (s : State), Powered s →
    (∀ found : List (CellId × Ecc), cfld s rClCfg 3 0 ≠ 0 →
      let v := found.foldl (fun s f => if cellOn s f.1.val then cellEcc s f.1.val s.grid.scrub f.2 else s) s
      exec (.patrolScrub found) s = .next (quiet s { v with grid := { v.grid with scrub := (v.grid.scrub + 1) % 20480 } })) ∧
    (∀ (h : DWord) (layer : Nat) (c : CellId) (found : Findings) st d x l,
      s.cache.stages.find? (fun (x : Stage) => x.handle == h && x.layer == layer) = some st → descOf s h = some d →
      stepOf s h = some x → descLayout s d = some l →
      exec (.stageSlotFill h layer ⟨c, found⟩) s = .next (quiet s
        (settle (tryEndStep (fillSlotOf s l st x.ctx x.e c.val found) h)))) ∧
    (∀ (n : Nat) (inputs : List (List Word)) q w, s.cache.colls.find? (fun c => c.id == n) = some q →
      winOfCtx s q.dst.cell q.ctx = some w →
      let member := (s.sched.image.map fun p => p.1.main.member).getD 0
      let ins := (inputs.mapIdx fun i x => if i = member then q.own else x).map fun x => x.map (·.toNat)
      let out := if q.lse then (List.range (q.src.len / (q.dh + 2))).flatMap fun r => collLse ins q.dh (r * (q.dh + 2))
        else (List.range q.src.len).map (collSum ins)
      exec (.collectiveComplete n inputs) s = .next (quiet s
        (cellWrite (collStatus { s with cache := { s.cache with colls := s.cache.colls.filter fun x => x.id != n } } q.ctx stOk) q.dst.cell
          (w.base + q.dst.addr) (out.flatMap (leBytes 4)) q.poison))) ∧
    (∀ n, exec (.codebookCopyComplete n) s = .next (quiet s (settle
      ((slotsWhere s fun x => x.state == .loading && x.cmd == n).foldl (fun s q =>
        slotSet s q.1 q.2 { slotGet s q.1 q.2 with copied := true }) s))))

/-- R173, R174, R177 to R180, R193: a request handed to the lens by DMA joins its queue. The request at the head, of a step that does
not recompute and with no refusal, is served: DRAFT samples one token and stores it, and one that is EOS ends the drafts; VERIFY accepts the
drafts its samples meet and logs them; FIRST logs the first token. -/
def Obligations.LensSampling : Prop :=
  ∀ (s : State), Powered s →
    (∀ (c : CellId) (n : Nat) (e : Ecc) d, dmaOf s c.val n = some d → d.started = true → dmaToLens s d = true → d.srcSpace ≠ 3 →
      lensOn s = true → s.lens.queue.length < 4096 →
      let v := sourceEcc s d.srcSpace d.srcAt 64 [(0, e)]
      let p := placeLine v d.srcSpace d.srcAt
      let q : LensReq := { bytes := bytesVReg p.1, client := ctxClient v d.ctx, ctx := d.ctx }
      exec (.lensRequest c n e) s = .next (quiet s
        (finishDma { v with lens := { v.lens with queue := v.lens.queue ++ [q] } } c.val n (if p.2 then stPoisoned else stOk)))) ∧
    (∀ (shadow : List ShadowEnd) (found : Findings) q x d,
      stepOf s q.handle = some x → x.recompute = false → reqStatus (popReq s) q = stOk → descOf (popReq s) q.handle = some d →
      let m : LensMeets := ⟨shadow, found⟩
      let r := popReq s
      (∀ v t, headReq s 0 = some q →
        let g := x.drafts.foldl (fun g (t : Word) => nextG r d g t.toNat) (sbGet r d 64 4)
        sampleAt r q d 0 (x.clen + q.j) g m = (v, .inr t) →
        let dl := if x.d ≠ 0 ∧ t = setupF d 28 4 then q.j else x.d
        let v := sbPut v d (124 + 4 * q.j) 4 t
        let v := if x.d = 0 then v else satAdd v rLnDrafts 31 0 1
        let v := stepMod v x.handle fun x => { x with
          lastJ := q.j, drafts := x.drafts ++ [BitVec.ofNat 32 t], tilde := if q.j = 1 then some (BitVec.ofNat 32 t) else x.tilde }
        let e := x.clen + dl + 1
        let v := if dl = x.d then v else
          descMod (stepMod (sbPut v d 80 1 dl) x.handle fun x => { x with d := dl, e := e }) x.handle fun d => { d with slen := e }
        exec (.draft ⟨shadow, found⟩) s = .next (quiet s (settle
          (writeResult v q t 0 ((if x.d = 0 then 4 else b2n (q.j == dl)) + 8 * b2n x.degraded) stOk (nextG v d g t))))) ∧
      (∀ v out g, headReq s 1 = some q → discarded r q = false →
        verifyLoop m q d x (remaining r d) (x.d + 1) r 0 (sbGet r d 64 4) [] = (v, .inr (out, g)) →
        let a := out.length - 1
        let v := sbPut (sbPut v d 64 4 g) d 68 4 (sbGet v d 68 4 + a + 1)
        let v := backOff (satAdd v rLnAccepted 31 0 a) d x.d a
        let v := writeResult v q (out.getLastD 0) a
          (2 * b2n (generationEnds v d (out.getLastD 0) (x.clen + a + 1)) + 8 * b2n x.degraded) stOk g
        let v := stepMod v q.handle fun x => { x with accepted := some a }
        exec (.verify ⟨shadow, found⟩) s = .next (quiet s (settle
          (tryEndStep (logTokens v q.handle (x.clen + 1) out (tokenStatus x)) q.handle)))) ∧
      (∀ v t, headReq s 2 = some q → sampleAt r q d 0 d.plen (sbGet r d 64 4) m = (v, .inr t) →
        let g := nextG v d (sbGet v d 64 4) t
        let v := sbPut (sbPut v d 64 4 g) d 68 4 (sbGet v d 68 4 + 1)
        let v := writeResult v q t 0 (2 * b2n (generationEnds v d t d.plen) + 8 * b2n x.degraded) stOk g
        let v := logTokens v q.handle d.plen [t] (if x.degraded then stOkDegraded else stOk)
        exec (.first ⟨shadow, found⟩) s = .next (quiet s (settle
          (if d.lead then v else tryEndStep (stepMod v q.handle fun x => { x with accepted := some 0 }) q.handle)))))

/-- R185, R189, R190: a copied grammar slot is marked, to become LIVE at the next boundary; a bank whose domain is on becomes
searchable; with SWEEP set the sweep repairs, in every bank that is on, what differs from the shadow at its entry, and moves on by one of
32,768. R208 to R210, R237: a context swapping out is drained once nothing of it is in flight, and its record is saved in its tiles; a context
swapping in is restored from its record, or aborted where the record's data is lost, or its code is copied where it has none. -/
def Obligations.LensUpkeepAndSwaps : Prop :=
  (
    ∀ (s : State), Powered s →
      (∀ slot : Fin 8, (gslotOf s slot.val).state = .loading →
        exec (.grammarCopyComplete slot) s = .next (quiet s (settle (gslotSet s slot.val { gslotOf s slot.val with copied := true })))) ∧
      (∀ b : Fin 64, s.lens.on.getLsbD b.val = true →
        exec (.bankSearchable b) s = .next (quiet s
          { s with lens := { s.lens with searchable := s.lens.searchable ||| BitVec.ofNat 64 (2 ^ b.val) } })) ∧
      (∀ upsets, cfld s rLnCfg 0 0 ≠ 0 →
        let i := s.lens.sweep
        let v := ((List.range 64).filter s.lens.on.getLsbD).foldl (fun s b =>
          sweepBank i (upsets.any fun d => d.1.val == b && d.2.val == i) s b) s
        exec (.shadowSweep upsets) s = .next (quiet s { v with lens := { v.lens with sweep := (i + 1) % 32768 } }))) ∧ (
    ∀ (s : State) (n : Nat) x rs (found : Findings), Powered s → ctxOf s n = some x → x.rs = some rs →
      (x.state = .swappingOut → drainDone s n = true →
        exec (.swapDrainComplete n) s = .next (quiet s
          (ctxMod s n fun x => if x.state == .swappingOut && drainDone s n then { x with drained := true } else x))) ∧
      (x.state = .swappingOut → x.drained = true → x.saved = false → x.force = false →
        ∃ r : SwapRec, r.rs = rs ∧ r.finished = x.finished ∧ r.discarded = x.discarded ∧ r.sems = x.semsOut ∧
          exec (.swapSaveComplete n) s = .next (quiet s
            (ctxMod (satAdd (putRecord (charge s x.client 5 9 ((((imageSlots s)[rs]?).map recordSize).getD 0)) x) rSqSwapCount 31 0 1) n
              fun x => { x with saved := true, record := some r }))) ∧
      (x.state = .swappingIn → x.restored = false → x.record = none →
        exec (.swapRestoreComplete ⟨n, found⟩) s = .next (quiet s
          (ctxMod (satAdd (copyCode (install s n rs) n rs) rSqSwapCount 31 0 1) n fun x => { x with restored := true, record := none }))) ∧
      (∀ r, x.state = .swappingIn → x.restored = false → x.record = some r →
        let v := readRecord s x found
        (recordLost v x = true →
          exec (.swapRestoreComplete ⟨n, found⟩) s = .next (quiet s (abortCtx v n stContextAborted))) ∧
        (recordLost v x = false →
          let v := install v n rs
          let v := charge v x.client 4 8 ((((imageSlots v)[r.rs]?).map recordSize).getD 0)
          exec (.swapRestoreComplete ⟨n, found⟩) s = .next (quiet s
            (ctxMod (satAdd (restoreRest (r.cells.foldl (fun s k => restoreCell s n k (mapCell s r.rs rs k.cell)) v) n rs r) rSqSwapCount 31 0 1)
              n fun x => { x with restored := true, record := none })))))

/-- R227, R231, R232: the next tile move that may start takes a place in its destination tier and becomes MOVING; at its switch the tile
lies in its new place, its old place is free, the move is charged to its client, and the request counts it. -/
def Obligations.TileMoves : Prop :=
  ∀ (s : State), Powered s →
    (∀ r t x p v, (moveHeads s).any (stuckPin s) = false → nextMove s = some (r, t) → tileGet s t = some x →
      takePlace s r.dest (moveComb s r t) t = some (p, v) →
      let w := tileSet v t { x with moving := some p }
      exec .tileMoveStart s = .next (quiet s (settle (settleMoves { w with tiers := { w.tiers with
        moves := w.tiers.moves ++ [{ tile := t, queue := tierOf x.place * 3 + r.dest, client := r.client }]
        reqs := w.tiers.reqs.map fun q =>
          if q.id == r.id then { q with tiles := q.tiles.filter (· != t), waiting := q.waiting ++ [t] } else q } })))) ∧
    (∀ t x p (found : Findings), tileGet s t = some x → x.moving = some p →
      let v := memoryFindings (countRead (countRead s (2 * t)) (2 * t + 1)) (t * tileSize) tileSize found
      ∀ y, tileGet v t = some y → y.moving = some p → placeFailed v y.place = false →
      let hadPoison := v.tiers.poison.any fun l => l / 512 == t
      let client := (v.tiers.moves.find? fun m => m.tile == t).bind fun m => m.client
      let v := chargeMove v t (tierOf y.place) (tierOf p) client
      let v := satAdd (tileSet (freePlace v y.place t) t { y with place := p, moving := none }) rMtMoved 31 0 1
      exec (.tileMoveSwitch t found) s = .next (quiet s (settle (answerPins (settleMoves { v with tiers := { v.tiers with
        moves := v.tiers.moves.filter fun m => m.tile != t
        reqs := v.tiers.reqs.map fun q =>
          if q.waiting.contains t then
            { q with waiting := q.waiting.filter (· != t), moved := q.moved + 1, poisoned := q.poisoned || hadPoison }
          else q } })))))

/-- R229, R360, R396: once READY, a BAR2 write of an enabled function, inside its BAR, that R229 admits and no seal covers is placed in
the range; a read that R229 admits answers the range's bytes. A refused access sets MT_EVENT.BAR2_REFUSED, a refused write is dropped, one to
a sealed range is recorded too, and a refused read completes with Unsupported Request. PF0's window is the boot window until its first write
to BAR0: a write there is staged. R238, R241: what the patrol scrubber meets on lines of HBM and DDR5 is recorded; a failed stack, and a
channel that has lost its training or met more than 16 uncorrectable lines in a beat, take no tile again and are recorded. -/
def Obligations.HostWindowAndMemoryFailures : Prop :=
  (
    ∀ (s : State) (f : FnId) (off : BitVec 38),
      let a := windowAt s f.val off.toNat
      (∀ bs, off.toNat + bs.length ≤ barSize s f.val → bootWindow s f.val = true →
        exec (.bar2Write f off bs) s = .next (quiet s (bootWrite s off.toNat bs))) ∧
      (s.boot.phase = 7 → fnEnabled s f.val = true → bootWindow s f.val = false →
        (∀ bs, off.toNat + bs.length ≤ barSize s f.val →
          (bar2Refused s f.val a bs.length = false → sealedRange s a bs.length = false →
            exec (.bar2Write f off bs) s = .next (quiet s (chargeBytes (rangeWrite s a bs).1 f.val a bs.length true))) ∧
          (bar2Refused s f.val a bs.length = true → exec (.bar2Write f off bs) s = .next (quiet s (noteBar2 s f.val))) ∧
          (bar2Refused s f.val a bs.length = false → sealedRange s a bs.length = true →
            exec (.bar2Write f off bs) s = .next (quiet s (sealRefused (noteBar2 s f.val))))) ∧
        (∀ n (found : Findings), off.toNat + n ≤ barSize s f.val →
          let v := memoryFindings s a n found
          (bar2Refused s f.val a n = false →
            exec (.bar2Read f off ⟨n, found⟩) s = .next (quiet s
              (emit (chargeBytes (touchRange v a n) f.val a n false) (.completion f.val (rangeRead v a n) (rangePoisoned v a n))))) ∧
          (bar2Refused s f.val a n = true →
            exec (.bar2Read f off ⟨n, found⟩) s = .next (quiet s (emit (noteBar2 s f.val) (.unsupported f.val))))))) ∧ (
    ∀ (s : State), Powered s →
      (∀ line x (e : Ecc), tileGet s (line / 512) = some x → tierOf x.place < 2 →
        exec (.memoryPatrolScrub [(line, e)]) s = .next (quiet s (memoryEcc s line e))) ∧
      (∀ n : Fin 20, s.tiers.hbmFailed.getLsbD n.val = false → s.tiers.hbmOut.getLsbD n.val = false →
        ∃ t, exec (.hbmStackFail n) s = .next t ∧ t.tiers.hbmFailed = s.tiers.hbmFailed ||| BitVec.ofNat 20 (2 ^ n.val) ∧
          t.tiers.freeHbm = terase s.tiers.freeHbm n.val ∧ t.tiers.tiles = s.tiers.tiles ∧ t.tiers.mem = s.tiers.mem) ∧
      (∀ (c : Fin 12) (lost : Bool) (found : List (Nat × Ecc)),
        let v := scrubLines s found
        (tgetD v.tiers.ddrState c.val 0 = 1 → lost = true ∨ 16 < tgetD v.tiers.ddrLines c.val 0 →
          ∃ t, exec (.ddrChannelFail c lost found) s = .next t ∧ t.tiers.ddrState = tset v.tiers.ddrState c.val 3 ∧
            t.tiers.freeDdr = terase v.tiers.freeDdr c.val ∧ t.tiers.tiles = v.tiers.tiles ∧ t.tiers.mem = v.tiers.mem) ∧
        (lost = false → tgetD v.tiers.ddrLines c.val 0 ≤ 16 → exec (.ddrChannelFail c lost found) s = .next (quiet s v))))

/-- R243 to R245: garbage collection empties the written block of a short LUN with the fewest pages valid, once its pages have moved; a
relocation that is due (the wear apart, the reads of the block, a marginal read, the hours since its program) does the same with its block; a
block whose program failed is emptied and leaves the pool, and a failed LUN loses its blocks. -/
def Obligations.NandUpkeep : Prop :=
  ∀ (s : State) (l : Nat), Powered s → (lunGet s l).dead = false →
    let x := lunGet s l
    let erased := fun (v : State) (b : Nat) =>
      lunSet v l { lunGet v l with blocks := tmod (lunGet v l).blocks b fun k => { erase := k.erase + 1 } }
    (∀ b k v, freeBlocks x * 50 < x.blocks.length →
      leastBlock (fun k => k.pages.length)
        (x.blocks.filter fun e => e.2.used != 0 && !((x.opened.map fun p => p.1 == e.1 || p.2 == e.1).getD false)) = some (b, k) →
      emptyBlock s l b = some v → exec (.nandGarbageCollect l) s = .next (quiet s (erased v b))) ∧
    (∀ b k c v, tget x.blocks b = some k → k.used ≠ 0 →
      ((c = .staticWear ∧ wornApart s x = some b) ∨ (c = .readDisturb ∧ cfld s rMtNandCfg 15 8 * 1024 ≤ k.reads) ∨
        (∃ retry percent, c = .marginalRead retry percent ∧ (4 < retry ∨ 75 < percent)) ∨
        (c = .retention ∧ k.programmed + 72 < s.power.wearHours)) →
      emptyBlock s l b = some v → exec (.nandRelocate l b c) s = .next (quiet s (erased v b))) ∧
    (∀ b v, emptyBlock s l b = some v →
      let w := lunSet v l { lunGet v l with blocks := terase (lunGet v l).blocks b }
      exec (.nandProgramFail l b) s = .next (quiet s
        (checkNandSpare { w with tiers := { w.tiers with spare := w.tiers.spare - 1, goodBlocks := w.tiers.goodBlocks - 1 } }))) ∧
    (∀ y, tget s.tiers.luns l = some y →
      let n := x.blocks.length
      let v := lunSet s l { dead := true }
      exec (.nandLunFail l) s = .next (quiet s
        (checkNandSpare { v with tiers := { v.tiers with spare := v.tiers.spare - n, goodBlocks := v.tiers.goodBlocks - n } })))

/-- R19, R25, R23: an edge within the window, the first of its beat, is accepted in LOCKED and HOLDOVER, and BT_EDGE_ERR reports its
offset; a stray one is counted. In ACQUIRING the first edge sets the phase, an edge out of time, and no edge in time, end the run, and one in
time adds to it; at the sixteenth in a row, the next edge locks a source at its first count. While boundary scan owns the pins no edge comes
in (R386). A marker of a port that is UP is kept for the choice of the reference port. -/
def Obligations.EdgesAndMarkers : Prop :=
  ∀ (s : State),
    (∀ offset : Int, scanOwnsPins s = true → exec (.beatEdge offset) s = .next s) ∧
    (∀ offset : Int, scanOwnsPins s = false →
      (s.beat.state = .unlocked → exec (.beatEdge offset) s = .next s) ∧
      (s.beat.state = .locked ∨ s.beat.state = .holdover →
        (offset.natAbs ≤ windowNs s → s.beat.accepted = false →
          ∃ t, exec (.beatEdge offset) s = .next t ∧ t.beat = { s.beat with accepted := true } ∧ rget t rBtEdgeErr = ofInt 16 offset)) ∧
      (s.beat.state = .locked ∨ s.beat.state = .holdover ∨ s.beat.state = .lost → windowNs s < offset.natAbs ∨ s.beat.accepted = true →
        exec (.beatEdge offset) s = .next (keepQueue s (setEvent (satAdd s rBtErrCount 15 0 1) rBtEvent 3))) ∧
      (s.beat.state = .acquiring → s.beat.phased = false →
        ∃ t, exec (.beatEdge offset) s = .next t ∧ t.beat.phased = true ∧ t.beat.run = s.beat.run ∧ t.beat.state = .acquiring ∧
          rget t rBtEdgeErr = 0) ∧
      (s.beat.state = .acquiring → s.beat.phased = true → windowNs s < offset.natAbs →
        exec (.beatEdge offset) s = .next (keepQueue s
          (setEvent (satAdd { s with beat := { s.beat with run := 0 } } rBtErrCount 15 0 1) rBtEvent 3))) ∧
      (s.beat.state = .acquiring → s.beat.phased = true → offset.natAbs ≤ windowNs s → s.beat.run < 16 →
        ∃ t, exec (.beatEdge offset) s = .next t ∧ t.beat.run = s.beat.run + 1 ∧ t.beat.state = .acquiring ∧
          rget t rBtEdgeErr = ofInt 16 offset) ∧
      (s.beat.state = .acquiring → s.beat.phased = true → offset.natAbs ≤ windowNs s → s.beat.run = 16 → isSource s = false →
        (s.beat.acqMarker = none → ∃ t, exec (.beatEdge offset) s = .next t ∧ t.beat = s.beat ∧ rget t rBtEdgeErr = ofInt 16 offset) ∧
        (∀ m, s.beat.acqMarker = some m → ∃ t, exec (.beatEdge offset) s = .next t ∧ t.beat.state = .locked ∧
          t.beat.count = min (m.2 + s.beat.acqEdges) maxBeat ∧ t.beat.held = 0)) ∧
      (s.beat.state = .acquiring → s.beat.phased = true → offset.natAbs ≤ windowNs s → s.beat.run = 16 → isSource s = true →
        ∃ t, exec (.beatEdge offset) s = .next t ∧ t.beat.state = .locked ∧ t.beat.count = min (seedOf s) maxBeat ∧ t.beat.held = 0)) ∧
    (s.beat.state = .acquiring → exec .acquireEdgeTimeout s = .next { s with beat := { s.beat with run := 0 } }) ∧
    (s.beat.state ≠ .acquiring → exec .acquireEdgeTimeout s = .next s) ∧
    (∀ (p : PortId) (v : BeatField), s.beat.state = .locked ∨ s.beat.state = .holdover → (portGet s p.val).state = .up → v ≠ 0 →
      ∃ t, exec (.marker p v true) s = .next t ∧
        (tget s.beat.markers p.val = none → t.beat = { s.beat with markers := tset s.beat.markers p.val v.toNat }) ∧
        (∀ m, tget s.beat.markers p.val = some m → t.beat = s.beat))

/-- R24, R25, R28: at a boundary in LOCKED or HOLDOVER with no cause of loss and no leave pending, the next beat starts: the count is
that of the beat after, and LOCKED without an edge goes to HOLDOVER. With a cause of loss, or at a spent holdover or the last beat
number, the device has no beat number from there on. -/
def Obligations.Boundaries : Prop :=
  ∀ (s : State) (kat : KatEnd), s.boot.phase = 7 →
    (s.beat.state = .locked → s.beat.leaving = none → lostCause s = none →
      ∃ t, exec (.beatBoundary kat) s = .next t ∧ t.beat.count = nextBeat s ∧ t.beat.accepted = false ∧ t.beat.markers = [] ∧
        (s.beat.accepted = true → t.beat.state = .locked) ∧
        (s.beat.accepted = false → t.beat.state = .holdover ∧ t.beat.held = 1)) ∧
    (s.beat.state = .holdover → s.beat.leaving = none → lostCause s = none →
      ∃ t, exec (.beatBoundary kat) s = .next t ∧ t.beat.count = nextBeat s ∧
        (s.beat.accepted = false → t.beat.state = .holdover ∧ t.beat.held = s.beat.held + 1) ∧
        (s.beat.accepted = true → s.beat.good < 3 → t.beat.state = .holdover ∧ t.beat.good = s.beat.good + 1) ∧
        (s.beat.accepted = true → 3 ≤ s.beat.good → t.beat.state = .locked)) ∧
    (s.beat.state = .holdover → 256 ≤ s.beat.held → s.beat.accepted = false →
      ∃ t, exec (.holdoverExpiry kat) s = .next t ∧ t.beat.count = 0 ∧ hasBeat t = false) ∧
    (hasBeat s = true → maxBeat < nextBeat s →
      ∃ t, exec (.beatCountOverflow kat) s = .next t ∧ t.beat.count = 0 ∧ hasBeat t = false)

/-- R218: 256 beats after J0 and every 256 beats from there, the split is evaluated once: the ratio of generation to all work in parts
of 65,535, and the level one step towards it unless software holds the level. -/
def Obligations.SplitEvaluation : Prop :=
  ∀ (s : State) (j0 : Nat), Powered s → jobOrigin s = some j0 → hasBeat s = true → j0 < now s → (now s - j0) % 256 = 0 →
    s.sched.evalAt ≠ now s →
    let x := splitOf s
    let live := s.forager.descs.filter fun d => d.state == .active || d.state == .adopted
    let g := x.wg * (live.filter fun d => !inPrompt d).length
    let p := x.wp * ((s.forager.descs.filter fun d => inPrompt d).map fun d => d.plen - d.clen).sum
    let r := 65535 * g / (g + p)
    let lv := s.sched.level
    let up := lv + 1 < x.nlev ∧ x.up.getD lv 65535 ≤ r
    let down := 0 < lv ∧ r < x.down.getD lv 0
    ∃ t, exec .splitEvaluation s = .next t ∧ t.sched.evalAt = now s ∧ t.sched.level = lv ∧
      (g + p = 0 → t.sched.target = s.sched.target ∧ t.sched.ratio = s.sched.ratio) ∧
      (g + p ≠ 0 → t.sched.ratio = r) ∧
      (cfld s rSqCfg 20 20 = 1 → t.sched.target = s.sched.target) ∧
      (cfld s rSqCfg 20 20 ≠ 1 → g + p ≠ 0 → up → t.sched.target = lv + 1) ∧
      (cfld s rSqCfg 20 20 ≠ 1 → g + p ≠ 0 → ¬ up → down → t.sched.target = lv - 1) ∧
      (cfld s rSqCfg 20 20 ≠ 1 → g + p ≠ 0 → ¬ up → ¬ down → t.sched.target = lv)

/-- R394, R396, R400, R414, R415, R386, R397, R399: the resets. Power-on clears the device; with RESET_N high it runs the power-up
sequence, else RESET_N rising runs it; with MFG_TEST it is out of reset and no further. PWR_OK falling clears the device. A warm reset runs
the sequence again without the wear record. PERST before READY only drops the link. Test-Logic-Reset sets IDCODE and, after a scan, resets.
R397: GO in phase 4 with a staged configuration image that fits the staging area, no certificate before it, and is accepted goes on with
step 4b of the power-up sequence. -/
def Obligations.ResetsAndGo : Prop :=
  (
    ∀ (s : State) (w : BootWorld),
      let cold := { coldState s with
        boot := { (coldState s).boot with pwrOk := true, flash := flashFrom w.flash 0 flashSize [] } }
      let high := { cold with boot := { cold.boot with resetN := true } }
      (exec (.powerOnReset false w) s = .next { cold with boot := { cold.boot with resetN := false } }) ∧
      (w.mfgTest = true → exec (.powerOnReset true w) s = .next (outOfReset high)) ∧
      (w.mfgTest = false → exec (.powerOnReset true w) s = .next (keepQueue s (bootBeat (bootFrom2 high w true)))) ∧
      (s.boot.pwrOk = true → s.boot.resetN = false →
        let up := { s with boot := { s.boot with resetN := true } }
        (w.mfgTest = true → exec (.resetNRise w) s = .next (outOfReset up)) ∧
        (w.mfgTest = false → exec (.resetNRise w) s = .next (keepQueue s (bootBeat (bootFrom2 up w true))))) ∧
      (∃ t, exec .pwrOkFall s = .next t ∧ t.regs = [] ∧ t.committed = [] ∧ t.beat = {} ∧ t.tiers = State.reset.tiers ∧
        t.forager = State.reset.forager ∧ t.sched = State.reset.sched ∧ t.grid = State.reset.grid ∧ t.boot.phase = 0 ∧
        t.boot.flash = s.boot.flash ∧ t.pending = s.pending) ∧
      (∀ cause, s.boot.pwrOk = true → s.boot.resetN = true → s.boot.phase ≠ 1 → (cause = .perst → s.boot.phase = 7) →
        exec (.warmReset cause w) s = .next (keepQueue s (warmReset s (cause == .resetN) w))) ∧
      (s.boot.pwrOk = true → s.boot.phase ≠ 7 →
        exec .perstBeforeReady s = .next (keepQueue s (keepBeat s (pcieLink s false 0 0 false)))) ∧
      (s.mgmt.scanned = false →
        exec (.testLogicReset w) s = .next { s with mgmt := { s.mgmt with tap := .idcode, scanned := false } }) ∧
      (s.mgmt.scanned = true →
        exec (.testLogicReset w) s = .next (keepQueue s
          (warmResetBy { s with mgmt := { s.mgmt with tap := .idcode, scanned := false } } .testLogicReset w)))) ∧ (
    ∀ (s t : State) (w : BootWorld), s.boot.phase = 4 → s.power.thermtrip = false →
      let at_ := fun (a n : Nat) => mread s.boot.staging a n
      let len := leNat (at_ (stagingImage + 8) 8)
      stagingImage + headerSize + len ≤ stagingSize → ¬ (leNat (at_ 0 4) = 0x49504C54 ∧ leNat (at_ 4 1) = 7) →
      presentImage s (headerSize + len) (at_ stagingImage (headerSize + len)) 3 = (t, true) →
      exec (.go w) s = .next (keepQueue s (bootBeat (bootConfigured t w))))

/-- R320, R323, R327, R330, R332: domains close in their order and a group is ready at its own time; rails, sensors, the hold's rotation
and the lapse of an allocation. -/
def Obligations.PowerEvents : Prop :=
  ∀ (s : State), Powered s →
    (∀ d rest, s.power.closing = d :: rest →
      let v := { s with power := { s.power with closing := rest, on := s.power.on ||| BitVec.ofNat 50 (2 ^ d) } }
      exec .domainClosure s = .next (quiet s (if d < 32 then v else domainsSettled (domainReady v d)))) ∧
    (∀ d : Fin 50, d.val < 32 → s.power.on.getLsbD d.val = true → s.power.ready.getLsbD d.val = false →
      exec (.domainReady d) s = .next (quiet s (domainsSettled (domainReady s d.val)))) ∧
    (∀ above unmet, ∃ t, exec (.holdRotation above unmet) s = .next t ∧ t.grid.rotating = above ∧
      t.grid.heldGroup = (if above then (s.grid.heldGroup + 1) % 32 else s.grid.heldGroup) ∧
      t.power.holdAll = (s.power.holdAll || (above && unmet))) ∧
    (∀ rs k, (rs.any fun r => r.present && !r.ack) = false →
      ∃ t, exec (.railRead rs k) s = .next t ∧ t.power.kFrozen = false ∧ t.power.k = min 1250 (max 800 k) ∧
        t.power.measured = min 65535 (((rs.filter fun r => r.present && r.ack).map fun r => r.millivolts * r.milliamps).sum / 1000000)) ∧
    (∀ a, s.power.alloc = some a → hasBeat s = true → a.last ≤ now s →
      exec .allocLapse s = .next (quiet s (setEvent { s with power := { s.power with alloc := none } } rPwEvent 1))) ∧
    (∀ temps, ∃ t, exec (.sensorRead temps) s = .next t ∧ t.power.temps = temps)

/-- R332, R333, R335: the thermal cap moves by 50 W at most once in 128 ms; the wear record is appended; at the wear budget the device
is worn; an area whose monitors are short of slack and at its voltage's top raises the score to SOFT. -/
def Obligations.WearAndMargins : Prop :=
  ∀ (s : State), Powered s →
    (∀ c, s.power.thermal = some c → 128 ≤ s.power.thermalAge →
      (degrees 105 ≤ (hottest s).1 →
        exec .thermalCapStep s = .next (quiet s { s with power := { s.power with thermal := some (c - 50), thermalAge := 0 } })) ∧
      ((hottest s).1 ≤ degrees 100 →
        exec .thermalCapStep s = .next (quiet s
          { s with power := { s.power with thermal := if 2750 ≤ c + 50 then none else some (c + 50), thermalAge := 0 } }))) ∧
    (∀ hours, ∃ t, exec (.wearLogAppend hours) s = .next t ∧ t.power.wearHours = hours ∧ t.power.wear = s.power.wear ∧
      t.regs = s.regs ∧ t.tiers = s.tiers) ∧
    (wearSpent s = true → s.power.worn = false →
      ∃ t, exec .wearOut s = .next t ∧ t.power.worn = true ∧ t.power.wear = s.power.wear) ∧
    (∀ slacks, cfld s rPwCfg 0 0 ≠ 0 →
      let v := { s with power := { s.power with slacks := slacks } }
      let short := (List.range 5).filter fun a => (List.range slacks.length).any fun m => monitorArea m == a && decide (slacks.getD m 0 < 10)
      (∀ a, a ∈ short → s.power.vreq.getD a 0 < areaTop a) →
      ∃ t, exec (.marginTrim slacks) s = .next t ∧ t.power.slacks = slacks ∧ t.reliab = s.reliab ∧
        t.power.trimNext = short.foldl (fun l a => insertNat a l) v.power.trimNext)

/-- R346, R347, R351, R344, R345: the score's decay at beats that are multiples of 2^24, the repeated request for service, the close of
a coalescing window, and the ends of the two self-tests. -/
def Obligations.HealthEvents : Prop :=
  ∀ (s : State), Powered s →
    (hasBeat s = true → now s % 2 ^ 24 = 0 → s.reliab.decayAt ≠ now s →
      exec .healthDecay s = .next (quiet s
        { s with reliab := { s.reliab with score := s.reliab.score * 7 / 8, decayAt := now s } })) ∧
    (s.reliab.health = .softPending → 4096 ≤ s.reliab.softAge → cfld s rRlCfg 31 16 ≤ s.reliab.score →
      exec .softRequestResend s = .next (quiet s
        (event (setEvent { s with reliab := { s.reliab with softAge := 0 } } rRlEvent 1)
          { sev := sevNotice, src := srcReliab, flags := 12 }))) ∧
    (∀ src : Byte,
      (tget s.reliab.windows src.toNat = some 0 →
        exec (.coalesceWindowClose src) s = .next (quiet s
          { s with reliab := { s.reliab with windows := terase s.reliab.windows src.toNat } })) ∧
      (∀ n, tget s.reliab.windows src.toNat = some (n + 1) →
        let v := writeRecord s { sev := sevCorrected, src := src.toNat, flags := 2, count := n + 1 }
        exec (.coalesceWindowClose src) s = .next (quiet s
          { v with reliab := { v.reliab with windows := tset v.reliab.windows src.toNat 0 } }))) ∧
    (∀ failing cool cmd, s.reliab.test = .stress cmd →
      let v := stressFindings { s with reliab := { s.reliab with test := .none } } (failing.map fun c => c.val) cool
      let n := rfld v rRlStress 10 0
      exec (.stressTestEnd failing cool) s = .next (quiet s
        (settle (finishCmd v cmd (if n = 0 then stOk else stCheckMismatch) n)))) ∧
    (∀ failing transient cmd, s.reliab.test = .kat cmd →
      let v := { s with reliab := { s.reliab with test := .none } }
      let bad := (readyCells v).filter fun c => failing.any fun f => f.val == c
      let w := (readyCells v).foldl (fun s c =>
        katOutcome s c (if bad.contains c then .permanent else if transient.any (fun f => f.val == c) then .transient else .pass)) v
      exec (.selfTestKatEnd failing transient) s = .next (quiet s
        (settle (finishCmd w cmd (if bad = [] then stOk else stCheckMismatch) bad.length))))

/-- R357, R197, R198, R371, R364: an image whose verification ends well and whose content no row refuses is accepted for its command; a
debug grant of the device, of a level 1 to 3, that answers the challenge opens the level; a failed generator stays failed. -/
def Obligations.Verifications : Prop :=
  ∀ (s : State), Powered s →
    (∀ n (found : Findings) v v1, s.sec.verifs.find? (fun v => v.id == n) = some v →
      let s0 := { s with sec := { s.sec with verifs := s.sec.verifs.filter fun x => x.id != n } }
      let bs := rangeRead s0 v.base v.length
      let s1 := memoryFindings (chargeRange (touchRange s0 v.base v.length) v.fn v.base v.length false) v.base v.length found
      verifyImage s1 (rangePoisoned s1 v.base v.length) v.length (verifyType v.what) bs = (v1, stOk) → jobStarted v1 = false →
      (∀ m, v.what = .model → modelStatus v1 v.fn m = stOk →
        exec (.imageVerifyComplete n ⟨.model m, found⟩) s = .next (quiet s (settle (acceptModel v1 v.cmd v.fn m (imgDigest bs))))) ∧
      (∀ im, v.what = .schedule → scheduleStatus v1 im = stOk →
        exec (.imageVerifyComplete n ⟨.schedule im, found⟩) s = .next (quiet s (settle (acceptSchedule v1 v.cmd im (imgDigest bs)))))) ∧
    (∀ len v, s.sec.grant = some len → 0 < len → len ≤ 8192 →
      let s0 := { s with sec := { s.sec with grant := none } }
      let bs := grantBytes s0 len
      let p := imgPayload bs
      let level := imgNat p 32 1
      verifyImage s0 false len 6 bs = (v, stOk) → imgDevice bs ≠ 0 → 0 < level → level ≤ 3 → imgPayloadLen bs = 64 →
      imgNat p 33 31 = 0 → imgNat p 0 32 = v.sec.challenge.toNat → (bit level 1 = 1 → protectedWork v = false) → v.sec.rngOk = true →
      exec .grantVerifyComplete s = .next (quiet s
        (rput (event (setEvent (drawChallenge (extendMeas (setDebug v level) 7 6 (imgDigest bs))) rScEvent 4)
          { sev := sevNotice, src := srcSecurity }) rScGrantStatus 15 0 stOk.toNat))) ∧
    (s.sec.rngOk = true →
      exec .rngFail s = .next (quiet s
        (event (setEvent { s with sec := { s.sec with rngOk := false } } rScEvent 5) { sev := sevError, src := srcSecurity })))

/-- R8, R429, R430: a write of 1 to a block's COMMIT bit on PF0's BAR0. With every check met, the block's SH words become the committed
words, no other committed word changes, and the commit is reported with ST_OK. With a field that holds no listed value the committed set
stands and ST_BAD_FIELD is reported with the lowest register that decides; with fields that do not agree, ST_CFG_MISMATCH. R317, R299,
R430: HI_FN_COMMIT from PF0, reported in the function's window: the window's words become the committed words and its rings follow them;
a window with a field out of range keeps its committed set. -/
def Obligations.BlockAndWindowCommits : Prop :=
  (
    ∀ (s : State) (v : Word), s.boot.phase = 7 → v.getLsbD 0 = true →
      ∀ x ∈ [(Instr.btCommit .bar0 v, 0, 0, 0x100), (.clCommit .bar0 v, 1, 0x100000, 0x50000), (.mxCommit .bar0 v, 2, 0x200000, 0x20000),
          (.kvCommit .bar0 v, 4, 0x400000, 0x100), (.fgCommit .bar0 v, 5, 0x500000, 0x100), (.lnCommit .bar0 v, 6, 0x600000, 0x100),
          (.sqCommit .bar0 v, 7, 0x700000, 0x18000), (.mtCommit .bar0 v, 8, 0x800000, 0x1000), (.egCommit .bar0 v, 9, 0x900000, 0x400),
          (.raCommit .bar0 v, 10, 0xa00000, 0x100), (.pwCommit .bar0 v, 12, 0xc00000, 0x200), (.rlCommit .bar0 v, 13, 0xd00000, 0x8000),
          (.mgCommit .bar0 v, 15, 0xf00000, 0x100)],
        let block := x.2.1
        let base := x.2.2.1
        let span := x.2.2.2
        let report := (rfld s (rHiCommitSt 0) 31 24 + 1) % 256 * 2 ^ 24 + block * 2 ^ 20
        (commitFails s block = ([], []) →
          ∃ t, exec x.1 s = .next t ∧
            (∀ off r, base ≤ off → off < base + span → regRow? off = some r → r.sh ≠ 0 → cget t off = rget s off) ∧
            (∀ off, off < base ∨ base + span ≤ off → cget t off = cget s off) ∧
            rget t (rHiCommitSt 0) = report + stOk.toNat ∧ rget t (rHiCommitReg 0) = 0) ∧
        (∀ o os, (commitFails s block).1 = o :: os →
          ∃ t, exec x.1 s = .next t ∧ t.committed = s.committed ∧
            rget t (rHiCommitSt 0) = report + stBadField.toNat ∧ rget t (rHiCommitReg 0) = os.foldl min o % 2 ^ 32) ∧
        (∀ o os, commitFails s block = ([], o :: os) →
          ∃ t, exec x.1 s = .next t ∧ t.committed = s.committed ∧
            rget t (rHiCommitSt 0) = report + stCfgMismatch.toNat ∧ rget t (rHiCommitReg 0) = os.foldl min o % 2 ^ 32)) ∧ (
    ∀ (s : State) (f : FnId) (v : Word), s.boot.phase = 7 → v.getLsbD 0 = true →
      let s0 := { s with boot := { s.boot with window := false, staging := [] } }
      let st := rHiFnCommitSt f.val
      (windowFails s f.val = ([], []) →
        let w := commitRings (takeShadow s0 st (st + 1024)) f.val
        exec (.hiFnCommit .bar0 f v) s = .next (quiet s (settle
          (rset w st ((rfld w st 31 24 + 1) % 256 * 2 ^ 24 + stOk.toNat))))) ∧
      (∀ o os, (windowFails s f.val).1 = o :: os → os.foldl min o ≠ 0 →
        exec (.hiFnCommit .bar0 f v) s = .next (quiet s (settle
          (rset s0 st ((rfld s st 31 24 + 1) % 256 * 2 ^ 24 + (os.foldl min o - st) / 4 * 2 ^ 16 + stBadField.toNat))))))

/-- R25: ENABLE = 1 in UNLOCKED starts acquisition, and in every other state moves nothing; ENABLE = 0 is ignored while a job is
started, acts at once in ACQUIRING and UNLOCKED, and at the next boundary in the states that have one. -/
def Obligations.BeatControl : Prop :=
  ∀ (s : State) (v : Word), s.boot.phase = 7 →
    (v.getLsbD 0 = true → s.beat.state = .unlocked →
      ∃ t, exec (.btCtlEnable .bar0 v) s = .next t ∧ t.beat.state = .acquiring ∧ t.beat.run = 0 ∧ t.beat.count = 0 ∧ rget t rBtCtl = 1) ∧
    (v.getLsbD 0 = true → s.beat.state ≠ .unlocked →
      ∃ t, exec (.btCtlEnable .bar0 v) s = .next t ∧ t.beat = s.beat ∧ rget t rBtCtl = 1) ∧
    (v.getLsbD 0 = false → jobStarted s = false → s.beat.state = .acquiring →
      ∃ t, exec (.btCtlEnable .bar0 v) s = .next t ∧ t.beat.state = .unlocked ∧ t.beat.count = 0 ∧ rget t rBtCtl = 0) ∧
    (v.getLsbD 0 = false → jobStarted s = false → hasBeat s = true ∨ s.beat.state = .lost →
      ∃ t, exec (.btCtlEnable .bar0 v) s = .next t ∧ t.beat = { s.beat with leaving := some false } ∧ rget t rBtCtl = 0) ∧
    (v.getLsbD 0 = false → jobStarted s = true → s.beat.state ≠ .unlocked →
      ∃ t, exec (.btCtlEnable .bar0 v) s = .next t ∧ t.beat = s.beat ∧ t.regs = s.regs)

/-- R39: a read of BT_NOW_LO, BT_ORIGIN_LO or BT_MISS_LOG_LO answers the low half and latches the high half; a read of the high half
answers what the last read of the low half on its path latched, and is untouched by reads on other paths (R379). -/
def Obligations.PairedReads : Prop :=
  ∀ (s : State), s.boot.phase = 7 →
    ∀ o ∈ [rBtNowLo, rBtOriginLo, rBtMissLogLo],
      (∃ t, exec (.loHalfReadLatch .bar0 ⟨BitVec.ofNat 26 o, 4⟩) s = .next t ∧
        t.tx = .completion 0 (leBytes 4 (viewReg s o)) false :: s.tx ∧
        tget t.latches (o + 4) = some (BitVec.ofNat 32 (viewReg s (o + 4)))) ∧
      (∀ h, tget s.latches (o + 4) = some h →
        ∃ t, exec (.loHalfReadLatch .bar0 ⟨BitVec.ofNat 26 (o + 4), 4⟩) s = .next t ∧ t.latches = s.latches ∧
          t.tx = .completion 0 (leBytes 4 h.toNat) false :: s.tx) ∧
      (∀ p ∈ [Path.bar0, .sgmii, .i3c, .tap],
        let r := readReg s p o
        r.1 = viewReg s o ∧ (readReg r.2 p (o + 4)).1 = (BitVec.ofNat 32 (viewReg s (o + 4))).toNat ∧
        (readReg s p (o + 4)).2 = s ∧ (∀ q, q ≠ p → (readReg r.2 q (o + 4)).1 = (readReg s q (o + 4)).1) ∧
        (p ≠ .bar0 → pathServes s p = true → exec (.loHalfReadLatch p ⟨BitVec.ofNat 26 o, 4⟩) s = .next (quiet s r.2)))

/-- R7, R9, R433, R426: a write of a register that no rule gives an effect of its own sets its RW and SH bits, clears the W1C bits
written 1 (MORE with VALID), and leaves every other bit and every other register; a write of two words writes them in ascending order; a
write that does not enable whole words is dropped; a write in a block's span at no register, and an access outside every span, change no
register. -/
def Obligations.PlainRegisters : Prop :=
  ∀ (s : State) (off : BitVec 26) (v : Word), s.boot.phase = 7 →
    let o := off.toNat / 4 * 4
    let s0 := { s with boot := { s.boot with window := false, staging := [] } }
    let special := [rBtCtl, rBtCommit, rRlExpel, rScGrantCtl, rEgRouteSel]
    (∀ r, regRow? o = some r → inSpan o = true → commitBlockOf o = none → o ∉ special → ¬ (rScGrantBuf 0 ≤ o ∧ o < rScGrantBuf 2048) →
      ¬ (rEgPortCtl 0 ≤ o ∧ o < rEgPortCtl 6 ∧ o % 64 = 0) → ¬ (rMgTmxk 0 ≤ o ∧ o < rMgTmxk 16) →
      ¬ (rHiFnCommitSt 0 ≤ o ∧ o < rHiFnCommitSt 256 ∧ o % 1024 = 4) →
      let w := rget s o - (rget s o &&& (r.rw ||| r.sh)) + (v.toNat &&& (r.rw ||| r.sh))
      let ones := v.toNat &&& r.w1c
      let clear := if bit ones 31 = 1 then ones ||| 2 ^ 30 else ones
      let t := quiet s (settle (rset s0 o (w - (w &&& clear))))
      exec (.registerWrite .bar0 off ⟨[v], true⟩) s = .next t ∧
      (∀ u, exec (.registerWrite .bar0 off ⟨[v, u], true⟩) s = .next (writeWord .bar0 (o + 4) u t))) ∧
    (∀ (p : Path) (vs : List Word), exec (.registerWrite p off ⟨vs, false⟩) s = .next s) ∧
    (regRow? o = none → inSpan o = true →
      exec (.registerWrite .bar0 off ⟨[v], true⟩) s = .next (quiet s (settle s0)) ∧
      exec (.bar0UnmappedAccess 0 true off) s = .next (quiet s s0) ∧
      exec (.bar0UnmappedAccess 0 false off) s = .next (quiet s (emit s (.completion 0 (leBytes 4 0) false)))) ∧
    (regRow? o = none → inSpan o = false →
      exec (.bar0UnmappedAccess 0 true off) s = .next (quiet s (emit (aerLog s0 0 aerUnsupported) (.unsupported 0))) ∧
      exec (.bar0UnmappedAccess 0 false off) s = .next (quiet s (emit (aerLog s 0 aerUnsupported) (.unsupported 0))))

/-- R260, R347, R349, R371, R372, R385: writes with an effect of their own: a port enabled, disabled and retrained; GRANT and NO_SPARE;
the submission of a grant and the end of debug; a pin's selection. -/
def Obligations.ControlRegisters : Prop :=
  ∀ (s : State), s.boot.phase = 7 →
    let s0 := { s with boot := { s.boot with window := false, staging := [] } }
    (∀ (p : PortId) (v : Word),
      let on := rput s0 (rEgPortCtl p.val) 0 0 1
      (v.getLsbD 0 = true → v.getLsbD 1 = false → (portGet s p.val).state = .disabled → s.power.ready.getLsbD (36 + p.val) = true →
        exec (.egPortEnable .bar0 p v) s = .next (quiet s (settle (trainPort on p.val)))) ∧
      (v.getLsbD 0 = false →
        exec (.egPortEnable .bar0 p v) s = .next (quiet s (settle (leaveUp (rput s0 (rEgPortCtl p.val) 0 0 0) p.val .disabled 0)))) ∧
      (v.getLsbD 0 = true → v.getLsbD 1 = true → (portGet s p.val).state = .up →
        exec (.egPortRetrain .bar0 p v) s = .next (quiet s (settle (trainPort
          (satAdd (leaveUp on p.val .down (downCause .retrain)) (rEgPortFlaps p.val) 31 16 1) p.val))))) ∧
    (s.reliab.health = .softPending ∨ s.reliab.health = .suspect →
      ∃ t, exec (.grantExpel .bar0) s = .next t ∧
        t.reliab.health = (if jobStarted s then .expelling else .expelled) ∧
        t.reliab.cause = (if s.reliab.cause = 0 then 1 else s.reliab.cause)) ∧
    (s.reliab.health = .softPending →
      ∃ t, exec (.noSpare .bar0) s = .next t ∧ t.reliab.health = .suspect ∧ t.reliab.cause = s.reliab.cause) ∧
    (∀ (v : Word) r, regRow? rScGrantCtl = some r → v.getLsbD 0 = true → v.getLsbD 1 = false → s.sec.grant = none →
      let w := writePlain s0 r rScGrantCtl v.toNat
      exec (.submit .bar0 v) s = .next (quiet s { w with sec := { w.sec with grant := some (rfld w rScGrantCtl 29 16) } })) ∧
    (∃ t, exec (.endDebug .bar0) s = .next t ∧ t.sec.debug = 0 ∧ t.mgmt.segments = 0 ∧ t.sec.grant = s.sec.grant) ∧
    (∀ (k : Fin 16) (v : Word) r, regRow? (rMgTmxk k.val) = some r →
      (tmxOk (bits v.toNat 15 8) (bits v.toNat 7 0) = true →
        exec (.mgTmxSelect .bar0 k v) s = .next (quiet s (writePlain s0 r (rMgTmxk k.val) v.toNat))) ∧
      (tmxOk (bits v.toNat 15 8) (bits v.toNat 7 0) = false →
        exec (.mgTmxSelect .bar0 k v) s = .next (quiet s s0)))

/-- R300, R301, R299, R315: the doorbells of an enabled ring take the new tail or head; one beyond the ring's size puts it in ERROR. A
fetch takes the entry at the head of the first doorbell that may be served, one that fails or times out puts the ring in ERROR. R298,
R309, R310, R317: the coalescing timer signals the replies written and not yet signalled; a function level reset discards the replies of
the function's commands and its doorbells; clearing NumVFs leaves no virtual function; a link change is reported. -/
def Obligations.HostInterfaceEvents : Prop :=
  (
    ∀ (s : State), s.boot.phase = 7 →
      (∀ (f : FnId) (r : Fin 16) (v : Word), fnEnabled s f.val = true → (sqOf s f.val r.val).enabled = true →
        (v.toNat < 2 ^ (sqOf s f.val r.val).size →
          ∃ t, exec (.hiDbSq f r v) s = .next t ∧ sqOf t f.val r.val = { sqOf s f.val r.val with tail := v.toNat } ∧
            t.host.doorbells = s.host.doorbells ++ [(f.val, r.val, v.toNat)] ∧ t.host.cmds = s.host.cmds) ∧
        (2 ^ (sqOf s f.val r.val).size ≤ v.toNat →
          ∃ t, exec (.hiDbSq f r v) s = .next t ∧ sqOf t f.val r.val = { sqOf s f.val r.val with error := true } ∧
            t.host.doorbells = s.host.doorbells)) ∧
      (∀ (f : FnId) (v : Word), fnEnabled s f.val = true → (fnGet s f.val).cqEnabled = true → v.toNat < cqSize s f.val →
        (fnGet s f.val).cqError = false →
        let x := { fnGet s f.val with cqHead := v.toNat }
        exec (.hiDbCq f v) s = .next (quiet s (settle (drainReplies f.val x.queue.length (fnSet s f.val x))))) ∧
      (∀ (f : FnId) (r : Fin 16) (tail : Nat) (rest : List (Nat × Nat × Nat)),
        (dropDoorbells s).host.doorbells = (f.val, r.val, tail) :: rest → doorbellOpen (dropDoorbells s) (f.val, r.val, tail) = true →
        let d := dropDoorbells s
        let x := sqOf d f.val r.val
        (∀ v host, exec (.commandFetch (.entry v host)) s = .next (quiet s (settle
          (parseEntry (sqSet d f.val r.val { x with head := (x.head + 1) % 2 ^ x.size }) f r v host)))) ∧
        (∃ t, exec (.commandFetch .errorStatus) s = .next t ∧ sqOf t f.val r.val = { x with error := true } ∧ t.host.cmds = s.host.cmds) ∧
        (∃ t, exec (.hostCompletionTimeout f) s = .next t ∧ (sqOf t f.val r.val).error = true ∧
          t.host.aer = s.host.aer ++ [(f.val, aerTimeout)] ∧ t.host.cmds = s.host.cmds))) ∧ (
    ∀ (s : State), Powered s →
      (∀ f : FnId, cfld s (rHiIrq f.val) 15 8 ≠ 0 → (fnGet s f.val).unsignalled ≠ 0 →
        exec (.irqCoalesceTimer f) s = .next (quiet s (raiseVector (fnSet s f.val { fnGet s f.val with unsignalled := 0 }) f.val 0))) ∧
      (∀ f : FnId, fnEnabled s f.val = true →
        (exec (.functionLevelReset f) s = .next (quiet s (settle (resetFunction s f.val)))) ∧
        (fnGet (resetFunction s f.val) f.val).sq = [] ∧ (fnGet (resetFunction s f.val) f.val).cqEnabled = false ∧
        (fnGet (resetFunction s f.val) f.val).queue = [] ∧ (fnGet (resetFunction s f.val) f.val).mask = (fnGet s f.val).mask ∧
        (∀ c ∈ (resetFunction s f.val).host.cmds, c.hdr.fn = f → c.discard = true) ∧
        (∀ d ∈ (resetFunction s f.val).host.doorbells, d.1 ≠ f.val)) ∧
      (s.host.numVfs = 0 → exec .numvfsClear s = .next (quiet s (settle s))) ∧
      (∃ t, exec .numvfsClear s = .next t ∧ t.beat = s.beat ∧ t.pending = s.pending) ∧
      (∀ up width rate flit, ∃ t, exec (.pcieLinkChange up width rate flit) s = .next t ∧ t.host.linkUp = up ∧
        t.host.linkWidth = (if up then width else 0) ∧ t.host.linkRate = (if up then rate else 0) ∧ t.host.linkFlit = (up && flit) ∧
        (s.host.linkUp ≠ up → rfld t rHiEvent 2 2 = 1)))

/-- R311, R312, R329, R344, R345, R363, R402: the commands of the device as a whole, when their packet starts at once. -/
def Obligations.DeviceCommands : Prop :=
  ∀ (s : State) (h : CmdHdr),
    let id := freshCmd s
    let fn := h.fn.val
    (Starts s h .nop → exec (.opNop h) s = .next (quiet s (settle (finishCmd (enterCmd s h .nop 2) id stOk 0)))) ∧
    (∀ page : DWord, Starts s h (.identify page) → page.toNat % 64 = 0 →
      let t := enterCmd s h (.identify page) 2
      (page ≠ 0 → exec (.opIdentify h page) s = .next (quiet s (settle
        (finishCmd (emit t (.hostWrite fn page.toNat (identifyPage t fn))) id stOk (identityWord t fn))))) ∧
      (page = 0 → exec (.opIdentify h page) s = .next (quiet s (settle (finishCmd t id stOk (identityWord t fn)))))) ∧
    (∀ (client : Byte) (buf : DWord), Starts s h (.readAccounting client buf) → fn = 0 ∨ client.toNat = fn → buf ≠ 0 →
      buf.toNat % 64 = 0 →
      let t := enterCmd s h (.readAccounting client buf) 2
      exec (.opReadAccounting h client buf) s = .next (quiet s (settle
        (finishCmd (emit t (.hostWrite fn buf.toNat (accountBytes t client.toNat))) id stOk t.sched.pubBeat)))) ∧
    (∀ (buf : DWord) (nonce : BitVec 256) seed, Starts s h (.attest buf nonce) → buf ≠ 0 → buf.toNat % 64 = 0 → s.sec.seed = some seed →
      let t := enterCmd s h (.attest buf nonce) 2
      let r := reportBytes t fn nonce
      let out := r ++ fitBytes 64 (Config.ed25519Sign (edSeed seed) r) ++ fitBytes 3309 (Config.mldsaSign (mldsaSeed seed) r)
      exec (.opAttest h buf nonce) s = .next (quiet s (settle (finishCmd (emit t (.hostWrite fn buf.toNat out)) id stOk 3885)))) ∧
    (∀ role : Byte, Starts s h (.setRole role) → 0 < role.toNat → role.toNat ≤ 4 → s.sched.job = .none → heldStarts s = [] →
      s.forager.descs = [] → s.forager.recs = [] → s.forager.pfx = [] →
      let t := enterCmd s h (.setRole role) 2
      let e : Word := if s.boot.roleEpoch = 0xFFFFFFFF then 1 else s.boot.roleEpoch + 1
      exec (.opSetRole h role) s = .next (quiet s (settle
        (finishCmd { t with boot := { t.boot with role := role.toNat, roleEpoch := e } } id stOk e.toNat)))) ∧
    (∀ (m : Byte) (w : Half) (l : Word), Starts s h (.setPowerLimit m w l) → m.toNat ≤ 1 → 0 < w.toNat → w.toNat ≤ 50 → 0 < l.toNat →
      l.toNat ≤ 2750 →
      let t := enterCmd s h (.setPowerLimit m w l) 2
      exec (.opSetPowerLimit h m w l) s = .next (quiet s (settle
        { t with power := { t.power with setting := t.power.setting ++ [(id, m.toNat, w.toNat, l.toNat)] } }))) ∧
    (Starts s h (.selfTest 0) → jobStarted s = false → s.reliab.test = .none →
      let t := enterCmd s h (.selfTest 0) 2
      exec (.opSelfTestKat h) s = .next (quiet s (settle { t with reliab := { t.reliab with test := .kat id } }))) ∧
    (Starts s h (.selfTest 1) → jobStarted s = false → s.reliab.test = .none →
      let t := enterCmd s h (.selfTest 1) 2
      exec (.opSelfTestStress h) s = .next (quiet s (settle
        (rput { t with reliab := { t.reliab with test := .stress id } } rRlStress 23 16 0))))

/-- R235, R313: OP_MIGRATE_TILES and OP_PREFETCH queue the tiles of a range or of a request; OP_DMA_COPY copies its lines in ascending
order. A length of zero does nothing. -/
def Obligations.CopyCommands : Prop :=
  ∀ (s : State) (h : CmdHdr),
    let id := freshCmd s
    let fn := h.fn.val
    (∀ a : MigrateArg, Starts s h (.migrate a) → a.dest.toNat ≤ 3 → combOk a.comb = true → a.first.toNat % tileSize = 0 →
      let t := enterCmd s h (.migrate a) 2
      (a.count = 0 → exec (.opMigrateTiles h a) s = .next (quiet s (settle (finishCmd t id stOkNoop 0)))) ∧
      (a.count ≠ 0 → inRange t a.first.toNat (a.count.toNat * tileSize) = true → fnMay t fn a.first.toNat (a.count.toNat * tileSize) = true →
        exec (.opMigrateTiles h a) s = .next (quiet s (settle
          (queueTiles t id 5 a.dest.toNat a.comb.toNat ((List.range a.count.toNat).map (tileOf a.first.toNat + ·))))))) ∧
    (∀ a : PrefetchArg, Starts s h (.prefetch a) → combOk a.comb = true →
      let t := enterCmd s h (.prefetch a) 2
      (∀ d, a.byHandle = true → a.first ≠ 0 → descOf t a.first = some d → d.state = .active → d.client = fn →
        exec (.opPrefetch h a) s = .next (quiet s (settle (queueTiles t id 4 0 a.comb.toNat (mapTiles t d))))) ∧
      (a.byHandle = false → a.first.toNat % tileSize = 0 → a.first.toNat < 2 ^ 48 → a.count ≠ 0 →
        inRange t a.first.toNat (a.count.toNat * tileSize) = true → fnMay t fn a.first.toNat (a.count.toNat * tileSize) = true →
        exec (.opPrefetch h a) s = .next (quiet s (settle
          (queueTiles t id 4 0 a.comb.toNat ((List.range a.count.toNat).map (tileOf a.first.toNat + ·))))))) ∧
    (∀ (t : State) (rank dest comb : Nat) (tiles : List Nat), (∀ x ∈ tiles, ∀ k, pinTier t x = some k → k = dest) →
      (rank = 5 → dest ≠ 0 → ∀ x ∈ tiles, inPool t x = false) → (dest = 3 → ∀ x ∈ tiles, sealedRange t (x * tileSize) tileSize = false) →
      (dest = 2 → nandOpen t = true) → (dest = 1 → (t.tiers.ddrState.any fun e => e.2 == 1) = true) → t.tiers.reqs.length < 1024 →
      queueTiles t id rank dest comb tiles = settleMoves (addMove t rank dest comb tiles id (some (cmdFn t id)))) ∧
    (∀ (a : DmaCopyArg) (host : HostLines), Starts s h (.dmaCopy a host) →
      let t := enterCmd s h (.dmaCopy a host) 2
      let ss := bits a.spaces.toNat 3 0
      let ds := bits a.spaces.toNat 7 4
      let len := a.length.toNat
      ss ≤ 1 → ds ≤ 1 → a.src.toNat % 64 = 0 → a.dst.toNat % 64 = 0 → len % 64 = 0 → len ≤ 2 ^ 30 →
      (len = 0 → exec (.opDmaCopy h a host) s = .next (quiet s (settle (finishCmd t id stOkNoop 0)))) ∧
      (0 < len → (ss = 1 → inRange t a.src.toNat len = true ∧ fnMay t fn a.src.toNat len = true ∧ protectedRange t a.src.toNat len = false) →
        (ds = 1 → inRange t a.dst.toNat len = true ∧ fnMay t fn a.dst.toNat len = true ∧ protectedRange t a.dst.toNat len = false ∧
          sealedRange t a.dst.toNat len = false) →
        let v := if ss = 1 then memoryFindings t a.src.toNat len host.tier else t
        let c := copyLines fn ss ds (len / 64) v a.src.toNat a.dst.toNat host.lines 0 stOk
        exec (.opDmaCopy h a host) s = .next (quiet s (settle (finishCmd c.1 id c.2.2 c.2.1)))))

/-- R197, R198, R96, R97, R184, R187: a load command seals its range and starts the verification, with its status once that ends; a
retire command retires the live slots of its version or identifier. -/
def Obligations.ImageCommands : Prop :=
  ∀ (s : State) (h : CmdHdr),
    let id := freshCmd s
    let fn := h.fn.val
    let begun := fun (t : State) (a : ImageArg) (what : VerifyFor) =>
      { t with sec := { t.sec with
          seals := t.sec.seals ++ [{ lo := a.image.toNat, hi := a.image.toNat + a.length.toNat, cmd := id, what := what }]
          verifs := t.sec.verifs ++ [{ id := id, cmd := id, fn := fn, base := a.image.toNat, length := a.length.toNat, what := what }] } }
    (∀ a : ImageArg, 0 < a.length.toNat → a.image.toNat % 64 = 0 → inRange s a.image.toNat a.length.toNat = true →
      (Starts s h (.loadModel a) → jobStarted s = false → (s.sched.model = none ∨ modelOwner s = some fn ∨ fn = 0) →
        exec (.opLoadModelImage h a) s = .next (quiet s (settle (begun (enterCmd s h (.loadModel a) 2) a .model)))) ∧
      (Starts s h (.loadSchedule a) → jobStarted s = false →
        exec (.opLoadScheduleImage h a) s = .next (quiet s (settle (begun (enterCmd s h (.loadSchedule a) 2) a .schedule)))) ∧
      (∀ (slot : Byte) (first last : Half), Starts s h (.loadCodebook a slot first last) → modelOwner s = some fn →
        exec (.opLoadCodebook h a slot first last) s = .next (quiet s (settle
          (begun (enterCmd s h (.loadCodebook a slot first last) 2) a (.codebook slot first last))))) ∧
      (∀ slot : Byte, Starts s h (.loadGrammar a slot) → lensOn s = true → modelOwner s = some fn →
        exec (.opLoadGrammar h a slot) s = .next (quiet s (settle
          (begun (enterCmd s h (.loadGrammar a slot) 2) a (.grammar slot)))))) ∧
    (∀ (v first last : Half), Starts s h (.retireCodebook v first last) → modelOwner s = some fn → v ≠ 0 → first.toNat ≤ last.toNat →
      last.toNat ≤ 1023 →
      let t := enterCmd s h (.retireCodebook v first last) 2
      let named := (cellRange first.toNat last.toNat).flatMap fun c => (List.range 4).map fun j => (c, j)
      let held := fun st => named.filter fun q => (slotGet s q.1 q.2).version == v.toNat && (slotGet s q.1 q.2).state == st
      held .loading = [] → held .live ++ held .retiring ≠ [] →
      let u := (held .live).foldl (fun s q => slotSet s q.1 q.2 { slotGet s q.1 q.2 with state := .retiring }) t
      exec (.opRetireCodebook h v first last) s = .next (quiet s (settle
        { u with grid := { u.grid with retires := u.grid.retires ++ [(id, v.toNat, held .live ++ held .retiring)] } }))) ∧
    (∀ (g : Half) j x, Starts s h (.retireGrammar g) → lensOn s = true → modelOwner s = some fn → g ≠ 0 →
      s.lens.slots.find? (fun e => e.2.id == g.toNat && e.2.state != .free) = some (j, x) → x.state = .live →
      exec (.opRetireGrammar h g) s = .next (quiet s (settle
        (gslotSet (enterCmd s h (.retireGrammar g) 2) j { x with state := .retiring, retires := x.retires ++ [id] }))))

/-- R201, R202, R212, R404, R406: OP_START_JOB is held for its beat; OP_STOP_JOB of the started job is taken up at the next boundary;
contexts are created and destroyed; a semaphore of the client is set. -/
def Obligations.JobCommands : Prop :=
  ∀ (s : State) (h : CmdHdr),
    let id := freshCmd s
    let fn := h.fn.val
    (fetchOpen s fn = true → parseCheck s h .startJob = .hold →
      exec (.opStartJob h) s = .next (quiet s (settle (enterCmd s h .startJob 1)))) ∧
    (∀ n c, cmdGet s n = some c → c.op = .startJob →
      let t := cmdMod s n fun c => { c with phase := 2 }
      startJobStatus t n true = stOk → startOp s n true = { t with sched := { t.sched with job := .held n (now t) } }) ∧
    (∀ job : Half, Starts s h (.stopJob job) → jobStarted s = true → job.toNat = imageJob s → heldStarts s = [] →
      let t := enterCmd s h (.stopJob job) 2
      exec (.opStopJob h job) s = .next (quiet s (settle { t with sched := { t.sched with stops := t.sched.stops ++ [id] } }))) ∧
    (∀ (a : ContextArg) im runs, Starts s h (.contextCreate a) → jobStarted s = true → s.sched.image = some im →
      a.cls.toNat < im.1.classes.length → a.priority.toNat ≤ 7 → a.size.toNat ≠ 0 →
      a.base.toNat % tileSize = 0 → a.size.toNat % tileSize = 0 → inRange s a.base.toNat a.size.toNat = true →
      (a.prot = true → im.1.prot.isSome = true ∧ instrumentOpen s = false ∧ s.sec.xtsFrom.isSome = true) →
      (a.prot = false → (s.remote.regions.any fun e => e.2.prot && overlaps a.base.toNat a.size.toNat e.2.base e.2.length) = false) →
      let t := enterCmd s h (.contextCreate a) 2
      reserveSwap t a.cls.toNat = some runs → freeCtxNumber t < 4128 →
      let u := if a.prot then runs.foldl (fun s r => zeroRange s (r.1 * tileSize) (r.2 * tileSize)) t else t
      exec (.opContextCreate h a) s = .next (quiet s (settle (finishCmd
        (ctxSet u (freeCtxNumber t) { client := fn, cls := a.cls.toNat, prio := a.priority.toNat, prot := a.prot, base := a.base.toNat
                                      size := a.size.toNat, swapRuns := runs }) id stOk (freeCtxNumber t))))) ∧
    (∀ (n : Half) x, Starts s h (.contextDestroy n) → ctxOf s n.toNat = some x → x.client = fn →
      let t := enterCmd s h (.contextDestroy n) 2
      (x.state = .swapped → exec (.opContextDestroy h n) s = .next (quiet s (settle (finishCmd
        (freeCtx (leaveSlot (endRequests t n.toNat stContextAborted) n.toNat) n.toNat) id stOk 0)))) ∧
      (x.state = .aborted → exec (.opContextDestroy h n) s = .next (quiet s (settle (finishCmd (freeCtx t n.toNat) id stOk 0)))) ∧
      (x.state ≠ .swapped → x.state ≠ .aborted → x.destroy = none →
        exec (.opContextDestroy h n) s = .next (quiet s (settle (ctxMod t n.toNat fun x => { x with destroy := some id }))))) ∧
    (∀ (n count : Half), Starts s h (.semInit n count) → n.toNat ≤ 1023 →
      (∀ m, semOf s n.toNat = some m → m.client = fn ∧ (m.held.any fun e => 0 < e.2) = false ∧ m.queue = []) →
      exec (.opSemInit h n count) s = .next (quiet s (settle (finishCmd
        (semSet (enterCmd s h (.semInit n count) 2) n.toNat { client := fn, count := count.toNat }) id stOk 0))))

/-- R278 to R280, R287, R288, R291: regions are registered under a key with a random secret and revoked, a receive is posted under the
next generation, a send enters the sender and the flush tracker, and a flush waits for what came before it. -/
def Obligations.RemoteCommands : Prop :=
  ∀ (s : State) (h : CmdHdr),
    let id := freshCmd s
    let fn := h.fn.val
    (∀ (a : RegionArg) n slot0, Starts s h (.registerRegion a) →
      let t := enterCmd s h (.registerRegion a) 2
      let at_ := a.attr.toNat
      let base := a.base.toNat
      let size := a.size.toNat
      let queue := a.kind == 1
      let prot := bit at_ 3 == 1
      let others := fun (p : Bool) => t.remote.regions.any fun e => e.2.prot == p && !e.2.revoking && overlaps base size e.2.base e.2.length
      a.kind.toNat ≤ 1 → bit at_ 2 = 0 → bits at_ 7 5 = 0 → base % 128 = 0 → 0 < size →
      (queue = true → bits at_ 1 0 = 0 ∧ size ≤ 1024) →
      (queue = false → bits at_ 1 0 ≠ 0 ∧ size % 128 = 0 ∧ fnMay t fn base size = true ∧ inRange t base size = true ∧
        (prot = false → others true = false) ∧
        (prot = true → (t.sched.ctxs.any fun e => !e.2.prot && overlaps base size e.2.base e.2.size) = false)) →
      (prot = true → instrumentOpen t = false) → t.sec.rngOk = true → freeRegionNumber t = some n →
      (if queue then freeSlots t size else some 0) = some slot0 →
      let v := takeRandom t 44
      let secret : BitVec 44 := if v.1 = 0 then 1 else BitVec.ofNat 44 v.1
      let u := if prot && !queue then zeroRange v.2 base size else v.2
      exec (.opRegisterRegion h a) s = .next (quiet s (settle (finishCmd (regionSet u n {
        base := if queue then 0 else base, length := if queue then 0 else size, secret := secret, rd := bit at_ 0 == 1, wr := bit at_ 1 == 1
        queue := queue, prot := prot, from_ := if bit at_ 4 = 1 then some (BitVec.ofNat 14 a.from_.toNat) else none, client := fn
        slot0 := slot0, slots := if queue then size else 0 }) id stOk (keyOf n secret).toNat)))) ∧
    (∀ (key : DWord) r, Starts s h (.revokeRegion key) → keySecret key ≠ 0 → keyRegion key ≠ 0 → regionOf s (keyRegion key) = some r →
      r.secret.toNat = keySecret key → r.client = fn → r.revoking = false → r.admitted = 0 →
      exec (.opRevokeRegion h key) s = .next (quiet s (settle (freeRegion
        (regionSet (enterCmd s h (.revokeRegion key) 2) (keyRegion key)
          { r with revoking := true, revokeCmd := if id = 0 then r.revokeCmd else id }) (keyRegion key))))) ∧
    (∀ (a : PostArg) r, Starts s h (.postRecv a) → keySecret a.key ≠ 0 → keyRegion a.key ≠ 0 → regionOf s (keyRegion a.key) = some r →
      r.secret.toNat = keySecret a.key → r.revoking = false → r.queue = true → r.client = fn → a.slot.toNat < r.slots →
      0 < a.size.toNat → a.size.toNat ≤ 1048576 → a.size.toNat % 8 = 0 → a.buf.toNat % 256 = 0 →
      let t := enterCmd s h (.postRecv a) 2
      fnMay t fn a.buf.toNat a.size.toNat = true →
      r.prot = (s.remote.regions.any fun e => e.2.prot && !e.2.queue && within a.buf.toNat a.size.toNat e.2.base e.2.length) →
      let i := r.slot0 + a.slot.toNat
      let x := slotOf s i
      let u := slotPut t i { buf := a.buf.toNat, size := a.size.toNat, gen := if x.gen + 1 < 2 ^ 32 then x.gen + 1 else 1
                             state := .posted, post := id }
      ((x.state ≠ .posted ∧ x.state ≠ .filling) ∨ x.post = 0 → exec (.opPostRecv h a) s = .next (quiet s (settle u))) ∧
      (x.state = .posted ∨ x.state = .filling → x.post ≠ 0 →
        exec (.opPostRecv h a) s = .next (quiet s (settle (refuseCmd u x.post stStaleGeneration))))) ∧
    (∀ a : SendArg, Starts s h (.send a) → 0 < a.length.toNat → a.length.toNat ≤ 1048576 → a.length.toNat % 8 = 0 →
      a.slot.toNat ≤ 1023 → a.gen ≠ 0 → a.node.toNat < 2 ^ 14 → keySecret a.key ≠ 0 →
      let t := enterCmd s h (.send a) 2
      fnMay t fn a.src.toNat a.length.toNat = true → inRange t a.src.toNat a.length.toNat = true → nodeDown t a.node.toNat = false →
      let prot := t.remote.regions.any fun e => e.2.prot && overlaps a.src.toNat a.length.toNat e.2.base e.2.length
      (prot = true → t.remote.kfab.isSome = true) →
      exec (.opSend h a) s = .next (quiet s (settle (addFlush
        { t with remote := { t.remote with
          nextTag := t.remote.nextTag + 1
          sends := t.remote.sends ++ [{ tag := t.remote.nextTag, fn := fn, cmd := id, node := a.node.toNat, slot := a.slot.toNat, key := a.key
                                        gen := a.gen.toNat, src := a.src.toNat, len := a.length.toNat, prot := prot
                                        deadline := h.deadline.toNat }] } } t.remote.nextTag true fn a.node.toNat)))) ∧
    (∀ node : Half, Starts s h (.flush node) →
      let t := enterCmd s h (.flush node) 2
      let w : FlushWait := { cmd := id, fn := fn, node := if bit node.toNat 15 = 1 then none else some (node.toNat % 2 ^ 14)
                             upto := t.remote.nextSeq }
      let u := { t with remote := { t.remote with waits := t.remote.waits ++ [w] } }
      ((u.remote.flushes.filter (flushCovers w)).any (fun f => f.outcome.isNone) = true →
        exec (.opFlush h node) s = .next (quiet s (settle u))) ∧
      (u.remote.flushes.filter (flushCovers w) = [] →
        exec (.opFlush h node) s = .next (quiet s (settle (finishCmd
          { u with remote := { u.remote with
              waits := u.remote.waits.filter fun x => x.cmd != id
              flushes := u.remote.flushes.filter fun f => !flushCovers w f } } id stOk 0)))))

/-- R154, R157, R159, R161, R311: a submitted request becomes a descriptor in ADMITTING and its CREATE goes to the home; a request of
this device ends, is handed out or taken in; its home record is answered; a prefix is looked up and a page pinned and unpinned. -/
def Obligations.RequestCommands : Prop :=
  ∀ (s : State) (h : CmdHdr),
    let id := freshCmd s
    let fn := h.fn.val
    (∀ (a : SubmitArg) home idx l, Starts s h (.submit a) →
      let t := enterCmd s h (.submit a) 2
      let ctx := a.context.toNat
      contextStatus t fn ctx = stOk → 0 < a.plen.toNat → a.plen.toNat < a.maxlen.toNat → layoutOf t ctx = some l → a.maxlen.toNat ≤ l.maxpos →
      inAlloc t ctx a.tbuf.toNat (4 * a.maxlen.toNat) = true → buffersOk t ctx a.sample.toNat a.map.toNat = true → a.parent = 0 →
      chooseHome t fn a none = .inr home → freeDescIdx t = some idx →
      let m := clearMap t l a.map.toNat
      let hd := mkHandle (imageJob m) home (nodeNum m) (nextSeq m)
      let d : Desc := {
        idx := idx, handle := hd, state := .admitting, client := fn, ctx := ctx, prot := ctxProt m ctx, plen := a.plen.toNat
        maxlen := a.maxlen.toNat, map := a.map.toNat, tbuf := a.tbuf.toNat, home := home, partner := (partnerOf m home).getD 0
        tip := BitVec.ofNat 64 fn, parent := 0, sample := a.sample.toNat, created := now m, lead := isLead m, cmd := id
        ring := h.ring.val, cid := h.cid, order := m.forager.nextOrder, hashes := promptHashes m fn a.tbuf.toNat a.plen.toNat }
      let u := addDesc { m with forager := { m.forager with seq := nextSeq m, nextOrder := m.forager.nextOrder + 1 } } d
      exec (.opSubmitRequest h a) s = .next (quiet s (settle (sendCreate u hd)))) ∧
    (∀ hd d, hd ≠ 0 → descOf s hd = some d → d.epoch ≠ 0 → d.lead = true →
      (Starts s h (.cancel hd) → d.state = .active ∨ d.state = .adopted →
        exec (.opCancelRequest h hd) s = .next (quiet s (settle (endRequest (enterCmd s h (.cancel hd) 2) hd stOk id)))) ∧
      (∀ target : Half, Starts s h (.handoffOut hd target) → d.state = .active ∨ d.state = .adopted → target.toNat ≠ nodeNum s →
        exec (.opHandoffOut h hd target) s = .next (quiet s (settle (descMod (enterCmd s h (.handoffOut hd target) 2) hd fun d =>
          { d with state := .handingOut, wasAdopted := d.wasAdopted || d.state == .adopted, peer := some target.toNat, cmd := id, proposed := false }))))) ∧
    (∀ (a : HandoffInArg) idx, Starts s h (.handoffIn a) → a.handle ≠ 0 → descOf s a.handle = none →
      let t := enterCmd s h (.handoffIn a) 2
      let ctx := a.context.toNat
      contextStatus t fn ctx = stOk → buffersOk t ctx a.sample.toNat a.map.toNat = true → freeDescIdx t = some idx →
      let src := if a.source.getLsbD 15 then some (a.source.toNat % 2 ^ 14) else none
      let u := { t with forager := { t.forager with nextOrder := t.forager.nextOrder + 1 } }
      let v := addDesc u {
        idx := idx, handle := a.handle, state := .receiving, client := fn, ctx := ctx, prot := ctxProt t ctx, map := a.map.toNat
        tbuf := a.tbuf.toNat, sample := a.sample.toNat, home := hHome a.handle, partner := (partnerOf t (hHome a.handle)).getD 0
        peer := src, created := now t, cmd := id, ring := h.ring.val, cid := h.cid, order := t.forager.nextOrder
        lead := isLead t, tip := BitVec.ofNat 64 fn }
      exec (.opHandoffIn h a) s = .next (quiet s (settle (askHome (relay v a.handle noticeJoin 0 0 none) a.handle 0 (.claim src 0))))) ∧
    (∀ (hd buf : DWord) r, Starts s h (.query hd buf) → hd ≠ 0 → buf.toNat % 64 = 0 → s.boot.role = roleCache → servesHome s hd = true →
      recOf s hd = some r →
      let t := enterCmd s h (.query hd buf) 2
      (buf = 0 → exec (.opQueryRequest h hd buf) s = .next (quiet s (settle (finishCmd t id stOk (queryWord r.data))))) ∧
      (buf ≠ 0 → exec (.opQueryRequest h hd buf) s = .next (quiet s (settle
        (finishCmd (emit t (.hostWrite fn buf.toNat (queryBytes r.data))) id stOk (queryWord r.data)))))) ∧
    (∀ (home : Half) (count : Word) (tokens : BitVec 48), Starts s h (.prefixLookup home count tokens) → count ≠ 0 →
      s.sched.image.isSome = true → inRange s tokens.toNat (4 * count.toNat) = true → home.toNat = nodeNum s → s.boot.role = roleCache →
      let t := enterCmd s h (.prefixLookup home count tokens) 2
      let n := count.toNat / 64
      exec (.opPrefixLookup h home count tokens) s = .next (quiet s (settle (finishCmd t id stOk
        (lookupM t fn (chainHashes (hashKey t) n (BitVec.ofNat 64 fn) (tokensAt t tokens.toNat (64 * n)))))))) ∧
    (∀ (page : Word) p,
      (Starts s h (.pagePin page) →
        let t := enterCmd s h (.pagePin page) 2
        pageCheck t fn page.toNat = .inr p → p.pins < 0xFFFF →
        let u := pageSet t page.toNat { p with pins := p.pins + 1, cmdPins := tset p.cmdPins fn (tgetD p.cmdPins fn 0 + 1) }
        pageInHbm u p = true → exec (.opPagePin h page) s = .next (quiet s (settle (finishCmd u id stOk (p.pins + 1))))) ∧
      (Starts s h (.pageUnpin page) →
        let t := enterCmd s h (.pageUnpin page) 2
        pageCheck t fn page.toNat = .inr p → 0 < tgetD p.cmdPins fn 0 →
        let u := pageSet t page.toNat { p with pins := p.pins - 1, cmdPins := tsetD p.cmdPins fn (tgetD p.cmdPins fn 0 - 1) 0 }
        exec (.opPageUnpin h page) s = .next (quiet s (settle (finishCmd (reclaim u page.toNat) id stOk (p.pins - 1))))))

/-- R303, R304, R27, R32: a packet of any operation that a row of the checks refuses is answered with that row's status and has no other
effect, but that a refusal of a request command is noted as R168 says; one whose not-before beat lies ahead is held; a packet of a function
that may have none parsed has no effect; an operation of PF0 alone is refused to every other function. -/
def Obligations.CommandChecks : Prop :=
  ∀ (s : State) (h : CmdHdr) (page hd buf : DWord) (role slot mode client : Byte) (job first last n k target : Half) (l count p : Word)
      (tokens : BitVec 48) (nonce : BitVec 256) (im : ImageArg) (a : SubmitArg) (hi : HandoffInArg) (ra : RegionArg) (pa : PostArg)
      (sa : SendArg) (mi : MigrateArg) (pf : PrefetchArg) (ca : ContextArg) (da : DmaCopyArg) (host : HostLines),
    ∀ x ∈ [(Instr.opNop h, HostOp.nop, (none : Option DWord)), (.opIdentify h page, .identify page, none),
        (.opSetRole h role, .setRole role, none), (.opLoadModelImage h im, .loadModel im, none),
        (.opLoadScheduleImage h im, .loadSchedule im, none), (.opStartJob h, .startJob, none), (.opStopJob h job, .stopJob job, none),
        (.opSubmitRequest h a, .submit a, some 0), (.opCancelRequest h hd, .cancel hd, some hd),
        (.opHandoffOut h hd target, .handoffOut hd target, some hd), (.opHandoffIn h hi, .handoffIn hi, some hi.handle),
        (.opQueryRequest h hd buf, .query hd buf, some hd), (.opPrefixLookup h n count tokens, .prefixLookup n count tokens, some 0),
        (.opPagePin h p, .pagePin p, none), (.opPageUnpin h p, .pageUnpin p, none),
        (.opLoadCodebook h im slot first last, .loadCodebook im slot first last, none),
        (.opRetireCodebook h n first last, .retireCodebook n first last, none), (.opLoadGrammar h im slot, .loadGrammar im slot, none),
        (.opRetireGrammar h n, .retireGrammar n, none), (.opRegisterRegion h ra, .registerRegion ra, none),
        (.opRevokeRegion h hd, .revokeRegion hd, none), (.opPostRecv h pa, .postRecv pa, none), (.opSend h sa, .send sa, none),
        (.opFlush h n, .flush n, none), (.opMigrateTiles h mi, .migrate mi, none), (.opPrefetch h pf, .prefetch pf, none),
        (.opContextCreate h ca, .contextCreate ca, none), (.opContextDestroy h n, .contextDestroy n, none),
        (.opSemInit h n k, .semInit n k, none), (.opSetPowerLimit h mode k l, .setPowerLimit mode k l, none),
        (.opAttest h buf nonce, .attest buf nonce, none), (.opReadAccounting h client buf, .readAccounting client buf, none),
        (.opSelfTestKat h, .selfTest 0, none), (.opSelfTestStress h, .selfTest 1, none), (.opDmaCopy h da host, .dmaCopy da host, none)],
      (∀ st, fetchOpen s h.fn.val = true → parseCheck s h x.2.1 = .refuse st →
        let t := enterCmd s h x.2.1 2
        (x.2.2 = none → exec x.1 s = .next (quiet s (settle (finishCmd t (freshCmd s) st 0)))) ∧
        (∀ q, x.2.2 = some q → exec x.1 s = .next (quiet s (settle (finishCmd (noteRefusal t 0 st q) (freshCmd s) st 0))))) ∧
      (fetchOpen s h.fn.val = true → parseCheck s h x.2.1 = .hold →
        exec x.1 s = .next (quiet s (settle (enterCmd s h x.2.1 1)))) ∧
      (fetchOpen s h.fn.val = false → exec x.1 s = .next (quiet s s)) ∧
      (h.fn.val ≠ 0 → (x.2.1 ∈ [.setRole role, .loadSchedule im, .startJob, .stopJob job, .setPowerLimit mode k l, .selfTest 0, .selfTest 1] →
        parseCheck s h x.2.1 = .refuse stRights))

/-- R137, R145, R146, R156, R163, R161, R158: a home message on a handle with no operation under way. With no mirror UP a change is applied
at once; with one it is sent to the mirror first and waits for its answers; a refusal is counted and answered, and has no other effect. A
message for a handle whose first operation waits for the mirror waits behind it. -/
def Obligations.HomeOperations : Prop :=
  ∀ (s : State) (m : FHdr) (client : Byte) (plen maxlen first count b : Word) (parent hash : DWord) (ids : List Word) (hashes : List DWord)
    (target owner : Half) (epoch : Word) (status : Half) (ps : List PageData), LetIn s m true → servesHome s m.handle = true →
    (∀ i ∈ [Instr.create m client plen maxlen parent ids hashes, .renew m, .propose m target, .claim m owner epoch,
        .tokens m first count ids, .end_ m status],
      (∀ o ∈ s.forager.homeOps, o.handle ≠ m.handle ∧ o.msg ≠ i) →
      let q := queuedOp s m.handle i
      let left := s.forager.homeOps.length + 1
      (judge q i = .change → otherCopy s = none →
        exec i s = .next (quiet s (settle (pumpOps m.handle left (applyOp s i (now s)))))) ∧
      (∀ p, judge q i = .change → otherCopy s = some p →
        let rs := replicates q i (now s) m.handle
        let carried := rs.findSome? fun d => match d with
          | .record r _ _ false => some r
          | _ => none
        exec i s = .next (quiet s (settle (rs.foldl (fun s d => ask s p m.handle 0 (.replicate d) false true)
          (opSet q m.handle fun x => { x with sent := true, acks := rs.length, carried := carried }))))) ∧
      (judge q i = .same → exec i s = .next (quiet s (settle (pumpOps m.handle left (sameOp s i))))) ∧
      (∀ st, judge q i = .refuse st → exec i s = .next (quiet s (settle (pumpOps m.handle left (refuseOp s i st)))))) ∧
    (∀ i ∈ [Instr.create m client plen maxlen parent ids hashes, .renew m, .propose m target, .claim m owner epoch,
        .tokens m first count ids, .end_ m status, .commit m b hash ps, .fetch m first count, .query m none],
      (∃ o, s.forager.homeOps.find? (fun o => o.handle == m.handle) = some o ∧ o.sent = true) →
      exec i s = .next (quiet s (settle (queuedOp s m.handle i))))

/-- R152, R153, R154, R156, R161, R163: what a home operation that came at beat b makes of the record it finds. -/
def Obligations.HomeChanges : Prop :=
  ∀ (s : State) (m : FHdr) (r : HomeRec) (b : Nat), recOf s m.handle = some r →
    let set := fun (d : RecordData) => recPut s { r with data := d }
    let src := m.src.toNat
    let lease := now s + cfld s rFgCfg 11 0
    (applyOp s (.renew m) b = reply (set { r.data with lease := lease }) src m.handle stOk (.renew lease)) ∧
    (∀ target : Half, r.data.claimed = false →
      applyOp s (.propose m target) b = reply
        (set { r.data with pending := some (target.toNat % 2 ^ 14), proposed := true, state := recPending }) src m.handle stOk .propose) ∧
    (∀ target : Half, r.data.claimed = true →
      applyOp s (.propose m target) b = swapNotices (reply (set { r.data with
        lastc := if r.data.ownerCommitted then r.data.owner else r.data.lastc
        owner := r.data.pending, epoch := r.data.epoch + 1, lease := lease, ownerCommitted := false
        pending := none, proposed := false, claimed := false, state := recOwned }) src m.handle stOk .propose) m.handle r.data.owner) ∧
    (∀ (o : Half) (e : Word), r.data.state ≠ recOrphaned → r.data.proposed = false →
      applyOp s (.claim m o e) b = reply
        (set { r.data with pending := some src, claimed := true, state := recPending }) src m.handle stOk .claim) ∧
    (∀ (o : Half) (e : Word), r.data.state = recOrphaned ∨ r.data.proposed = true →
      applyOp s (.claim m o e) b = swapNotices (reply (set { r.data with
        lastc := if r.data.ownerCommitted then r.data.owner else r.data.lastc
        owner := some src, epoch := r.data.epoch + 1, lease := lease, ownerCommitted := false
        pending := none, proposed := false, claimed := false, state := recOwned }) src m.handle stOk .claim) m.handle r.data.owner) ∧
    (∀ status : Half, applyOp s (.end_ m status) b = freeRec (reply s src m.handle stOk .end_) m.handle) ∧
    (r.data.epoch = 0xFFFFFFFF → dataAfter s (.leaseReassign m.handle) b r.data = { r.data with state := recEnding }) ∧
    (r.data.epoch ≠ 0xFFFFFFFF →
      let d := { r.data with
        epoch := r.data.epoch + 1, pending := none, proposed := false, claimed := false
        lastc := if r.data.ownerCommitted then r.data.owner else r.data.lastc, ownerCommitted := false }
      let given := b + cfld s rFgCfg 11 0
      (∀ p, r.data.pending = some p → peerUp s p = true →
        dataAfter s (.leaseReassign m.handle) b r.data = { d with state := recOwned, owner := some p, lease := given }) ∧
      (∀ c, r.data.pending = none → r.data.lastc = some c → peerUp s c = true → r.data.owner ≠ some c →
        dataAfter s (.leaseReassign m.handle) b r.data = { d with state := recOwned, owner := some c, lease := given }) ∧
      (r.data.pending = none → r.data.lastc = none →
        dataAfter s (.leaseReassign m.handle) b r.data = { d with state := recOrphaned, owner := none }))

/-- R144, R145, R158, R160: the messages a home or its mirror answers from its records, each in its turn for the handle: a query, a
lookup, a fetch with nothing to send, a block's pages placed before and as the block is whole, a mirrored record. A query of a record that is
not there is refused. -/
def Obligations.HomeReads : Prop :=
  ∀ (s : State) (m : FHdr), LetIn s m true →
    let src := m.src.toNat
    let left := s.forager.homeOps.length + 1
    (∀ i : Instr, servesHome s m.handle = true → (∀ o ∈ s.forager.homeOps, o.handle ≠ m.handle) →
      let q := queuedOp s m.handle i
      let done := fun (v : State) => quiet s (settle (pumpOps m.handle left (opDrop v i)))
      (∀ r, i = .query m none → recOf s m.handle = some r → exec i s = .next (done (reply q src m.handle stOk (.query (some r.data))))) ∧
      (i = .query m none → recOf s m.handle = none → exec i s = .next (done (reply q src m.handle stBadField (.query none)))) ∧
      (∀ (first count : Word) r l im, i = .fetch m first count → recOf s m.handle = some r → r146 s m true = none →
        mainLayout s = some l → s.sched.image = some im → r.data.cb ≤ first.toNat →
        max r.data.clenh r.data.plen ≤ min r.data.plen (64 * r.data.cb) → exec i s = .next (done (reply q src m.handle stOk .fetch))) ∧
      (∀ (b : Word) (hash : DWord) (ps : List PageData) (pages : List (Nat × Nat × Nat)) (t : State) r, i = .commit m b hash ps →
        r146 s m true = none → recOf s m.handle = some r → r.data.cb ≤ b.toNat → r.done.contains b.toNat = false →
        r.from_.contains (b.toNat, src) = false → cget s rFgPfxCount ≠ 0 → placePages q r.data.client ps = some (pages, t) →
        let u := recMod t m.handle fun r => { r with
          placed := tset r.placed b.toNat (tgetD r.placed b.toNat [] ++ pages), from_ := r.from_ ++ [(b.toNat, src)]
          hashes := if m.hashv then tset r.hashes b.toNat hash else r.hashes }
        ∀ r', recOf u m.handle = some r' →
          (blockPlaced u r' b.toNat = false → exec i s = .next (done u)) ∧
          (blockPlaced u r' b.toNat = true → otherCopy u = none →
            exec i s = .next (quiet s (settle (pumpOps m.handle left (applyOp (opDrop u i) i (now s)))))))) ∧
    (∀ client hashes, exec (.query m (some (client, hashes))) s = .next (quiet s (settle
      (reply s src m.handle stOk (.lookup (lookupM s client.toNat hashes)))))) ∧
    (∀ x d hashes parent, recOf s m.handle = some x →
      exec (.replicate m (.record d hashes parent false)) s = .next (quiet s (settle
        (reply (recPut s { x with data := d }) src m.handle stOk .replicate))) ∧
      exec (.replicate m (.record d hashes parent true)) s = .next (quiet s (settle
        (reply (freeRec s m.handle) src m.handle stOk .replicate)))) ∧
    (∀ first ids, exec (.replicate m (.tokens first ids)) s = .next (quiet s (settle
      (reply (writeLog s m.handle first ids) src m.handle stOk .replicate)))) ∧
    (∀ x b, recOf s m.handle = some x →
      (blockPlaced s x b = true → exec (.replicate m (.pages [] b none)) s = .next (quiet s (settle
        (reply (commitLocal s m.handle b) src m.handle stOk .replicate)))) ∧
      (blockPlaced s x b = false → exec (.replicate m (.pages [] b none)) s = .next (quiet s (settle
        { s with forager := { s.forager with ackWaits := s.forager.ackWaits ++ [(m.handle, b, src)] } }))))

/-- R144, R155, R157, R159, R163: the messages of a home and of peers at the computing device that holds the request, in the state the
message is for: pages and tokens of a fetch, GRANT, RELEASED, EXPIRED, ADOPT, JOIN, PENDING_CLEARED and DIRECT. A notice of an earlier epoch
than the request's is refused. -/
def Obligations.OwnerMessages : Prop :=
  ∀ (s : State) (m : FHdr), LetIn s m false →
    let hd := m.handle
    let e := m.epoch.toNat
    (∀ d l ps t n, descOf s hd = some d → d.state = .fetching → descLayout s d = some l → placeFetched s l d ps = some (t, n) →
      ∀ first ids, exec (.pages m 0 first ids ps) s = .next (quiet s (settle
        (tryActive (descMod t hd fun d => { d with pagesLeft := d.pagesLeft - n }) hd)))) ∧
    (∀ d first ids ps, descOf s hd = some d → d.state = .fetching →
      exec (.pages m 1 first ids ps) s = .next (quiet s (settle (tryActive
        (descMod ((ids.mapIdx fun i t => (first.toNat + i, t)).foldl (fun s p => putToken s d p.1 p.2.toNat) s) hd
          fun d => { d with tokensLeft := false }) hd)))) ∧
    (∀ d r, descOf s hd = some d → e < d.epoch →
      ∀ i ∈ [Instr.grant m r, .released m, .expired m, .adopt m r, .pendingCleared m],
        exec i s = .next (quiet s (settle (noteRefusal s 12 stNotOwner hd)))) ∧
    (∀ d r, descOf s hd = some d → d.epoch ≤ e → d.state = .receiving → d.lead = true →
      let v := judgeDirect (applySummary s hd e r) hd
      inAlloc v d.ctx d.tbuf (4 * r.maxlen.toNat) = true →
      exec (.grant m r) s = .next (quiet s (settle (startFetch (relay v hd noticeGrant e 0 (some r)) hd)))) ∧
    (∀ d, descOf s hd = some d → d.epoch ≤ e → d.lead = true → d.state = .handingOut → d.cmd ≠ 0 →
      exec (.released m) s = .next (quiet s (settle (finishCmd
        (freeDesc (descMod (relay s hd noticeReleased e 0 none) hd fun d => { d with state := .passed, cmd := 0 }) hd) d.cmd stOk e)))) ∧
    (∀ d, descOf s hd = some d → d.epoch ≤ e → m.status ≠ stPoisoned →
      d.state = .active ∨ d.state = .fetching ∨ d.state = .handingOut ∨ d.state = .adopted → d.lead = false ∨ d.epoch < e →
      exec (.expired m) s = .next (quiet s (settle (fenceDesc s hd stLeaseExpired)))) ∧
    (∀ r idx, descOf s hd = none → freeDescIdx s = some idx →
      exec (.adopt m r) s = .next (quiet s (settle (adoptDesc (addDesc s {
        idx := idx, handle := hd, state := .adopted, client := r.client.toNat, created := now s, lead := isLead s
        order := s.forager.nextOrder }) m r 0)))) ∧
    (∀ idx, descOf s hd = none → freeDescIdx s = some idx →
      exec (.join m) s = .next (quiet s (settle (addDesc s (memberPlace s {
        idx := idx, handle := hd, state := .receiving, client := 0, home := hHome hd, partner := (partnerOf s (hHome hd)).getD 0
        created := now s, lead := false, order := s.forager.nextOrder }))))) ∧
    (∀ d, descOf s hd = some d → d.epoch ≤ e → d.state = .handingOut →
      exec (.pendingCleared m) s = .next (quiet s (settle (callOff s hd stTargetLost)))) ∧
    (∀ d first ps, descOf s hd = some d → d.state = .receiving ∨ d.state = .fetching → d.peer = some m.src.toNat →
      (directFits d e = true → d.direct = none →
        exec (.direct m first ps) s = .next (quiet s (settle
          (descMod s hd fun d => { d with direct := some (e, first.toNat, ps) })))) ∧
      (directFits d e = false →
        exec (.direct m first ps) s = .next (quiet s (settle
          (reply (noteRefusal s 13 stNotOwner hd) m.src.toNat hd stNotOwner .other)))))

/-- R141, R144, R146, R153: a REPLY that answers a message this device sent; one that answers none, or comes from another epoch of
roles, is dropped. R162, R154, R153, R164: PROPOSE leaves once the step is over and its tokens and blocks are with the home; an owner
whose lease has passed is fenced; a home reassigns a request whose lease has passed; resilvering is complete. -/
def Obligations.RepliesAndLeases : Prop :=
  (
    ∀ (s : State) (m : FHdr), Powered s → jobStarted s = true → m.resv = false →
      (m.roleEpoch = s.boot.roleEpoch → s.beat.state ≠ .lost → m.notBefore = 0 ∨ m.notBefore.toNat ≤ now s →
        (∀ r, s.forager.asked.find? (answers m r) = none → m.status ≠ stRoleStale → r ≠ .other ∨ fencedBy s m.handle m.status = false →
          exec (.reply m r) s = .next (quiet s (settle s))) ∧
        (m.status ≠ stRoleStale → fencedBy s m.handle m.status = true →
          exec (.reply m .other) s = .next (quiet s (settle (fenceDesc s m.handle m.status)))) ∧
        (∀ a lease, s.forager.asked.find? (answers m (.renew lease)) = some a → m.status = stOk →
          let t := takeAsked s (answers m (.renew lease))
          let u := descMod t m.handle fun d => { d with lease := max d.lease lease }
          exec (.reply m (.renew lease)) s = .next (quiet s (settle { u with
            forager := { u.forager with asked := u.forager.asked.filter fun a => !(a.handle == m.handle && bodyType a.body == 2) } }))) ∧
        (∀ a, s.forager.asked.find? (answers m .propose) = some a → m.status = stOk →
          exec (.reply m .propose) s = .next (quiet s (settle (takeAsked s (answers m .propose))))) ∧
        (∀ a, s.forager.asked.find? (answers m .claim) = some a → m.status = stOk →
          exec (.reply m .claim) s = .next (quiet s (settle (takeAsked s (answers m .claim))))) ∧
        (∀ a, s.forager.asked.find? (answers m .replicate) = some a → m.status = stOk →
          let t := takeAsked s (answers m .replicate)
          exec (.reply m .replicate) s = .next (quiet s (settle (if a.follow then t else ackOp t m.handle stOk))))) ∧
      (m.roleEpoch ≠ s.boot.roleEpoch →
        ∀ r, exec (.reply m r) s = .next (quiet s (noteRefusal s 14 stRoleStale m.handle)))) ∧ (
    ∀ (s : State), Powered s →
      (∀ hd d, descOf s hd = some d → d.state = .handingOut → d.proposed = false → stepOf s hd = none → d.tokensOut = [] →
        d.wasAdopted = true ∨ d.clen / 64 ≤ d.cb → directRows s d = [] →
        exec (.handoffProposeSend hd) s = .next (quiet s (settle
          (askHome (descMod s hd fun d => { d with proposed := true }) hd d.epoch (.propose (d.peer.getD 0)))))) ∧
      (∀ hd d, descOf s hd = some d → d.lead = true → hasBeat s = true → d.lease ≤ now s →
        (d.state = .fetching ∨ d.state = .active ∨ d.state = .handingOut ∨ d.state = .adopted →
          exec (.leaseFence hd) s = .next (quiet s (settle (fenceDesc s hd stLeaseExpired))))) ∧
      (∀ hd r, servesHome s hd = true → hasBeat s = true → recOf s hd = some r → r.data.lease ≤ now s →
        r.data.state = recOwned ∨ r.data.state = recPending →
        (∀ o ∈ s.forager.homeOps, o.handle ≠ hd ∧ o.msg ≠ .leaseReassign hd) → otherCopy s = none →
        exec (.leaseReassign hd) s = .next (quiet s (settle
          (pumpOps hd (s.forager.homeOps.length + 1) (applyOp s (.leaseReassign hd) (now s)))))) ∧
      (∀ n : NodeId, s.forager.resilver.contains n.toNat = true →
        exec (.resilverComplete n) s = .next (quiet s (settle (setEvent { s with forager := { s.forager with
          resilver := s.forager.resilver.filter (· != n.toNat), resilvered := insertNat n.toNat s.forager.resilvered } } rFgEvent 5)))))

/-- R251, R258, R259, R260, R261, R266: the link's codewords and replays, a lane dropped, and the port's states. A codeword out of order is
counted by nothing but its corrections; one in order moves the receive sequence on and releases what it acknowledges; the eighth replay
in a row, silence and the last lane lost take the port down, and the width is the narrower of the two ends'. -/
def Obligations.LinksAndPorts : Prop :=
  ∀ (s : State) (p : PortId), Powered s →
    (∀ w : CodewordIn, (portGet s p.val).state = .up → (∀ n ∈ w.corrected, n = 0) →
      let x := portGet s p.val
      let next := { x with rxSeq := w.seq.toNat }
      (w.decoded = true → w.seq.toNat = (x.rxSeq + 1) % 1024 → w.ack.toNat = x.ackSeq → x.ackSeq < 1024 →
        exec (.codewordReceive p w) s = .next (quiet s (settle (portPut s p.val next)))) ∧
      (w.decoded = true → w.seq.toNat = (x.rxSeq + 1) % 1024 →
        let adv := (w.ack.toNat + 1024 - x.ackSeq) % 1024
        0 < adv → adv ≤ 256 → adv ≤ unacked x →
        exec (.codewordReceive p w) s = .next (quiet s (settle (pump (portPut s p.val { next with
          ackSeq := w.ack.toNat, sent := x.sent.filter fun e => adv < (e.1 + 1024 - x.ackSeq) % 1024, replays := 0 }))))) ∧
      (w.decoded = true → w.seq.toNat ≠ (x.rxSeq + 1) % 1024 →
        exec (.codewordReceive p w) s = .next (quiet s (settle (portPut s p.val x)))) ∧
      (w.decoded = false → w.badLane = none →
        exec (.codewordReceive p w) s = .next (quiet s (settle (satAdd (portPut s p.val x) (rEgPortLink p.val) 31 16 1)))) ∧
      (∀ l, w.decoded = false → w.badLane = some l →
        exec (.codewordReceive p w) s = .next (quiet s (settle
          (satAdd (portPut s p.val { x with badBeat := listAdd x.badBeat l.val 1 }) (rEgPortLink p.val) 31 16 1))))) ∧
    ((portGet s p.val).state = .up → unacked (portGet s p.val) ≠ 0 →
      let x := portGet s p.val
      let t := satAdd (emit (portPut s p.val { x with replays := x.replays + 1 })
        (.replay p.val (x.replay.drop (x.replay.length - unacked x)))) (rEgPortLink p.val) 15 0 1
      (x.replays < 7 → exec (.linkReplay p) s = .next (quiet s (settle t))) ∧
      (7 ≤ x.replays → exec (.linkReplay p) s = .next (quiet s (settle (portGoesDown t p.val .replays))))) ∧
    (∀ (l : Fin 4) (peer : BitVec 4),
      let x := portGet s p.val
      let m := BitVec.ofNat 4 (2 ^ l.val)
      let t := event (setEvent (portPut s p.val { x with dropped := x.dropped ||| m, locked := x.locked &&& ~~~m }) rEgEvent 0)
        { sev := sevNotice, src := srcEmgait, loc := 0x300 + p.val } 16
      x.state = .up → x.locked &&& m ≠ 0 →
      let w := min (portGet t p.val).width (min (widthOf (portGet t p.val).locked) (widthOf peer))
      (w = 0 → exec (.laneDrop p l ⟨.lostLock, peer⟩) s = .next (quiet s (settle (portGoesDown t p.val .lanes)))) ∧
      (0 < w → w < (portGet t p.val).width →
        exec (.laneDrop p l ⟨.lostLock, peer⟩) s = .next (quiet s (settle (linkEvent
          (setEvent (satAdd (portPut t p.val { portGet t p.val with width := w }) (rEgPortFlaps p.val) 15 0 1) rEgEvent 0)
          p.val (portCode .up) (portCode .up) 6))))) ∧
    (∀ tr : TrainEnd, (portGet s p.val).state = .training →
      let width := min (widthOf tr.lanes) (widthOf tr.peerLanes)
      width ≠ 0 →
      let t := portPut s p.val { portGet s p.val with
        state := .up, width := width, locked := tr.lanes, dropped := 0, peerNode := tr.peerNode, peerPort := tr.peerPort.val
        peerIdentity := tr.peerIdentity, credits := fullCredits, owed := [0, 0, 0, 0], reserved := [], timer := false, txSeq := 0
        stream := [], rxSeq := 1023, ackSeq := 1023, replay := [], replays := 0, sent := [], corrBeat := [0, 0, 0, 0], badBeat := [0, 0, 0, 0] }
      exec (.portUp p tr) s = .next (quiet s (settle
        (pump (linkEvent (setEvent t rEgEvent 1) p.val (portCode .training) (portCode .up) 0))))) ∧
    ((portGet s p.val).state = .up →
      (∀ c, exec (.portDown p c) s = .next (quiet s (settle (portGoesDown s p.val c)))) ∧
      exec (.portSilenceTimeout p) s = .next (quiet s (settle (portGoesDown s p.val .silence)))) ∧
    ((portGet s p.val).state ≠ .up →
      (∀ c, c ≠ .powerOff → exec (.portDown p c) s = .next (quiet s (settle s))) ∧
      exec (.portDown p .powerOff) s = .next (quiet s (settle (portPut s p.val { portGet s p.val with state := .disabled, width := 0 }))) ∧
      exec (.portSilenceTimeout p) s = .next (quiet s (settle s))) ∧
    ((portGet s p.val).state = .held → (portGet s p.val).holdEnd ≤ s.beat.periods →
      ∃ t, exec (.portHoldExpiry p) s = .next t ∧ (portGet t p.val).state = .training) ∧
    (∀ vc : BitVec 2, ((heads s.fabric.waiting).any fun q => q.vc == vc.toNat && decide (256 ≤ q.age) && standsAt s p.val q) = true →
      exec (.vcStall p vc) s = .next (quiet s (settle (linkEvent (setEvent s rEgEvent 7) p.val
        (portCode (portGet s p.val).state) (portCode (portGet s p.val).state) 7))))

/-- R252, R253, R255, R264, R265, R273: a packet for this node that is whole, in time and well formed is delivered; one whose header does not
check is discarded; one for another node goes into the queue of its output; one past its beat expires with a RETURN. Credits come, go
back, and a span's guard opens. -/
def Obligations.PacketsAndCredits : Prop :=
  ∀ (s : State), Powered s →
    (∀ arr p, pktHopOk p = false → exec (.packetForward arr p) s = .next (quiet s (settle (discardHchk (takenIn s arr p))))) ∧
    (∀ arr p, pktHopOk p = true → p.type ≠ 0x10 → p.type ≠ 0x11 → p.type ≠ 0x12 → s.fabric.node.isSome = true → pktNode p = nodeNum s →
      (pktPcrcOk p = true → packetLate s p = false → p.resv = false →
        exec (.packetForward arr p) s = .next (quiet s (settle (emit (takenIn s arr p) (.localPacket p))))) ∧
      (pktPcrcOk p = false →
        exec (.packetForward arr p) s = .next (quiet s (settle (sendReturn (discardHchk (takenIn s arr p)) p stCheckMismatch)))) ∧
      (pktPcrcOk p = true → packetLate s p = true →
        exec (.packetForward arr p) s = .next (quiet s (settle (sendReturn (discardExpired (takenIn s arr p)) p stDeadlineMissed)))) ∧
      (pktPcrcOk p = true → packetLate s p = false → p.resv = true →
        exec (.packetForward arr p) s = .next (quiet s (settle (sendReturn (takenIn s arr p) p stBadField))))) ∧
    (∀ (a : PortId) (p : Packet), pktHopOk p = true → p.type ≠ 0x10 → p.type ≠ 0x11 → isDirected p = false →
      s.fabric.node.isSome = true → pktNode p ≠ nodeNum s → packetLate s p = false →
      (p.hops = 0 →
        exec (.packetForward (some a) p) s = .next (quiet s (settle (sendReturn (discardExpired (takenIn s (some a) p)) p stNoRoute)))) ∧
      (∀ k, p.hops ≠ 0 → (routePorts s a.val (pktNode p)).find? (portUp s) = some k →
        let q : QPkt := { id := s.fabric.nextPkt, input := a.val, vc := p.vc.toNat, pkt := p, early := spanEarly s p
                          out := if p.ordered then some k else none }
        exec (.packetForward (some a) p) s = .next (quiet s (settle
          (pump { s with fabric := { s.fabric with waiting := s.fabric.waiting ++ [q], nextPkt := s.fabric.nextPkt + 1 } }))))) ∧
    (∀ (port : PortId) (vc : BitVec 2) q,
      s.fabric.waiting.find? (fun q => q.vc == vc.toNat && packetLate s q.pkt && standsAt s port.val q) = some q →
      exec (.packetExpire port vc) s = .next (quiet s (settle
        (pump (sendReturn (discardExpired (dropWaiting s q)) q.pkt stDeadlineMissed))))) ∧
    (∀ (p : PortId) (n0 n1 n2 n3 : Half), (portGet s p.val).state = .up →
      let x := fillReserved (portGet s p.val) n0.toNat (reservations s p.val)
      exec (.credit p [n0, n1, n2, n3]) s = .next (quiet s (settle (pump (portPut s p.val
        { x with credits := listAdd (listAdd (listAdd x.credits 1 n1.toNat) 2 n2.toNat) 3 n3.toNat }))))) ∧
    (∀ p : PortId, (portGet s p.val).timer = true →
      let x := portGet s p.val
      exec (.creditReturnTimer p) s = .next (quiet s
        (emit (putLinkLocal (portPut s p.val { x with owed := [0, 0, 0, 0], timer := false }) p.val 0x11 0 (x.owed.flatMap (leBytes 2)))
          (.credit p.val x.owed)))) ∧
    (∀ (p : PortId) j0 im r, jobOrigin s = some j0 → s.sched.image = some im → hasBeat s = true → j0 ≤ now s + 1 → im.1.frame ≠ 0 →
      spanAt s p.val ((now s + 1 - j0) % im.1.frame) = some r → (portGet s p.val).span ≠ some r →
      exec (.spanGuardOpen p) s = .next (quiet s (portPut s p.val { portGet s p.val with guard := some r })))

/-- R267 to R270, R262, R293, R330, R407: a directed waggle whose route goes on is passed on, or discarded as R265 says, whatever its kind;
at its end each command's effect, and the reply with its status. One with a reserved bit set, a bad body, no node number assigned or a stale
fabric epoch is refused with no effect. -/
def Obligations.Waggles : Prop :=
  ∀ (s : State) (w : WaggleHdr), Powered s →
    let taken := fun (w : WaggleHdr) (kind : Byte) => oweCredit s w.port.val 2 (pktCredits (wagglePacket w kind))
    (waggleTransit w = true →
      (∀ kind, exec (.directedWaggleForward ⟨w, kind⟩) s = .next (quiet s (forwardWaggle s w kind))) ∧
      (∀ (n : Half) (e : Word) (b : BeatField),
        ∀ k ∈ [(Instr.probeWaggle w, (1 : Byte)), (.assign w n e, 2), (.routeCommit w b, 4), (.teardown w n, 7)],
          exec k.1 s = .next (quiet s (forwardWaggle s w k.2))) ∧
      (∀ (table : Byte) (first count : Half) (entries : List Half) (rest : RouteRest),
        exec (.routeWrite w table first count entries rest) s = .next (quiet s
          (forwardWaggle s { w with body := routeBody table first count entries rest } 3))) ∧
      (∀ (watts : Word) (first : BeatField) (span : BitVec 48),
        exec (.powerAlloc w watts first span) s = .next (quiet s (forwardWaggle s { w with body := allocBody watts first span } 8)))) ∧
    (waggleTransit w = false →
      (∀ kind, exec (.directedWaggleForward ⟨w, kind⟩) s = .next (quiet s s)) ∧
      (∀ (n : Half) (e : Word) (b : BeatField),
        ∀ k ∈ [(Instr.probeWaggle w, (1 : Byte), false), (.assign w n e, 2, decide (16383 < n.toNat)), (.routeCommit w b, 4, false),
            (.teardown w n, 7, false)],
          ∀ st, waggleCheck (taken w k.2.1) w (k.2.1 == 1) (k.2.1 == 2) k.2.2 = some st →
            exec k.1 s = .next (quiet s (waggleReply (taken w k.2.1) w st []))) ∧
      (let t := taken w 1
       waggleCheck t w true false false = none →
        exec (.probeWaggle w) s = .next (quiet s (waggleReply t w stOk
          ([0x2720, 0xA0, identity t, nodeWord t, t.fabric.epoch] ++ (List.range 6).flatMap (probePort t))))) ∧
      (∀ (node : Half) (epoch : Word),
        let t := taken w 2
        node.toNat ≤ 16383 → waggleCheck t w false true false = none →
        let n := BitVec.ofNat 14 node.toNat
        (t.fabric.node = none ∨ jobStarted t = false → t.fabric.node ≠ some n →
          exec (.assign w node epoch) s = .next (quiet s (waggleReply (setEvent { t with fabric := { t.fabric with
            node := some n, epoch := epoch.toNat, mgr := w.mgr, active := [], shadow := [] } } rEgEvent 5) w stOk []))) ∧
        (t.fabric.node = some n →
          exec (.assign w node epoch) s = .next (quiet s (waggleReply (setEvent { t with fabric := { t.fabric with
            epoch := epoch.toNat, mgr := w.mgr } } rEgEvent 5) w stOk []))) ∧
        (t.fabric.node ≠ none → t.fabric.node ≠ some n → jobStarted t = true →
          exec (.assign w node epoch) s = .next (quiet s (waggleReply t w stBusyReferenced [])))) ∧
      (∀ (table : Byte) (first count : Half) (entries : List Half) (rest : RouteRest),
        let w := { w with body := routeBody table first count entries rest }
        let t := taken w 3
        let at_ := table.toNat * 16384 + first.toNat
        let sh := ((routeEntries w.body).mapIdx fun i e => (at_ + i, BitVec.ofNat 16 e)).foldl (fun t p => tsetD t p.1 p.2 0) t.fabric.shadow
        (∀ st, waggleCheck t w false false (routeBodyBad w.body) = some st →
          exec (.routeWrite w table first count entries rest) s = .next (quiet s (waggleReply t w st []))) ∧
        (routeBodyBad w.body = false → waggleCheck t w false false false = none →
          exec (.routeWrite w table first count entries rest) s = .next (quiet s
            (waggleReply { t with fabric := { t.fabric with shadow := sh } } w stOk [])))) ∧
      (∀ beat : BeatField,
        let t := taken w 4
        waggleCheck t w false false false = none →
        (beat = 0 ∨ hasBeat t = false ∨ now t < beat.toNat →
          exec (.routeCommit w beat) s = .next (quiet s (waggleReply
            { t with fabric := { t.fabric with commitAt := t.fabric.commitAt ++ [beat.toNat] } } w stOk []))) ∧
        (beat ≠ 0 → hasBeat t = true → beat.toNat ≤ now t →
          exec (.routeCommit w beat) s = .next (quiet s (waggleReply t w stBeatPassed [])))) ∧
      (∀ node : Half, node.toNat ≤ 16383 →
        let t := taken w 5
        waggleCheck t w false false false = none →
        exec (.nodeDown w node) s = .next (quiet s (settle
          (waggleReply (peerLost (markDown t node.toNat) node.toNat .down) w stOk [])))) ∧
      (∀ (node : Half) (e : Word), node.toNat ≤ 16383 →
        let t := taken w 6
        waggleCheck t w false false false = none →
        exec (.nodeUp w node e) s = .next (quiet s (settle (waggleReply (peerBack (markUp t node.toNat) node.toNat e) w stOk [])))) ∧
      (∀ job : Half,
        let t := taken w 7
        waggleCheck t w false false false = none → jobStarted t = true → heldStarts t = [] → job.toNat = imageJob t →
        exec (.teardown w job) s = .next (quiet s (waggleReply { t with sched := { t.sched with torn := true } } w stOk []))) ∧
      (∀ (watts : Word) (first : BeatField) (span : BitVec 48),
        let w := { w with body := allocBody watts first span }
        let t := taken w 8
        let end_ := first.toNat + span.toNat % 65536
        (∀ st, waggleCheck t w false false (allocBodyBad w.body) = some st →
          exec (.powerAlloc w watts first span) s = .next (quiet s (waggleReply t w st []))) ∧
        (allocBodyBad w.body = false → waggleCheck t w false false false = none → t.power.mode ≠ 0 →
          (now t < end_ →
            exec (.powerAlloc w watts first span) s = .next (quiet s (waggleReply { t with power := { t.power with
              allocNext := t.power.allocNext ++ [{ watts := watts.toNat % 65536, first := first.toNat, last := end_ }] } } w stOk []))) ∧
          (end_ ≤ now t → exec (.powerAlloc w watts first span) s = .next (quiet s (waggleReply t w stBeatPassed []))))))

/-- R283 to R286, R290, R265: what an arriving packet does: a write, a read and a piece that pass the checks of their region are
admitted, and one that does not is answered with the status of the first check that fails; answers settle the operation they belong to.
-/
def Obligations.RemotePackets : Prop :=
  ∀ (s : State) (arr : Option PortId) (p : Packet),
    let t := takenIn s arr p
    (∀ r, Arrives s arr p 1 → admitStatus t p = (stOk, true) → regionOf t (pktRegion p) = some r →
      exec (.write arr p) s = .next (quiet s (settle (addAdmitted (chargeRx t p) (pktRegion p) 0 (r.base + pktOffset p)
        { p with payload := (openPacket t p).getD [] })))) ∧
    (∀ st known, admitStatus t p = (st, known) → st ≠ stOk →
      (Arrives s arr p 1 → exec (.write arr p) s = .next (quiet s (settle (refuseRequest t p st known)))) ∧
      (Arrives s arr p 2 → exec (.read arr p) s = .next (quiet s (settle (refuseRequest t p st known)))) ∧
      (Arrives s arr p 4 → exec (.sendPiece arr p) s = .next (quiet s (settle (refuseRequest t p st known)))) ∧
      (Arrives s arr p 6 → exec (.flush arr p) s = .next (quiet s (settle (refuseRequest t p st known))))) ∧
    (∀ r, Arrives s arr p 2 → admitStatus t p = (stOk, true) → regionOf t (pktRegion p) = some r →
      exec (.read arr p) s = .next (quiet s (settle (addAdmitted t (pktRegion p) 0 (r.base + pktOffset p) p)))) ∧
    (∀ r, Arrives s arr p 4 → admitStatus t p = (stOk, true) → regionOf t (pktRegion p) = some r →
      let i := r.slot0 + pktSlot p
      let x := fillSlot (slotOf t i) p
      exec (.sendPiece arr p) s = .next (quiet s (settle (addAdmitted (slotPut (chargeRx t p) i x) (pktRegion p) (pktSlot p)
        (x.buf + pktOffset p) { p with payload := (openPacket t p).getD [] })))) ∧
    (∀ r, Arrives s arr p 6 → admitStatus t p = (stOk, true) → regionOf t (pktRegion p) = some r →
      let i := r.slot0 + pktSlot p
      let pl := (openPacket t p).getD []
      exec (.flush arr p) s = .next (quiet s (settle (trySlot (slotPut (chargeRx t p) i { fillSlot (slotOf t i) p with
        tailv := true, tlen := leNat (pl.take 4), tcrc := BitVec.ofNat 32 (leNat ((pl.drop 4).take 4)) }) (pktRegion p) (pktSlot p))))) ∧
    (∀ l d, Arrives s arr p 3 →
      t.remote.lines.find? (fun l => l.tag % 2 ^ 32 == p.tag.toNat && l.sent && l.dest.toNat / 2 ^ 50 == p.src.toNat && l.isRead) = some l →
      checkWord l.key p = p.echk → openPacket t p = some d → d ≠ [] → settles false (BitVec.ofNat 16 p.aux.toNat) = true →
      let st : Half := BitVec.ofNat 16 p.aux.toNat
      exec (.readResp arr p) s = .next (quiet s (settle (settleLine (noteAnswer (charge t l.fn 9 13 d.length) st) l st d)))) ∧
    (∀ l, Arrives s arr p 5 →
      t.remote.lines.find? (fun l => l.tag % 2 ^ 32 == p.tag.toNat && l.sent && l.dest.toNat / 2 ^ 50 == p.src.toNat && !l.isRead) = some l →
      checkWord l.key p = p.echk → openPacket t p = some [] → settles false (BitVec.ofNat 16 p.aux.toNat) = true →
      let st : Half := BitVec.ofNat 16 p.aux.toNat
      exec (.completion arr p) s = .next (quiet s (settle (settleLine (noteAnswer t st) l st [])))) ∧
    (∀ x, Arrives s arr p 7 → (∀ y ∈ t.remote.sends, y.forager = false) →
      t.remote.sends.find? (fun y => y.tag % 2 ^ 32 == p.tag.toNat && y.inFlight && y.node == p.src.toNat && !y.forager) = some x →
      checkWord x.key p = p.echk → (openPacket t p).isSome = true → settles true (BitVec.ofNat 16 p.aux.toNat) = true →
      let st : Half := BitVec.ofNat 16 p.aux.toNat
      exec (.flushResp arr p) s = .next (quiet s (settle (settleSend (noteAnswer t st) x st)))) ∧
    (∀ l, Arrives s arr p 0x13 →
      let u := setEvent (satAdd t rEgReturnCount 15 0 1) rEgEvent 4
      let st : Half := BitVec.ofNat 16 p.aux.toNat
      leNat (p.payload.take 1) = 1 → st ≠ stBadField → (∀ y ∈ s.remote.sends, y.forager = false) →
      u.remote.lines.find? (fun l => l.tag % 2 ^ 32 == leNat ((p.payload.drop 16).take 4) && l.sent && !l.isRead) = some l →
      exec (.return_ arr p) s = .next (quiet s (settle (lineMod u l.tag fun l => { l with last := some st }))))

/-- R285, R286, R288, R290: an admitted write or piece is placed and answered, a read is answered with the bytes of its place, an
attempt whose beat has come ends, and the next send and the next line go out. -/
def Obligations.RemoteCompletions : Prop :=
  ∀ (s : State), Powered s →
    (∀ n a t r, takeAdmitted s n 1 = some (a, t) →
      let w1 := rangeWrite t a.place (a.pkt.payload.take 64) (pktPoison a.pkt)
      let w2 := rangeWrite w1.1 (a.place + 64) (a.pkt.payload.drop 64) (pktPoison a.pkt)
      regionOf w2.1 a.region = some r →
      exec (.writePlacementComplete n) s = .next (quiet s (settle (admittedDone (sendAnswer (chargeAccess w2.1 r.client a.place 128 true)
        5 a.pkt.src.toNat a.pkt.tag.toNat a.region a.pkt.prot (if w1.2 && w2.2 then stOk else stNoResource) true false []) a.region)))) ∧
    (∀ n a t (found : Findings) r, takeAdmitted s n 2 = some (a, t) →
      let u := touchRange (memoryFindings t a.place 128 found) a.place 128
      regionOf u a.region = some r →
      let v := chargeAccess u r.client a.place 128 false
      exec (.remoteReadComplete n found) s = .next (quiet s (settle (admittedDone (sendAnswer v 3 a.pkt.src.toNat a.pkt.tag.toNat a.region
        a.pkt.prot (if rangePoisoned u a.place 128 then stPoisoned else stOk) true (rangePoisoned u a.place 128)
        (rangeRead v a.place 128)) a.region)))) ∧
    (∀ n a t, takeAdmitted s n 4 = some (a, t) →
      let w := (rangeWrite t a.place a.pkt.payload (pktPoison a.pkt)).1
      ∀ r, regionOf w a.region = some r →
      let v := chargeAccess w r.client a.place a.pkt.payload.length true
      let i := r.slot0 + a.slot
      let x := slotOf v i
      x.state = .filling → x.gen = a.pkt.aux.toNat → x.tag = a.pkt.tag →
      exec (.piecePlacementComplete n) s = .next (quiet s (settle (admittedDone (trySlot (slotPut v i { x with
        placed := x.placed ++ [(pktOffset a.pkt, a.pkt.payload.length)], poison := x.poison || pktPoison a.pkt }) a.region a.slot)
        a.region)))) ∧
    (∀ (tag : Word) l, s.remote.lines.find? (fun l => l.tag == tag.toNat) = some l → l.sent = true → attemptOver s l.until_ l.last = true →
      (l.attempts ≤ cfld s rRaCfg 11 8 → exec (.attemptTimeout tag) s = .next (quiet s (settle (attemptLine s l)))) ∧
      (cfld s rRaCfg 11 8 < l.attempts →
        exec (.attemptTimeout tag) s = .next (quiet s (settle (settleLine s l (l.last.getD stTargetLost) []))))) ∧
    (∀ x, s.remote.sends.find? (fun t => !t.inFlight && !t.forager) = some x → sendsInFlight s < 1024 →
      let r := takeFindings s (x.len / 64 + 2)
      exec .sendTransferStart s = .next (quiet s (settle (attemptSend (memoryFindings r.2 x.src x.len r.1) x)))) ∧
    (nextLineDma s = none → exec .lineOpIssue s = .next (quiet s (settle s))) ∧
    (∀ c d, nextLineDma s = some (c, d) → s.remote.lines.length < 8192 → d.srcSpace = 3 →
      let i := d.len / 128 - d.linesToIssue
      let client := ctxClient s d.ctx
      let u := dmaMod s c d.id fun d => { d with linesToIssue := d.linesToIssue - 1, linesOpen := d.linesOpen + 1 }
      let at_ := (d.dstAt.1, d.dstAt.2 + 128 * i)
      let b0 := (placeLine u d.dstSpace at_).1
      let b1 := (placeLine u d.dstSpace (at_.1, at_.2 + 64)).1
      let l : LineOp := {
        tag := u.remote.nextTag, isRead := true, fn := client, ctx := d.ctx, cell := c, mem := at_.1, dma := d.id, line := i
        dest := BitVec.ofNat 64 (d.src + 128 * i), key := d.key, space := d.dstSpace, addr := at_.2, data := bytesVReg b0
        data2 := bytesVReg b1, poison := false, prot := ((tget u.sched.ctxs d.ctx).map fun x => x.prot).getD false }
      let v := { u with remote := { u.remote with nextTag := u.remote.nextTag + 1, lines := u.remote.lines ++ [l] } }
      nodeDown v ((d.src + 128 * i) / 2 ^ 50) = false → l.prot = false → lineHeld v l = false →
      exec .lineOpIssue s = .next (quiet s (settle (attemptLine v l))))

/-- R375 to R382: a request frame that passes the checks of R378 has its effect and is answered on the path it came by, with the SEQ of
the request; one that a row refuses is counted and answered, and has no effect, one of an unknown KIND with ST_BAD_OPCODE. Telemetry and
events go to the collector. -/
def Obligations.ManagementFrames : Prop :=
  ∀ (s : State) (f : MgmtFrame), Powered s →
    (∀ k ∈ [(Instr.mgmtRead f, 1), (.mgmtWrite f, 2), (.telemetry f, 3), (.readAcct f, 4), (.pullEvents f, 5)],
      let kind := frameKind k.2 f
      (frameAccepted s f = false → exec k.1 s = .next (quiet s s)) ∧
      (frameAccepted s f = true → tagFails s kind f = true →
        exec k.1 s = .next (quiet s (setEvent (satAdd s rMgCount 15 0 1) rMgEvent 2))) ∧
      (∀ st, frameAccepted s f = true → tagFails s kind f = false → headStatus s kind f = some st →
        exec k.1 s = .next (quiet s (respond (setEvent (satAdd s rMgCount 15 0 1) rMgEvent 3) kind f st [])))) ∧
    (let t0 := if f.sgmii then { s with mgmt := { s.mgmt with rxSeq := f.seq.toNat } } else s
     let t := satAdd t0 rMgCount 31 16 1
     let path : Path := if f.sgmii then .sgmii else .i3c
     frameAccepted s f = true → f.otherKind = none →
      (tagFails s 1 f = false → headStatus s 1 f = none → tailStatus t0 1 f = stOk →
        let r := readWords path (bodyNat f 4 2) (bodyNat f 0 4) t
        exec (.mgmtRead f) s = .next (quiet s (respond r.1 1 f stOk r.2))) ∧
      (tagFails s 2 f = false → headStatus s 2 f = none → tailStatus t0 2 f = stOk →
        exec (.mgmtWrite f) s = .next (quiet s (respond ((List.range (bodyNat f 4 2)).foldl
          (fun s i => writeReg s path (bodyNat f 0 4 + 4 * i) (bodyNat f (8 + 4 * i) 4)) t) 2 f stOk []))) ∧
      (tagFails s 3 f = false → headStatus s 3 f = none →
        exec (.telemetry f) s = .next (quiet s (respond t 3 f stOk (telemetryRecord t)))) ∧
      (tagFails s 4 f = false → headStatus s 4 f = none →
        exec (.readAcct f) s = .next (quiet s (respond t 4 f stOk (accountBytes t (bodyNat f 0 1))))) ∧
      (tagFails s 5 f = false → headStatus s 5 f = none → tailStatus t0 5 f = stOk →
        let r := pullRecords (bodyNat f 0 1) t
        exec (.pullEvents f) s = .next (quiet s (respond r.1 5 f stOk r.2)))) ∧
    (sgmiiUp s = true → collector s ≠ 0 →
      (cfld s rMgCfg 15 8 ≠ 0 →
        exec .telemetryTimer s = .next (quiet s (sendFrame s (BitVec.ofNat 48 (collector s)) 0x43 stOk 0 (telemetryRecord s)))) ∧
      (cfld s rMgCfg 0 0 = 0 → s.mgmt.sent < s.reliab.seq →
        let n := max (s.mgmt.sent + 1) (s.reliab.seq - 255)
        exec .eventFrameSend s = .next (quiet s (sendFrame { s with mgmt := { s.mgmt with sent := n } }
          (BitVec.ofNat 48 (collector s)) 0x50 stOk 0 (tgetD s.reliab.log (n % 256) []))))) ∧
    (∀ l, ∃ t, exec (.sgmiiLinkChange l) s = .next t ∧ t.mgmt.link = l) ∧
    (sgmiiUp s = true → exec .mgmtFrameDrop s = .next (quiet s (setEvent (satAdd s rMgCount 15 0 1) rMgEvent 4)))

/-- R383, R384: the I3C target: an address is taken with the provisional ID, BCR and DCR, and given up; interrupts go on and off; direct
CCCs and MCTP control requests are answered once it has an address, and none while boundary scan owns the pins. Two CCCs and a version answer values that no rule states: free
values. R386 to R388: an instruction of the TAP stands until the next; a scan is remembered. REGACC reads any register and writes those
that a management path may write, and captures what it did; IJTAG without INSTRUMENT is BYPASS. -/
def Obligations.I3cAndTestAccess : Prop :=
  (
    ∀ (s : State), Powered s → s.mgmt.i3cOn = true → scanOwnsPins s = false →
      (∀ a : BitVec 7, s.mgmt.daddr = none →
        ∃ t, exec (.entdaa a) s = .next t ∧ t.mgmt.daddr = some a ∧ rfld t rMgEvent 0 0 = 1 ∧
          Tx.i3c ((leBytes 6 (Config.mipiId.toNat * 2 ^ 33 + 2 ^ 32 + s.mgmt.pid.toNat)).reverse ++ [0x06, 0x00]) ∈ t.tx) ∧
      (exec .rstdaa s = .next (quiet s { s with mgmt := { s.mgmt with daddr := none } })) ∧
      (exec (.disec true) s = .next (quiet s { s with mgmt := { s.mgmt with ibiOn := false } })) ∧
      (∃ t, exec (.enec true) s = .next t ∧ t.mgmt.ibiOn = true) ∧
      (s.mgmt.daddr.isSome = true → s.mgmt.ibiOn = true → cfld s rMgCfg 0 0 = 1 → s.mgmt.sent < s.reliab.seq →
        ∃ t, exec .ibiRetry s = .next t ∧ t.tx = .ibi :: s.tx ∧ t.mgmt.ibiHold = true) ∧
      (s.mgmt.daddr.isSome = true →
        (exec .getpid s = .next (quiet s (emit s (.i3c
          (leBytes 6 (Config.mipiId.toNat * 2 ^ 33 + 2 ^ 32 + s.mgmt.pid.toNat)).reverse)))) ∧
        (exec .getbcr s = .next (quiet s (emit s (.i3c [0x06])))) ∧
        (exec .getdcr s = .next (quiet s (emit s (.i3c [0x00])))) ∧
        (∃ t bs, exec .getstatus s = .next t ∧ t.tx = .i3c bs :: s.tx ∧ t.mgmt = s.mgmt) ∧
        (∃ t bs, exec .getmxds s = .next t ∧ t.tx = .i3c bs :: s.tx ∧ t.mgmt = s.mgmt) ∧
        (∀ eid : Byte, eid ≠ 0 → eid ≠ 0xFF → ∃ t bs, exec (.setEndpointId eid) s = .next t ∧
          t.tx = .mctpControl 1 (0 :: bs) :: s.tx ∧ t.mgmt = { s.mgmt with eid := eid }) ∧
        (∃ t bs, exec .getEndpointId s = .next t ∧ t.tx = .mctpControl 2 (0 :: s.mgmt.eid :: bs) :: s.tx ∧ t.mgmt = s.mgmt) ∧
        (∃ t bs, exec .getMctpVersionSupport s = .next t ∧ t.tx = .mctpControl 4 (0 :: bs) :: s.tx ∧ t.mgmt = s.mgmt) ∧
        (exec .getMessageTypeSupport s = .next (quiet s (emit s (.mctpControl 5 [0, 1, 0x7F])))) ∧
        (∃ t bs, exec .getVendorDefinedSupport s = .next t ∧ t.tx = .mctpControl 6 (0 :: bs) :: s.tx ∧ t.mgmt = s.mgmt))) ∧ (
    ∀ (s : State), s.mgmt.i3cOn = false ∨ scanOwnsPins s = true →
      ∀ (a : BitVec 7) (int : Bool) (eid : Byte), ∀ k ∈ [Instr.entdaa a, .rstdaa, .enec int, .disec int, .getpid, .getbcr, .getdcr, .getstatus,
          .getmxds, .setEndpointId eid, .getEndpointId, .getMctpVersionSupport, .getMessageTypeSupport, .getVendorDefinedSupport],
        exec k s = .next (quiet s s)) ∧ (
    ∀ (s : State), Powered s →
      (∀ k ∈ [(Instr.bypass, TapInsn.bypass), (.samplePreload, .samplePreload), (.regacc, .regacc)],
        exec k.1 s = .next (quiet s { s with mgmt := { s.mgmt with tap := k.2 } })) ∧
      (∀ k ∈ [(Instr.extest, TapInsn.extest), (.clamp, .clamp), (.highz, .highz)],
        exec k.1 s = .next (quiet s { s with mgmt := { s.mgmt with tap := k.2, scanned := true } })) ∧
      (exec .idcode s = .next (quiet s { s with
        mgmt := { s.mgmt with tap := .idcode }
        tx := .tap (BitVec.ofNat 64 (0x2720 * 2 ^ 12 + Config.idcodeManuf.toNat * 2 + 1)) :: s.tx })) ∧
      (∀ dr : DWord, s.mgmt.tap = .regacc →
        let off := bits dr.toNat 25 2 * 4
        (bits dr.toNat 31 30 = 1 → ∃ t, exec (.regaccRead dr) s = .next t ∧
          t.mgmt.regData = BitVec.ofNat 32 (readReg s .tap off).1 ∧ t.mgmt.regResult = 0 ∧ t.regs = s.regs ∧
          t.tx = .tap (BitVec.ofNat 64 ((readReg s .tap off).1 * 2 ^ 32 + off)) :: s.tx) ∧
        (bits dr.toNat 31 30 = 2 → mgmtMayWrite off = true →
          ∃ t, exec (.regaccWrite dr) s = .next t ∧ t.regs = (writeReg s .tap off (bits dr.toNat 63 32)).regs ∧ t.mgmt.regResult = 0) ∧
        (bits dr.toNat 31 30 = 2 → mgmtMayWrite off = false →
          ∃ t, exec (.regaccWrite dr) s = .next t ∧ t.regs = s.regs ∧ t.mgmt.regResult = 1)) ∧
      (bit s.sec.debug 1 = 1 → exec .ijtag s = .next (quiet s { s with mgmt := { s.mgmt with tap := .ijtag } })) ∧
      (bit s.sec.debug 1 = 0 → exec .ijtag s = .next (quiet s { s with mgmt := { s.mgmt with tap := .bypass } })) ∧
      (∀ (g : Fin 8) (changes : Bool), s.mgmt.tap = .ijtag → bit s.sec.debug 1 = 1 →
        ∃ t, exec (.instrumentOperation g changes) s = .next t ∧ t.mgmt.segments.getLsbD g.val = true ∧
          t.tx = .instrument g.val (!(changes && jobStarted s)) :: s.tx ∧ t.tiers = s.tiers))

/-- The queue: with a command at the front, a step is exec of that command on the state with the rest of the queue; with none, the block
idles (the model's choice, log entry 5). -/
def Obligations.StepTakesTheFront : Prop :=
  ∀ (s : State), (∀ (c : Instr) (rest : List Instr), s.pending = c :: rest → step s = exec c { s with pending := rest }) ∧
    (s.pending = [] → step s = .next s)

/-- What reset leaves (R25, R225, R346, R400): the model's state before power: the beat unit UNLOCKED with no beat number, the registers
and their committed sets at the reset values of the register tables, no byte listed in memory, health HEALTHY, and every invariant
holds. The power that is off is the model's starting point (log entry 6). -/
def Obligations.ResetState : Prop :=
  (∀ off, rget State.reset off = regReset off ∧ cget State.reset off = regReset off) ∧
  State.reset.beat.state = .unlocked ∧ State.reset.beat.count = 0 ∧ State.reset.pending = [] ∧ State.reset.tiers.mem = [] ∧
  Memory.wf State.reset.tiers.mem = true ∧ State.reset.reliab.health = .healthy ∧ State.reset.reliab.score = 0 ∧
  State.reset.boot.phase = 0 ∧ hasBeat State.reset = false ∧ State.reset.beat.Ok

/-- R23 to R25: every step keeps the beat unit in a state those rules allow: at most 256 boundaries held, at most 16 edges in the run, a
beat number in LOCKED and HOLDOVER only, and none above 0xFFFF_FFFF_FFFF. -/
def Obligations.BeatUnitKept : Prop :=
  ∀ s t : State, s.beat.Ok → step s = .next t → t.beat.Ok

/-- The queue is not exec's: no command's effect changes what waits behind it. -/
def Obligations.QueueKept : Prop :=
  ∀ (c : Instr) (s t : State), exec c s = .next t → t.pending = s.pending

/-- R25: an event that the table of the rule does not list causes no transition: a command that is no event of the beat unit leaves all
of it as it stands. -/
def Obligations.NoUnlistedTransition : Prop :=
  ∀ (c : Instr) (s t : State), movesBeat c = false → exec c s = .next t → t.beat = s.beat

/-- R394, R414: before the power-up sequence has begun, a command that is no reset and no event of the beat unit changes nothing. -/
def Obligations.NothingRunsUnpowered : Prop :=
  ∀ (c : Instr) (s : State), movesBeat c = false → c ≠ .perstBeforeReady → s.boot.phase = 0 →
    exec c s = .next s ∨ exec c s = .fault .wordOfAnotherRow

/-- Every command has an effect in every state: none is refused, and only a cell instruction whose word is of another row stops (log
entry 7). By name: each cell instruction completes on every word of its own row and on every illegal word, which faults its worker (R51,
R63), and each other command, in the order of the chapters that give it, on every operand. -/
def Obligations.EveryCommandActs : Prop :=
  ∀ s : State,
    (∀ c : Instr, (∃ t, exec c s = .next t) ∨
      (∃ k, cellWord c = some k ∧ (∃ r, rowOf k = some r) ∧ exec c s = .fault .wordOfAnotherRow)) ∧
    (∀ (c : CellId) (w : WorkerId) (i : Insn) (ecc : Ecc),
      ∀ x ∈ [(Row.scalarAlu, Instr.scalarAlu c w i), (.scalarLoad, .scalarLoad c w i ecc), (.scalarStore, .scalarStore c w i),
          (.amoadd, .amoadd c w i ecc), (.amocas, .amocas c w i ecc), (.branch, .branch c w i), (.jal, .jal c w i),
          (.jalr, .jalr c w i), (.vectorAlu, .vectorAlu c w i), (.vld, .vld c w i ecc), (.vst, .vst c w i), (.vbcast, .vbcast c w i),
          (.vectorReduce, .vectorReduce c w i), (.vperm, .vperm c w i), (.vext, .vext c w i), (.send, .send c w i),
          (.recv, .recv c w i), (.probe, .probe c w i), (.dma, .dma c w i ecc), (.bar, .bar c w i), (.waitc, .waitc c w i),
          (.nop, .nop c w i), (.sysRd, .sysRd c w i), (.halt, .halt c w i), (.semacq, .semacq c w i), (.semrel, .semrel c w i),
          (.semtry, .semtry c w i), (.semrd, .semrd c w i), (.critEnter, .critEnter c w i), (.critExit, .critExit c w i),
          (.semcancel, .semcancel c w i), (.semheld, .semheld c w i), (.mma, .mma c w ⟨i, ecc⟩), (.mlda, .mlda c w i),
          (.mst, .mst c w i), (.mstat, .mstat c w i)],
        rowOf i = some x.1 ∨ rowOf i = none → ∃ t, exec x.2 s = .next t) ∧
    (∀ (path : Path) (off : BitVec 26) (v : RegWrite),
      ∀ x ∈ [Instr.registerWrite path off v],
        ∃ t, exec x s = .next t) ∧
    (∀ (offset : Int) (kat : KatEnd) (port : PortId) (value : BeatField) (hchkOk : Bool) (path : Path) (value2 : Word)
        (r : RegRead),
      ∀ x ∈ [Instr.beatEdge offset, .acquireEdgeTimeout, .beatBoundary kat, .holdoverExpiry kat, .beatCountOverflow kat,
        .marker port value hchkOk, .btCtlEnable path value2, .btCommit path value2, .loHalfReadLatch path r],
        ∃ t, exec x s = .next t) ∧
    (∀ (src c : CellId) (port : Fin 32) (n : Nat) (found : Findings) (barrier : BitVec 8) (found2 : List (CellId × Ecc))
        (path : Path) (value : Word),
      ∀ x ∈ [Instr.messageArrival src port, .creditReturn c port, .dmaDescriptorStart c n, .dmaCompletion c n found,
        .barrierRelease barrier, .patrolScrub found2, .clCommit path value],
        ∃ t, exec x s = .next t) ∧
    (∀ (c : CellId) (mism : List Mismatch) (found : EngineFound) (ecc : List EngineEcc) (count : Nat) (path : Path) (value : Word),
      ∀ x ∈ [Instr.mmaComplete c mism found, .mldaComplete c found, .mstComplete c ecc, .engineStaggerStart c count,
        .mxCommit path value],
        ∃ t, exec x s = .next t) ∧
    (∀ (h : CmdHdr) (a : ImageArg) (slot : Byte) (first last version : Half) (n : Nat),
      ∀ x ∈ [Instr.opLoadCodebook h a slot first last, .codebookCopyComplete n, .opRetireCodebook h version first last],
        ∃ t, exec x s = .next t) ∧
    (∀ (handle : DWord) (layer n : Nat) (fill : StageFill) (inputs : List (List Word)) (h : CmdHdr) (page value : Word)
        (path : Path),
      ∀ x ∈ [Instr.stageSlotFill handle layer fill, .collectiveComplete n inputs, .opPagePin h page, .opPageUnpin h page,
        .kvCommit path value],
        ∃ t, exec x s = .next t) ∧
    (∀ (h : CmdHdr) (handle buf parent hash : DWord) (target home expOwner status : Half) (a : HandoffInArg)
        (count plen maxlen expEpoch block first value : Word) (tokens : BitVec 48) (m : FHdr) (client part : Byte)
        (tokens2 ids : List Word) (hashes : List DWord) (pages : List PageData) (lookup : Option (Byte × List DWord))
        (d : ReplData) (r : ReqSummary) (r2 : ReplyTo) (node : NodeId) (path : Path),
      ∀ x ∈ [Instr.opCancelRequest h handle, .opHandoffOut h handle target, .handoffProposeSend handle, .opHandoffIn h a,
        .opQueryRequest h handle buf, .opPrefixLookup h home count tokens, .create m client plen maxlen parent tokens2 hashes,
        .renew m, .propose m target, .claim m expOwner expEpoch, .commit m block hash pages, .tokens m first count ids,
        .fetch m first count, .pages m part first ids pages, .end_ m status, .query m lookup, .replicate m d, .grant m r, .released m,
        .expired m, .adopt m r, .join m, .pendingCleared m, .direct m first pages, .reply m r2, .leaseFence handle,
        .leaseReassign handle, .resilverComplete node, .fgCommit path value],
        ∃ t, exec x s = .next t) ∧
    (∀ (c : CellId) (n : Nat) (ecc : Ecc) (m : LensMeets) (h : CmdHdr) (a : ImageArg) (slot : Byte) (slot2 : Fin 8)
        (id : Half) (bank : Fin 64) (upsets : List (Fin 64 × Fin 32768)) (path : Path) (value : Word),
      ∀ x ∈ [Instr.lensRequest c n ecc, .draft m, .verify m, .first m, .opLoadGrammar h a slot, .grammarCopyComplete slot2,
        .opRetireGrammar h id, .bankSearchable bank, .shadowSweep upsets, .lnCommit path value],
        ∃ t, exec x s = .next t) ∧
    (∀ (h : CmdHdr) (a : ImageArg) (a2 : ContextArg) (context number count : Half) (client : Byte) (buf : DWord) (ctx : Nat)
        (e : RestoreEnd) (path : Path) (value : Word),
      ∀ x ∈ [Instr.opLoadModelImage h a, .opLoadScheduleImage h a, .opContextCreate h a2, .opContextDestroy h context,
        .opSemInit h number count, .opReadAccounting h client buf, .swapDrainComplete ctx, .swapSaveComplete ctx,
        .swapRestoreComplete e, .splitEvaluation, .sqCommit path value],
        ∃ t, exec x s = .next t) ∧
    (∀ (tile lun block : Nat) (found : Findings) (h : CmdHdr) (a : MigrateArg) (a2 : PrefetchArg) (fn : FnId) (off : BitVec 38)
        (bytes : List Byte) (r : Bar2Span) (found2 : List (Nat × Ecc)) (stack : Fin 20) (ch : Fin 12) (lostTraining : Bool)
        (cause : RelocCause) (path : Path) (value : Word),
      ∀ x ∈ [Instr.tileMoveStart, .tileMoveSwitch tile found, .opMigrateTiles h a, .opPrefetch h a2, .bar2Write fn off bytes,
        .bar2Read fn off r, .memoryPatrolScrub found2, .hbmStackFail stack, .ddrChannelFail ch lostTraining found2,
        .nandGarbageCollect lun, .nandRelocate lun block cause, .nandProgramFail lun block, .mtCommit path value, .nandLunFail lun],
        ∃ t, exec x s = .next t) ∧
    (∀ (port : PortId) (w : CodewordIn) (lane : Fin 4) (loss : LaneLoss) (port2 arr : Option PortId) (p : Packet)
        (vc : BitVec 2) (counts entries : List Half) (path : Path) (value epoch : Word) (t : TrainEnd) (cause : DownCause)
        (w2 : WaggleHdr) (node first count : Half) (table : Byte) (rest : RouteRest) (beat : BeatField) (w3 : WagglePass),
      ∀ x ∈ [Instr.codewordReceive port w, .linkReplay port, .laneDrop port lane loss, .packetForward port2 p, .packetExpire port vc,
        .credit port counts, .creditReturnTimer port, .egPortEnable path port value, .egPortRetrain path port value, .portUp port t,
        .portDown port cause, .portSilenceTimeout port, .portHoldExpiry port, .vcStall port vc, .spanGuardOpen port, .probeWaggle w2,
        .assign w2 node epoch, .routeWrite w2 table first count entries rest, .routeCommit w2 beat, .egCommit path value,
        .return_ arr p, .directedWaggleForward w3],
        ∃ t, exec x s = .next t) ∧
    (∀ (w : WaggleHdr) (node : Half) (roleEpoch tag value : Word) (h : CmdHdr) (a : RegionArg) (key : DWord) (a2 : PostArg)
        (a3 : SendArg) (arr : Option PortId) (p : Packet) (n : Nat) (path : Path) (found : Findings),
      ∀ x ∈ [Instr.nodeDown w node, .nodeUp w node roleEpoch, .opRegisterRegion h a, .opRevokeRegion h key, .opPostRecv h a2,
        .opSend h a3, .sendTransferStart, .opFlush h node, .lineOpIssue, .write arr p, .writePlacementComplete n, .read arr p,
        .readResp arr p, .completion arr p, .sendPiece arr p, .flush arr p, .flushResp arr p, .attemptTimeout tag,
        .raCommit path value, .remoteReadComplete n found, .piecePlacementComplete n],
        ∃ t, exec x s = .next t) ∧
    (∀ (h : CmdHdr) (a : SubmitArg) (fn : FnId) (ring : Fin 16) (value : Word) (e : FetchEnd) (path : Path) (page : DWord)
        (a2 : DmaCopyArg) (host : HostLines) (up flit : Bool) (width rate : BitVec 4),
      ∀ x ∈ [Instr.opSubmitRequest h a, .hiDbSq fn ring value, .hiDbCq fn value, .commandFetch e, .irqCoalesceTimer fn,
        .functionLevelReset fn, .numvfsClear, .hiFnCommit path fn value, .opNop h, .opIdentify h page, .opDmaCopy h a2 host,
        .hostCompletionTimeout fn, .pcieLinkChange up width rate flit],
        ∃ t, exec x s = .next t) ∧
    (∀ (c : CellId) (fits aboveCap unmet : Bool) (w : WaggleHdr) (watts limit value : Word) (first : BeatField)
        (span : BitVec 48) (h : CmdHdr) (mode : Byte) (window : Half) (path : Path) (pd : Fin 50) (readings : List RailReading)
        (k hours : Nat) (temps : List Int) (slacks : List Nat),
      ∀ x ∈ [Instr.governorHoldRelease c fits, .holdRotation aboveCap unmet, .powerAlloc w watts first span,
        .opSetPowerLimit h mode window limit, .pwCommit path value, .domainClosure, .domainReady pd, .railRead readings k, .allocLapse,
        .sensorRead temps, .thermalCapStep, .wearLogAppend hours, .wearOut, .marginTrim slacks],
        ∃ t, exec x s = .next t) ∧
    (∀ (h : CmdHdr) (failing transient : List CellId) (cool : Bool) (path : Path) (source : Byte) (value : Word),
      ∀ x ∈ [Instr.opSelfTestKat h, .opSelfTestStress h, .stressTestEnd failing cool, .healthDecay, .softRequestResend,
        .grantExpel path, .noSpare path, .coalesceWindowClose source, .rlCommit path value, .selfTestKatEnd failing transient],
        ∃ t, exec x s = .next t) ∧
    (∀ (h : CmdHdr) (buf : DWord) (nonce : BitVec 256) (path : Path) (value : Word) (n : Nat) (c : ImageFound),
      ∀ x ∈ [Instr.opAttest h buf nonce, .submit path value, .grantVerifyComplete, .endDebug path, .rngFail, .imageVerifyComplete n c],
        ∃ t, exec x s = .next t) ∧
    (∀ (f : MgmtFrame) (l : SgmiiLink) (addr : BitVec 7) (int changes : Bool) (eid : Byte) (path : Path) (k : Fin 16)
        (value : Word) (dr : DWord) (segment : Fin 8) (w : BootWorld),
      ∀ x ∈ [Instr.mgmtRead f, .mgmtWrite f, .telemetry f, .telemetryTimer, .readAcct f, .pullEvents f, .eventFrameSend,
        .sgmiiLinkChange l, .mgmtFrameDrop, .entdaa addr, .rstdaa, .enec int, .disec int, .getpid, .getbcr, .getdcr, .getstatus,
        .getmxds, .ibiRetry, .setEndpointId eid, .getEndpointId, .getMctpVersionSupport, .getMessageTypeSupport,
        .getVendorDefinedSupport, .mgTmxSelect path k value, .mgCommit path value, .bypass, .idcode, .samplePreload, .extest, .clamp,
        .highz, .regacc, .regaccRead dr, .regaccWrite dr, .ijtag, .instrumentOperation segment changes, .testLogicReset w],
        ∃ t, exec x s = .next t) ∧
    (∀ (h : CmdHdr) (job : Half) (w : WaggleHdr) (role : Byte) (resetN : Bool) (w2 : BootWorld) (cause : WarmCause),
      ∀ x ∈ [Instr.opStartJob h, .opStopJob h job, .teardown w job, .opSetRole h role, .powerOnReset resetN w2, .go w2,
        .warmReset cause w2, .perstBeforeReady],
        ∃ t, exec x s = .next t) ∧
    (∀ (w : BootWorld),
      ∀ x ∈ [Instr.pwrOkFall, .resetNRise w],
        ∃ t, exec x s = .next t) ∧
    (∀ (fn : FnId) (isWrite : Bool) (off : BitVec 26),
      ∀ x ∈ [Instr.bar0UnmappedAccess fn isWrite off],
        ∃ t, exec x s = .next t)

/-- R41, R51, R54: the frame of the instructions that write one g or v register or none: nothing changes but the issuing worker's
destination and PC, the accounts, and the count of free values taken. Register g0 reads as zero and discards what is written. -/
def Obligations.RegisterFrame : Prop :=
  ∀ (s t : State) (c : CellId) (w : WorkerId) (win : Win) (i : Insn) (r : Row) (row : Instr), Issues s c w win i r →
    i.fetch = .clean → exec row s = .next t →
    let a := workerGet s c.val w.val
    let b := workerGet t c.val w.val
    ((r, row) ∈ [(Row.scalarAlu, Instr.scalarAlu c w i), (.jal, .jal c w i), (.jalr, .jalr c w i), (.vext, .vext c w i),
        (.probe, .probe c w i), (.sysRd, .sysRd c w i)] →
      OnlyWorker s t c.val w.val ∧ b.v = a.v ∧ b.state = a.state ∧ b.wait = a.wait ∧
      (∀ k, k ≠ iD i → gGet b k = gGet a k) ∧ (iD i = 0 → b.g = a.g)) ∧
    ((r, row) ∈ [(Row.vectorAlu, Instr.vectorAlu c w i), (.vbcast, .vbcast c w i), (.vectorReduce, .vectorReduce c w i),
        (.vperm, .vperm c w i)] →
      OnlyWorker s t c.val w.val ∧ b.g = a.g ∧ b.state = a.state ∧ b.wait = a.wait ∧ (∀ k, k ≠ iD i → vGet b k = vGet a k)) ∧
    ((r, row) ∈ [(Row.branch, Instr.branch c w i), (.nop, .nop c w i)] →
      OnlyWorker s t c.val w.val ∧ b.g = a.g ∧ b.v = a.v ∧ b.state = a.state ∧ b.wait = a.wait)

/-- R45, R46, R51: the frame of the stores: the bytes at BASE + A + IMM of the issuing cell read as the stored value afterwards, every
other byte of every cell reads as before, the form of the memory is kept, and no register but the PC changes. -/
def Obligations.StoreFrame : Prop :=
  ∀ (s : State) (c : CellId) (w : WorkerId) (win : Win) (i : Insn),
    let u := issued s c w win i
    let x := issueOf s c w win i
    let a := (x.g u (iA i) + x.bOrImm u) % 2 ^ 64
    let at_ := win.base + a
    ∀ y ∈ [(Row.scalarStore, Instr.scalarStore c w i, leBytes (accessBytes (iOp i)) (x.g u (iD i))), (.vst, .vst c w i, vregBytes (x.v u (iD i)))],
      let bs := y.2.2
      Issues s c w win i y.1 → i.fetch = .clean → accessFault win a bs.length true = none → Memory.wf (cellGet s c.val).mem = true →
      ∃ t, exec y.2.1 s = .next t ∧
        cellRead t c.val at_ bs.length = bs ∧
        (∀ k, k < at_ ∨ at_ + bs.length ≤ k → mget (cellGet t c.val).mem k = mget (cellGet s c.val).mem k) ∧
        (∀ d, d ≠ c.val → cellGet t d = cellGet s d) ∧ Memory.wf (cellGet t c.val).mem = true ∧
        (∀ v, v ≠ w.val → workerGet t c.val v = workerGet s c.val v) ∧
        (workerGet t c.val w.val).g = (workerGet s c.val w.val).g ∧ (workerGet t c.val w.val).v = (workerGet s c.val w.val).v ∧
        t.tiers = s.tiers ∧ t.regs = s.regs

/-- R45, R46, R48, R51, R63: where a worker faults: an illegal word, an instruction at or above CODE or on a poisoned line, a misaligned
access inside the window, an access beyond it, a store below CODE. The worker is FAULTED with its PC at the instruction, and the context is to
be aborted. -/
def Obligations.WorkerFaults : Prop :=
  ∀ (s : State) (c : CellId) (w : WorkerId) (win : Win) (i : Insn), Powered s →
    winOf s c.val w.val = some win → canIssue s c.val w.val = true →
    let pc := (workerGet s c.val w.val).pc.toNat
    let f := fetchedAt s c w win i
    let bad := cellPoisoned f c.val (lineOf (win.base + pc))
    let u := issued s c w win i
    let x := issueOf s c w win i
    let a := (x.g u (iA i) + x.bOrImm u) % 2 ^ 64
    (rowOf i = some .nop →
      (win.code ≤ pc →
        exec (.nop c w i) s = .next (quiet s
          (takeFault (charge (noteIssue s c.val w.val i) (ctxClient s win.ctx) 0 0 1) c.val w.val pc causeFetchBounds pc))) ∧
      (pc < win.code → bad = true → exec (.nop c w i) s = .next (quiet s (takeFault f c.val w.val pc causePoisoned pc)))) ∧
    (pc < win.code → bad = false → rowOf i = none →
      exec (.nop c w i) s = .next (quiet s (takeFault f c.val w.val pc causeIllegal 0))) ∧
    (∀ e, Issues s c w win i .scalarLoad → a % accessBytes (iOp i) ≠ 0 → a + accessBytes (iOp i) ≤ win.size →
      exec (.scalarLoad c w i e) s = .next (quiet s (takeFault u c.val w.val pc causeMisaligned a))) ∧
    (Issues s c w win i .scalarStore → a % accessBytes (iOp i) ≠ 0 → win.code ≤ a → a + accessBytes (iOp i) ≤ win.size →
      exec (.scalarStore c w i) s = .next (quiet s (takeFault u c.val w.val pc causeMisaligned a))) ∧
    (∀ e, Issues s c w win i .vld → a % 64 ≠ 0 → a + 64 ≤ win.size →
      exec (.vld c w i e) s = .next (quiet s (takeFault u c.val w.val pc causeMisaligned a))) ∧
    (Issues s c w win i .vst → a % 64 ≠ 0 → win.code ≤ a → a + 64 ≤ win.size →
      exec (.vst c w i) s = .next (quiet s (takeFault u c.val w.val pc causeMisaligned a))) ∧
    (∀ e, Issues s c w win i .scalarLoad → a % accessBytes (iOp i) = 0 → win.size < a + accessBytes (iOp i) →
      exec (.scalarLoad c w i e) s = .next (quiet s (takeFault u c.val w.val pc causeBounds a))) ∧
    (Issues s c w win i .scalarStore → a % accessBytes (iOp i) = 0 → a < win.code →
      exec (.scalarStore c w i) s = .next (quiet s (takeFault u c.val w.val pc causeStoreCode a)))

/-- R27: with no beat number, a command with a non-zero beat field completes with ST_BEAT_LOST and nothing in it is applied; one whose
beat fields are zero is processed in every state; OP_START_JOB is accepted in LOCKED only and completes with ST_BEAT_LOST in every other
state. A request command's refusal is noted as R168 says. -/
def Obligations.CommandsWithoutBeat : Prop :=
  ∀ (s : State) (h : CmdHdr) (op : HostOp), opPf0 op = false ∨ h.fn.val = 0 → h.resv = false → opRoleOk (roleOf s) op = true →
    opEpoch op = false ∨ h.roleEpoch.toNat = roleEpoch s →
    let noted := match foragerOp op with
      | some q => noteRefusal (enterCmd s h op 2) 0 stBeatLost q
      | none => enterCmd s h op 2
    let lost := finishCmd noted (freshCmd s) stBeatLost 0
    (s.beat.state = .unlocked ∨ s.beat.state = .acquiring ∨ s.beat.state = .lost → h.notBefore ≠ 0 ∨ h.deadline ≠ 0 → takeCommand s h op = lost) ∧
    (h.notBefore = 0 → h.deadline = 0 → op ≠ .startJob → parseCheck s h op = .start) ∧
    (s.beat.state = .locked → h.notBefore = 0 → h.deadline = 0 → op = .startJob → parseCheck s h op = .start) ∧
    (s.beat.state ≠ .locked → op = .startJob → takeCommand s h op = lost)
end

