-- ==== Sys2Proof/Laws/State.lean ====
section
/-!
SUPPORT. What each update of the state leaves alone and what it puts in place: one lemma per field per update, so that no proof
unfolds a record update.
-/

namespace Sys2Proof.Machine

/-! ## rset -/

@[simp] theorem rset_beat (s : State) (off v : Nat) : (rset s off v).beat = s.beat := rfl
@[simp] theorem rset_grid (s : State) (off v : Nat) : (rset s off v).grid = s.grid := rfl
@[simp] theorem rset_cache (s : State) (off v : Nat) : (rset s off v).cache = s.cache := rfl
@[simp] theorem rset_forager (s : State) (off v : Nat) : (rset s off v).forager = s.forager := rfl
@[simp] theorem rset_lens (s : State) (off v : Nat) : (rset s off v).lens = s.lens := rfl
@[simp] theorem rset_sched (s : State) (off v : Nat) : (rset s off v).sched = s.sched := rfl
@[simp] theorem rset_tiers (s : State) (off v : Nat) : (rset s off v).tiers = s.tiers := rfl
@[simp] theorem rset_fabric (s : State) (off v : Nat) : (rset s off v).fabric = s.fabric := rfl
@[simp] theorem rset_remote (s : State) (off v : Nat) : (rset s off v).remote = s.remote := rfl
@[simp] theorem rset_host (s : State) (off v : Nat) : (rset s off v).host = s.host := rfl
@[simp] theorem rset_power (s : State) (off v : Nat) : (rset s off v).power = s.power := rfl
@[simp] theorem rset_reliab (s : State) (off v : Nat) : (rset s off v).reliab = s.reliab := rfl
@[simp] theorem rset_sec (s : State) (off v : Nat) : (rset s off v).sec = s.sec := rfl
@[simp] theorem rset_mgmt (s : State) (off v : Nat) : (rset s off v).mgmt = s.mgmt := rfl
@[simp] theorem rset_boot (s : State) (off v : Nat) : (rset s off v).boot = s.boot := rfl
@[simp] theorem rset_committed (s : State) (off v : Nat) : (rset s off v).committed = s.committed := rfl
@[simp] theorem rset_latches (s : State) (off v : Nat) : (rset s off v).latches = s.latches := rfl
@[simp] theorem rset_freeCtr (s : State) (off v : Nat) : (rset s off v).freeCtr = s.freeCtr := rfl
@[simp] theorem rset_tx (s : State) (off v : Nat) : (rset s off v).tx = s.tx := rfl
@[simp] theorem rset_pending (s : State) (off v : Nat) : (rset s off v).pending = s.pending := rfl

/-! ## emit -/

@[simp] theorem emit_beat (s : State) (m : Tx) : (emit s m).beat = s.beat := rfl
@[simp] theorem emit_grid (s : State) (m : Tx) : (emit s m).grid = s.grid := rfl
@[simp] theorem emit_cache (s : State) (m : Tx) : (emit s m).cache = s.cache := rfl
@[simp] theorem emit_forager (s : State) (m : Tx) : (emit s m).forager = s.forager := rfl
@[simp] theorem emit_lens (s : State) (m : Tx) : (emit s m).lens = s.lens := rfl
@[simp] theorem emit_sched (s : State) (m : Tx) : (emit s m).sched = s.sched := rfl
@[simp] theorem emit_tiers (s : State) (m : Tx) : (emit s m).tiers = s.tiers := rfl
@[simp] theorem emit_fabric (s : State) (m : Tx) : (emit s m).fabric = s.fabric := rfl
@[simp] theorem emit_remote (s : State) (m : Tx) : (emit s m).remote = s.remote := rfl
@[simp] theorem emit_host (s : State) (m : Tx) : (emit s m).host = s.host := rfl
@[simp] theorem emit_power (s : State) (m : Tx) : (emit s m).power = s.power := rfl
@[simp] theorem emit_reliab (s : State) (m : Tx) : (emit s m).reliab = s.reliab := rfl
@[simp] theorem emit_sec (s : State) (m : Tx) : (emit s m).sec = s.sec := rfl
@[simp] theorem emit_mgmt (s : State) (m : Tx) : (emit s m).mgmt = s.mgmt := rfl
@[simp] theorem emit_boot (s : State) (m : Tx) : (emit s m).boot = s.boot := rfl
@[simp] theorem emit_regs (s : State) (m : Tx) : (emit s m).regs = s.regs := rfl
@[simp] theorem emit_committed (s : State) (m : Tx) : (emit s m).committed = s.committed := rfl
@[simp] theorem emit_latches (s : State) (m : Tx) : (emit s m).latches = s.latches := rfl
@[simp] theorem emit_freeCtr (s : State) (m : Tx) : (emit s m).freeCtr = s.freeCtr := rfl
@[simp] theorem emit_pending (s : State) (m : Tx) : (emit s m).pending = s.pending := rfl

/-! ## cellSet -/

@[simp] theorem cellSet_beat (s : State) (c : Nat) (x : Cell) : (cellSet s c x).beat = s.beat := rfl
@[simp] theorem cellSet_cache (s : State) (c : Nat) (x : Cell) : (cellSet s c x).cache = s.cache := rfl
@[simp] theorem cellSet_forager (s : State) (c : Nat) (x : Cell) : (cellSet s c x).forager = s.forager := rfl
@[simp] theorem cellSet_lens (s : State) (c : Nat) (x : Cell) : (cellSet s c x).lens = s.lens := rfl
@[simp] theorem cellSet_sched (s : State) (c : Nat) (x : Cell) : (cellSet s c x).sched = s.sched := rfl
@[simp] theorem cellSet_tiers (s : State) (c : Nat) (x : Cell) : (cellSet s c x).tiers = s.tiers := rfl
@[simp] theorem cellSet_fabric (s : State) (c : Nat) (x : Cell) : (cellSet s c x).fabric = s.fabric := rfl
@[simp] theorem cellSet_remote (s : State) (c : Nat) (x : Cell) : (cellSet s c x).remote = s.remote := rfl
@[simp] theorem cellSet_host (s : State) (c : Nat) (x : Cell) : (cellSet s c x).host = s.host := rfl
@[simp] theorem cellSet_power (s : State) (c : Nat) (x : Cell) : (cellSet s c x).power = s.power := rfl
@[simp] theorem cellSet_reliab (s : State) (c : Nat) (x : Cell) : (cellSet s c x).reliab = s.reliab := rfl
@[simp] theorem cellSet_sec (s : State) (c : Nat) (x : Cell) : (cellSet s c x).sec = s.sec := rfl
@[simp] theorem cellSet_mgmt (s : State) (c : Nat) (x : Cell) : (cellSet s c x).mgmt = s.mgmt := rfl
@[simp] theorem cellSet_boot (s : State) (c : Nat) (x : Cell) : (cellSet s c x).boot = s.boot := rfl
@[simp] theorem cellSet_regs (s : State) (c : Nat) (x : Cell) : (cellSet s c x).regs = s.regs := rfl
@[simp] theorem cellSet_committed (s : State) (c : Nat) (x : Cell) : (cellSet s c x).committed = s.committed := rfl
@[simp] theorem cellSet_latches (s : State) (c : Nat) (x : Cell) : (cellSet s c x).latches = s.latches := rfl
@[simp] theorem cellSet_freeCtr (s : State) (c : Nat) (x : Cell) : (cellSet s c x).freeCtr = s.freeCtr := rfl
@[simp] theorem cellSet_tx (s : State) (c : Nat) (x : Cell) : (cellSet s c x).tx = s.tx := rfl
@[simp] theorem cellSet_pending (s : State) (c : Nat) (x : Cell) : (cellSet s c x).pending = s.pending := rfl

/-! ## workerSet -/

@[simp] theorem workerSet_beat (s : State) (c w : Nat) (x : Worker) : (workerSet s c w x).beat = s.beat := rfl
@[simp] theorem workerSet_cache (s : State) (c w : Nat) (x : Worker) : (workerSet s c w x).cache = s.cache := rfl
@[simp] theorem workerSet_forager (s : State) (c w : Nat) (x : Worker) : (workerSet s c w x).forager = s.forager := rfl
@[simp] theorem workerSet_lens (s : State) (c w : Nat) (x : Worker) : (workerSet s c w x).lens = s.lens := rfl
@[simp] theorem workerSet_sched (s : State) (c w : Nat) (x : Worker) : (workerSet s c w x).sched = s.sched := rfl
@[simp] theorem workerSet_tiers (s : State) (c w : Nat) (x : Worker) : (workerSet s c w x).tiers = s.tiers := rfl
@[simp] theorem workerSet_fabric (s : State) (c w : Nat) (x : Worker) : (workerSet s c w x).fabric = s.fabric := rfl
@[simp] theorem workerSet_remote (s : State) (c w : Nat) (x : Worker) : (workerSet s c w x).remote = s.remote := rfl
@[simp] theorem workerSet_host (s : State) (c w : Nat) (x : Worker) : (workerSet s c w x).host = s.host := rfl
@[simp] theorem workerSet_power (s : State) (c w : Nat) (x : Worker) : (workerSet s c w x).power = s.power := rfl
@[simp] theorem workerSet_reliab (s : State) (c w : Nat) (x : Worker) : (workerSet s c w x).reliab = s.reliab := rfl
@[simp] theorem workerSet_sec (s : State) (c w : Nat) (x : Worker) : (workerSet s c w x).sec = s.sec := rfl
@[simp] theorem workerSet_mgmt (s : State) (c w : Nat) (x : Worker) : (workerSet s c w x).mgmt = s.mgmt := rfl
@[simp] theorem workerSet_boot (s : State) (c w : Nat) (x : Worker) : (workerSet s c w x).boot = s.boot := rfl
@[simp] theorem workerSet_regs (s : State) (c w : Nat) (x : Worker) : (workerSet s c w x).regs = s.regs := rfl
@[simp] theorem workerSet_committed (s : State) (c w : Nat) (x : Worker) : (workerSet s c w x).committed = s.committed := rfl
@[simp] theorem workerSet_latches (s : State) (c w : Nat) (x : Worker) : (workerSet s c w x).latches = s.latches := rfl
@[simp] theorem workerSet_freeCtr (s : State) (c w : Nat) (x : Worker) : (workerSet s c w x).freeCtr = s.freeCtr := rfl
@[simp] theorem workerSet_tx (s : State) (c w : Nat) (x : Worker) : (workerSet s c w x).tx = s.tx := rfl
@[simp] theorem workerSet_pending (s : State) (c w : Nat) (x : Worker) : (workerSet s c w x).pending = s.pending := rfl

/-! ## setPc -/

@[simp] theorem setPc_beat (s : State) (c w pc : Nat) : (setPc s c w pc).beat = s.beat := rfl
@[simp] theorem setPc_cache (s : State) (c w pc : Nat) : (setPc s c w pc).cache = s.cache := rfl
@[simp] theorem setPc_forager (s : State) (c w pc : Nat) : (setPc s c w pc).forager = s.forager := rfl
@[simp] theorem setPc_lens (s : State) (c w pc : Nat) : (setPc s c w pc).lens = s.lens := rfl
@[simp] theorem setPc_sched (s : State) (c w pc : Nat) : (setPc s c w pc).sched = s.sched := rfl
@[simp] theorem setPc_tiers (s : State) (c w pc : Nat) : (setPc s c w pc).tiers = s.tiers := rfl
@[simp] theorem setPc_fabric (s : State) (c w pc : Nat) : (setPc s c w pc).fabric = s.fabric := rfl
@[simp] theorem setPc_remote (s : State) (c w pc : Nat) : (setPc s c w pc).remote = s.remote := rfl
@[simp] theorem setPc_host (s : State) (c w pc : Nat) : (setPc s c w pc).host = s.host := rfl
@[simp] theorem setPc_power (s : State) (c w pc : Nat) : (setPc s c w pc).power = s.power := rfl
@[simp] theorem setPc_reliab (s : State) (c w pc : Nat) : (setPc s c w pc).reliab = s.reliab := rfl
@[simp] theorem setPc_sec (s : State) (c w pc : Nat) : (setPc s c w pc).sec = s.sec := rfl
@[simp] theorem setPc_mgmt (s : State) (c w pc : Nat) : (setPc s c w pc).mgmt = s.mgmt := rfl
@[simp] theorem setPc_boot (s : State) (c w pc : Nat) : (setPc s c w pc).boot = s.boot := rfl
@[simp] theorem setPc_regs (s : State) (c w pc : Nat) : (setPc s c w pc).regs = s.regs := rfl
@[simp] theorem setPc_committed (s : State) (c w pc : Nat) : (setPc s c w pc).committed = s.committed := rfl
@[simp] theorem setPc_latches (s : State) (c w pc : Nat) : (setPc s c w pc).latches = s.latches := rfl
@[simp] theorem setPc_freeCtr (s : State) (c w pc : Nat) : (setPc s c w pc).freeCtr = s.freeCtr := rfl
@[simp] theorem setPc_tx (s : State) (c w pc : Nat) : (setPc s c w pc).tx = s.tx := rfl
@[simp] theorem setPc_pending (s : State) (c w pc : Nat) : (setPc s c w pc).pending = s.pending := rfl

/-! ## setG -/

@[simp] theorem setG_beat (s : State) (c w n v : Nat) : (setG s c w n v).beat = s.beat := rfl
@[simp] theorem setG_cache (s : State) (c w n v : Nat) : (setG s c w n v).cache = s.cache := rfl
@[simp] theorem setG_forager (s : State) (c w n v : Nat) : (setG s c w n v).forager = s.forager := rfl
@[simp] theorem setG_lens (s : State) (c w n v : Nat) : (setG s c w n v).lens = s.lens := rfl
@[simp] theorem setG_sched (s : State) (c w n v : Nat) : (setG s c w n v).sched = s.sched := rfl
@[simp] theorem setG_tiers (s : State) (c w n v : Nat) : (setG s c w n v).tiers = s.tiers := rfl
@[simp] theorem setG_fabric (s : State) (c w n v : Nat) : (setG s c w n v).fabric = s.fabric := rfl
@[simp] theorem setG_remote (s : State) (c w n v : Nat) : (setG s c w n v).remote = s.remote := rfl
@[simp] theorem setG_host (s : State) (c w n v : Nat) : (setG s c w n v).host = s.host := rfl
@[simp] theorem setG_power (s : State) (c w n v : Nat) : (setG s c w n v).power = s.power := rfl
@[simp] theorem setG_reliab (s : State) (c w n v : Nat) : (setG s c w n v).reliab = s.reliab := rfl
@[simp] theorem setG_sec (s : State) (c w n v : Nat) : (setG s c w n v).sec = s.sec := rfl
@[simp] theorem setG_mgmt (s : State) (c w n v : Nat) : (setG s c w n v).mgmt = s.mgmt := rfl
@[simp] theorem setG_boot (s : State) (c w n v : Nat) : (setG s c w n v).boot = s.boot := rfl
@[simp] theorem setG_regs (s : State) (c w n v : Nat) : (setG s c w n v).regs = s.regs := rfl
@[simp] theorem setG_committed (s : State) (c w n v : Nat) : (setG s c w n v).committed = s.committed := rfl
@[simp] theorem setG_latches (s : State) (c w n v : Nat) : (setG s c w n v).latches = s.latches := rfl
@[simp] theorem setG_freeCtr (s : State) (c w n v : Nat) : (setG s c w n v).freeCtr = s.freeCtr := rfl
@[simp] theorem setG_tx (s : State) (c w n v : Nat) : (setG s c w n v).tx = s.tx := rfl
@[simp] theorem setG_pending (s : State) (c w n v : Nat) : (setG s c w n v).pending = s.pending := rfl

/-! ## setV -/

@[simp] theorem setV_beat (s : State) (c w n : Nat) (v : VReg) : (setV s c w n v).beat = s.beat := rfl
@[simp] theorem setV_cache (s : State) (c w n : Nat) (v : VReg) : (setV s c w n v).cache = s.cache := rfl
@[simp] theorem setV_forager (s : State) (c w n : Nat) (v : VReg) : (setV s c w n v).forager = s.forager := rfl
@[simp] theorem setV_lens (s : State) (c w n : Nat) (v : VReg) : (setV s c w n v).lens = s.lens := rfl
@[simp] theorem setV_sched (s : State) (c w n : Nat) (v : VReg) : (setV s c w n v).sched = s.sched := rfl
@[simp] theorem setV_tiers (s : State) (c w n : Nat) (v : VReg) : (setV s c w n v).tiers = s.tiers := rfl
@[simp] theorem setV_fabric (s : State) (c w n : Nat) (v : VReg) : (setV s c w n v).fabric = s.fabric := rfl
@[simp] theorem setV_remote (s : State) (c w n : Nat) (v : VReg) : (setV s c w n v).remote = s.remote := rfl
@[simp] theorem setV_host (s : State) (c w n : Nat) (v : VReg) : (setV s c w n v).host = s.host := rfl
@[simp] theorem setV_power (s : State) (c w n : Nat) (v : VReg) : (setV s c w n v).power = s.power := rfl
@[simp] theorem setV_reliab (s : State) (c w n : Nat) (v : VReg) : (setV s c w n v).reliab = s.reliab := rfl
@[simp] theorem setV_sec (s : State) (c w n : Nat) (v : VReg) : (setV s c w n v).sec = s.sec := rfl
@[simp] theorem setV_mgmt (s : State) (c w n : Nat) (v : VReg) : (setV s c w n v).mgmt = s.mgmt := rfl
@[simp] theorem setV_boot (s : State) (c w n : Nat) (v : VReg) : (setV s c w n v).boot = s.boot := rfl
@[simp] theorem setV_regs (s : State) (c w n : Nat) (v : VReg) : (setV s c w n v).regs = s.regs := rfl
@[simp] theorem setV_committed (s : State) (c w n : Nat) (v : VReg) : (setV s c w n v).committed = s.committed := rfl
@[simp] theorem setV_latches (s : State) (c w n : Nat) (v : VReg) : (setV s c w n v).latches = s.latches := rfl
@[simp] theorem setV_freeCtr (s : State) (c w n : Nat) (v : VReg) : (setV s c w n v).freeCtr = s.freeCtr := rfl
@[simp] theorem setV_tx (s : State) (c w n : Nat) (v : VReg) : (setV s c w n v).tx = s.tx := rfl
@[simp] theorem setV_pending (s : State) (c w n : Nat) (v : VReg) : (setV s c w n v).pending = s.pending := rfl

/-! ## engSet -/

@[simp] theorem engSet_beat (s : State) (c : Nat) (e : Engine) : (engSet s c e).beat = s.beat := rfl
@[simp] theorem engSet_cache (s : State) (c : Nat) (e : Engine) : (engSet s c e).cache = s.cache := rfl
@[simp] theorem engSet_forager (s : State) (c : Nat) (e : Engine) : (engSet s c e).forager = s.forager := rfl
@[simp] theorem engSet_lens (s : State) (c : Nat) (e : Engine) : (engSet s c e).lens = s.lens := rfl
@[simp] theorem engSet_sched (s : State) (c : Nat) (e : Engine) : (engSet s c e).sched = s.sched := rfl
@[simp] theorem engSet_tiers (s : State) (c : Nat) (e : Engine) : (engSet s c e).tiers = s.tiers := rfl
@[simp] theorem engSet_fabric (s : State) (c : Nat) (e : Engine) : (engSet s c e).fabric = s.fabric := rfl
@[simp] theorem engSet_remote (s : State) (c : Nat) (e : Engine) : (engSet s c e).remote = s.remote := rfl
@[simp] theorem engSet_host (s : State) (c : Nat) (e : Engine) : (engSet s c e).host = s.host := rfl
@[simp] theorem engSet_power (s : State) (c : Nat) (e : Engine) : (engSet s c e).power = s.power := rfl
@[simp] theorem engSet_reliab (s : State) (c : Nat) (e : Engine) : (engSet s c e).reliab = s.reliab := rfl
@[simp] theorem engSet_sec (s : State) (c : Nat) (e : Engine) : (engSet s c e).sec = s.sec := rfl
@[simp] theorem engSet_mgmt (s : State) (c : Nat) (e : Engine) : (engSet s c e).mgmt = s.mgmt := rfl
@[simp] theorem engSet_boot (s : State) (c : Nat) (e : Engine) : (engSet s c e).boot = s.boot := rfl
@[simp] theorem engSet_regs (s : State) (c : Nat) (e : Engine) : (engSet s c e).regs = s.regs := rfl
@[simp] theorem engSet_committed (s : State) (c : Nat) (e : Engine) : (engSet s c e).committed = s.committed := rfl
@[simp] theorem engSet_latches (s : State) (c : Nat) (e : Engine) : (engSet s c e).latches = s.latches := rfl
@[simp] theorem engSet_freeCtr (s : State) (c : Nat) (e : Engine) : (engSet s c e).freeCtr = s.freeCtr := rfl
@[simp] theorem engSet_tx (s : State) (c : Nat) (e : Engine) : (engSet s c e).tx = s.tx := rfl
@[simp] theorem engSet_pending (s : State) (c : Nat) (e : Engine) : (engSet s c e).pending = s.pending := rfl

/-! ## slotSet -/

@[simp] theorem slotSet_beat (s : State) (c j : Nat) (x : CbSlot) : (slotSet s c j x).beat = s.beat := rfl
@[simp] theorem slotSet_cache (s : State) (c j : Nat) (x : CbSlot) : (slotSet s c j x).cache = s.cache := rfl
@[simp] theorem slotSet_forager (s : State) (c j : Nat) (x : CbSlot) : (slotSet s c j x).forager = s.forager := rfl
@[simp] theorem slotSet_lens (s : State) (c j : Nat) (x : CbSlot) : (slotSet s c j x).lens = s.lens := rfl
@[simp] theorem slotSet_sched (s : State) (c j : Nat) (x : CbSlot) : (slotSet s c j x).sched = s.sched := rfl
@[simp] theorem slotSet_tiers (s : State) (c j : Nat) (x : CbSlot) : (slotSet s c j x).tiers = s.tiers := rfl
@[simp] theorem slotSet_fabric (s : State) (c j : Nat) (x : CbSlot) : (slotSet s c j x).fabric = s.fabric := rfl
@[simp] theorem slotSet_remote (s : State) (c j : Nat) (x : CbSlot) : (slotSet s c j x).remote = s.remote := rfl
@[simp] theorem slotSet_host (s : State) (c j : Nat) (x : CbSlot) : (slotSet s c j x).host = s.host := rfl
@[simp] theorem slotSet_power (s : State) (c j : Nat) (x : CbSlot) : (slotSet s c j x).power = s.power := rfl
@[simp] theorem slotSet_reliab (s : State) (c j : Nat) (x : CbSlot) : (slotSet s c j x).reliab = s.reliab := rfl
@[simp] theorem slotSet_sec (s : State) (c j : Nat) (x : CbSlot) : (slotSet s c j x).sec = s.sec := rfl
@[simp] theorem slotSet_mgmt (s : State) (c j : Nat) (x : CbSlot) : (slotSet s c j x).mgmt = s.mgmt := rfl
@[simp] theorem slotSet_boot (s : State) (c j : Nat) (x : CbSlot) : (slotSet s c j x).boot = s.boot := rfl
@[simp] theorem slotSet_regs (s : State) (c j : Nat) (x : CbSlot) : (slotSet s c j x).regs = s.regs := rfl
@[simp] theorem slotSet_committed (s : State) (c j : Nat) (x : CbSlot) : (slotSet s c j x).committed = s.committed := rfl
@[simp] theorem slotSet_latches (s : State) (c j : Nat) (x : CbSlot) : (slotSet s c j x).latches = s.latches := rfl
@[simp] theorem slotSet_freeCtr (s : State) (c j : Nat) (x : CbSlot) : (slotSet s c j x).freeCtr = s.freeCtr := rfl
@[simp] theorem slotSet_tx (s : State) (c j : Nat) (x : CbSlot) : (slotSet s c j x).tx = s.tx := rfl
@[simp] theorem slotSet_pending (s : State) (c j : Nat) (x : CbSlot) : (slotSet s c j x).pending = s.pending := rfl

/-! ## portPut -/

@[simp] theorem portPut_beat (s : State) (p : Nat) (x : Port) : (portPut s p x).beat = s.beat := rfl
@[simp] theorem portPut_grid (s : State) (p : Nat) (x : Port) : (portPut s p x).grid = s.grid := rfl
@[simp] theorem portPut_cache (s : State) (p : Nat) (x : Port) : (portPut s p x).cache = s.cache := rfl
@[simp] theorem portPut_forager (s : State) (p : Nat) (x : Port) : (portPut s p x).forager = s.forager := rfl
@[simp] theorem portPut_lens (s : State) (p : Nat) (x : Port) : (portPut s p x).lens = s.lens := rfl
@[simp] theorem portPut_sched (s : State) (p : Nat) (x : Port) : (portPut s p x).sched = s.sched := rfl
@[simp] theorem portPut_tiers (s : State) (p : Nat) (x : Port) : (portPut s p x).tiers = s.tiers := rfl
@[simp] theorem portPut_remote (s : State) (p : Nat) (x : Port) : (portPut s p x).remote = s.remote := rfl
@[simp] theorem portPut_host (s : State) (p : Nat) (x : Port) : (portPut s p x).host = s.host := rfl
@[simp] theorem portPut_power (s : State) (p : Nat) (x : Port) : (portPut s p x).power = s.power := rfl
@[simp] theorem portPut_reliab (s : State) (p : Nat) (x : Port) : (portPut s p x).reliab = s.reliab := rfl
@[simp] theorem portPut_sec (s : State) (p : Nat) (x : Port) : (portPut s p x).sec = s.sec := rfl
@[simp] theorem portPut_mgmt (s : State) (p : Nat) (x : Port) : (portPut s p x).mgmt = s.mgmt := rfl
@[simp] theorem portPut_boot (s : State) (p : Nat) (x : Port) : (portPut s p x).boot = s.boot := rfl
@[simp] theorem portPut_regs (s : State) (p : Nat) (x : Port) : (portPut s p x).regs = s.regs := rfl
@[simp] theorem portPut_committed (s : State) (p : Nat) (x : Port) : (portPut s p x).committed = s.committed := rfl
@[simp] theorem portPut_latches (s : State) (p : Nat) (x : Port) : (portPut s p x).latches = s.latches := rfl
@[simp] theorem portPut_freeCtr (s : State) (p : Nat) (x : Port) : (portPut s p x).freeCtr = s.freeCtr := rfl
@[simp] theorem portPut_tx (s : State) (p : Nat) (x : Port) : (portPut s p x).tx = s.tx := rfl
@[simp] theorem portPut_pending (s : State) (p : Nat) (x : Port) : (portPut s p x).pending = s.pending := rfl

/-! ## ctxSet -/

@[simp] theorem ctxSet_beat (s : State) (n : Nat) (x : Ctx) : (ctxSet s n x).beat = s.beat := rfl
@[simp] theorem ctxSet_grid (s : State) (n : Nat) (x : Ctx) : (ctxSet s n x).grid = s.grid := rfl
@[simp] theorem ctxSet_cache (s : State) (n : Nat) (x : Ctx) : (ctxSet s n x).cache = s.cache := rfl
@[simp] theorem ctxSet_forager (s : State) (n : Nat) (x : Ctx) : (ctxSet s n x).forager = s.forager := rfl
@[simp] theorem ctxSet_lens (s : State) (n : Nat) (x : Ctx) : (ctxSet s n x).lens = s.lens := rfl
@[simp] theorem ctxSet_tiers (s : State) (n : Nat) (x : Ctx) : (ctxSet s n x).tiers = s.tiers := rfl
@[simp] theorem ctxSet_fabric (s : State) (n : Nat) (x : Ctx) : (ctxSet s n x).fabric = s.fabric := rfl
@[simp] theorem ctxSet_remote (s : State) (n : Nat) (x : Ctx) : (ctxSet s n x).remote = s.remote := rfl
@[simp] theorem ctxSet_host (s : State) (n : Nat) (x : Ctx) : (ctxSet s n x).host = s.host := rfl
@[simp] theorem ctxSet_power (s : State) (n : Nat) (x : Ctx) : (ctxSet s n x).power = s.power := rfl
@[simp] theorem ctxSet_reliab (s : State) (n : Nat) (x : Ctx) : (ctxSet s n x).reliab = s.reliab := rfl
@[simp] theorem ctxSet_sec (s : State) (n : Nat) (x : Ctx) : (ctxSet s n x).sec = s.sec := rfl
@[simp] theorem ctxSet_mgmt (s : State) (n : Nat) (x : Ctx) : (ctxSet s n x).mgmt = s.mgmt := rfl
@[simp] theorem ctxSet_boot (s : State) (n : Nat) (x : Ctx) : (ctxSet s n x).boot = s.boot := rfl
@[simp] theorem ctxSet_regs (s : State) (n : Nat) (x : Ctx) : (ctxSet s n x).regs = s.regs := rfl
@[simp] theorem ctxSet_committed (s : State) (n : Nat) (x : Ctx) : (ctxSet s n x).committed = s.committed := rfl
@[simp] theorem ctxSet_latches (s : State) (n : Nat) (x : Ctx) : (ctxSet s n x).latches = s.latches := rfl
@[simp] theorem ctxSet_freeCtr (s : State) (n : Nat) (x : Ctx) : (ctxSet s n x).freeCtr = s.freeCtr := rfl
@[simp] theorem ctxSet_tx (s : State) (n : Nat) (x : Ctx) : (ctxSet s n x).tx = s.tx := rfl
@[simp] theorem ctxSet_pending (s : State) (n : Nat) (x : Ctx) : (ctxSet s n x).pending = s.pending := rfl

/-! ## semSet -/

@[simp] theorem semSet_beat (s : State) (n : Nat) (x : Sem) : (semSet s n x).beat = s.beat := rfl
@[simp] theorem semSet_grid (s : State) (n : Nat) (x : Sem) : (semSet s n x).grid = s.grid := rfl
@[simp] theorem semSet_cache (s : State) (n : Nat) (x : Sem) : (semSet s n x).cache = s.cache := rfl
@[simp] theorem semSet_forager (s : State) (n : Nat) (x : Sem) : (semSet s n x).forager = s.forager := rfl
@[simp] theorem semSet_lens (s : State) (n : Nat) (x : Sem) : (semSet s n x).lens = s.lens := rfl
@[simp] theorem semSet_tiers (s : State) (n : Nat) (x : Sem) : (semSet s n x).tiers = s.tiers := rfl
@[simp] theorem semSet_fabric (s : State) (n : Nat) (x : Sem) : (semSet s n x).fabric = s.fabric := rfl
@[simp] theorem semSet_remote (s : State) (n : Nat) (x : Sem) : (semSet s n x).remote = s.remote := rfl
@[simp] theorem semSet_host (s : State) (n : Nat) (x : Sem) : (semSet s n x).host = s.host := rfl
@[simp] theorem semSet_power (s : State) (n : Nat) (x : Sem) : (semSet s n x).power = s.power := rfl
@[simp] theorem semSet_reliab (s : State) (n : Nat) (x : Sem) : (semSet s n x).reliab = s.reliab := rfl
@[simp] theorem semSet_sec (s : State) (n : Nat) (x : Sem) : (semSet s n x).sec = s.sec := rfl
@[simp] theorem semSet_mgmt (s : State) (n : Nat) (x : Sem) : (semSet s n x).mgmt = s.mgmt := rfl
@[simp] theorem semSet_boot (s : State) (n : Nat) (x : Sem) : (semSet s n x).boot = s.boot := rfl
@[simp] theorem semSet_regs (s : State) (n : Nat) (x : Sem) : (semSet s n x).regs = s.regs := rfl
@[simp] theorem semSet_committed (s : State) (n : Nat) (x : Sem) : (semSet s n x).committed = s.committed := rfl
@[simp] theorem semSet_latches (s : State) (n : Nat) (x : Sem) : (semSet s n x).latches = s.latches := rfl
@[simp] theorem semSet_freeCtr (s : State) (n : Nat) (x : Sem) : (semSet s n x).freeCtr = s.freeCtr := rfl
@[simp] theorem semSet_tx (s : State) (n : Nat) (x : Sem) : (semSet s n x).tx = s.tx := rfl
@[simp] theorem semSet_pending (s : State) (n : Nat) (x : Sem) : (semSet s n x).pending = s.pending := rfl

/-! ## charge -/

@[simp] theorem charge_beat (s : State) (k idx cls n : Nat) : (charge s k idx cls n).beat = s.beat := rfl
@[simp] theorem charge_grid (s : State) (k idx cls n : Nat) : (charge s k idx cls n).grid = s.grid := rfl
@[simp] theorem charge_cache (s : State) (k idx cls n : Nat) : (charge s k idx cls n).cache = s.cache := rfl
@[simp] theorem charge_forager (s : State) (k idx cls n : Nat) : (charge s k idx cls n).forager = s.forager := rfl
@[simp] theorem charge_lens (s : State) (k idx cls n : Nat) : (charge s k idx cls n).lens = s.lens := rfl
@[simp] theorem charge_tiers (s : State) (k idx cls n : Nat) : (charge s k idx cls n).tiers = s.tiers := rfl
@[simp] theorem charge_fabric (s : State) (k idx cls n : Nat) : (charge s k idx cls n).fabric = s.fabric := rfl
@[simp] theorem charge_remote (s : State) (k idx cls n : Nat) : (charge s k idx cls n).remote = s.remote := rfl
@[simp] theorem charge_host (s : State) (k idx cls n : Nat) : (charge s k idx cls n).host = s.host := rfl
@[simp] theorem charge_power (s : State) (k idx cls n : Nat) : (charge s k idx cls n).power = s.power := rfl
@[simp] theorem charge_reliab (s : State) (k idx cls n : Nat) : (charge s k idx cls n).reliab = s.reliab := rfl
@[simp] theorem charge_sec (s : State) (k idx cls n : Nat) : (charge s k idx cls n).sec = s.sec := rfl
@[simp] theorem charge_mgmt (s : State) (k idx cls n : Nat) : (charge s k idx cls n).mgmt = s.mgmt := rfl
@[simp] theorem charge_boot (s : State) (k idx cls n : Nat) : (charge s k idx cls n).boot = s.boot := rfl
@[simp] theorem charge_regs (s : State) (k idx cls n : Nat) : (charge s k idx cls n).regs = s.regs := rfl
@[simp] theorem charge_committed (s : State) (k idx cls n : Nat) : (charge s k idx cls n).committed = s.committed := rfl
@[simp] theorem charge_latches (s : State) (k idx cls n : Nat) : (charge s k idx cls n).latches = s.latches := rfl
@[simp] theorem charge_freeCtr (s : State) (k idx cls n : Nat) : (charge s k idx cls n).freeCtr = s.freeCtr := rfl
@[simp] theorem charge_tx (s : State) (k idx cls n : Nat) : (charge s k idx cls n).tx = s.tx := rfl
@[simp] theorem charge_pending (s : State) (k idx cls n : Nat) : (charge s k idx cls n).pending = s.pending := rfl

/-! ## fnSet -/

@[simp] theorem fnSet_beat (s : State) (f : Nat) (x : Fn) : (fnSet s f x).beat = s.beat := rfl
@[simp] theorem fnSet_grid (s : State) (f : Nat) (x : Fn) : (fnSet s f x).grid = s.grid := rfl
@[simp] theorem fnSet_cache (s : State) (f : Nat) (x : Fn) : (fnSet s f x).cache = s.cache := rfl
@[simp] theorem fnSet_forager (s : State) (f : Nat) (x : Fn) : (fnSet s f x).forager = s.forager := rfl
@[simp] theorem fnSet_lens (s : State) (f : Nat) (x : Fn) : (fnSet s f x).lens = s.lens := rfl
@[simp] theorem fnSet_sched (s : State) (f : Nat) (x : Fn) : (fnSet s f x).sched = s.sched := rfl
@[simp] theorem fnSet_tiers (s : State) (f : Nat) (x : Fn) : (fnSet s f x).tiers = s.tiers := rfl
@[simp] theorem fnSet_fabric (s : State) (f : Nat) (x : Fn) : (fnSet s f x).fabric = s.fabric := rfl
@[simp] theorem fnSet_remote (s : State) (f : Nat) (x : Fn) : (fnSet s f x).remote = s.remote := rfl
@[simp] theorem fnSet_power (s : State) (f : Nat) (x : Fn) : (fnSet s f x).power = s.power := rfl
@[simp] theorem fnSet_reliab (s : State) (f : Nat) (x : Fn) : (fnSet s f x).reliab = s.reliab := rfl
@[simp] theorem fnSet_sec (s : State) (f : Nat) (x : Fn) : (fnSet s f x).sec = s.sec := rfl
@[simp] theorem fnSet_mgmt (s : State) (f : Nat) (x : Fn) : (fnSet s f x).mgmt = s.mgmt := rfl
@[simp] theorem fnSet_boot (s : State) (f : Nat) (x : Fn) : (fnSet s f x).boot = s.boot := rfl
@[simp] theorem fnSet_regs (s : State) (f : Nat) (x : Fn) : (fnSet s f x).regs = s.regs := rfl
@[simp] theorem fnSet_committed (s : State) (f : Nat) (x : Fn) : (fnSet s f x).committed = s.committed := rfl
@[simp] theorem fnSet_latches (s : State) (f : Nat) (x : Fn) : (fnSet s f x).latches = s.latches := rfl
@[simp] theorem fnSet_freeCtr (s : State) (f : Nat) (x : Fn) : (fnSet s f x).freeCtr = s.freeCtr := rfl
@[simp] theorem fnSet_tx (s : State) (f : Nat) (x : Fn) : (fnSet s f x).tx = s.tx := rfl
@[simp] theorem fnSet_pending (s : State) (f : Nat) (x : Fn) : (fnSet s f x).pending = s.pending := rfl

/-! ## pageSet -/

@[simp] theorem pageSet_beat (s : State) (n : Nat) (p : Page) : (pageSet s n p).beat = s.beat := rfl
@[simp] theorem pageSet_grid (s : State) (n : Nat) (p : Page) : (pageSet s n p).grid = s.grid := rfl
@[simp] theorem pageSet_forager (s : State) (n : Nat) (p : Page) : (pageSet s n p).forager = s.forager := rfl
@[simp] theorem pageSet_lens (s : State) (n : Nat) (p : Page) : (pageSet s n p).lens = s.lens := rfl
@[simp] theorem pageSet_sched (s : State) (n : Nat) (p : Page) : (pageSet s n p).sched = s.sched := rfl
@[simp] theorem pageSet_tiers (s : State) (n : Nat) (p : Page) : (pageSet s n p).tiers = s.tiers := rfl
@[simp] theorem pageSet_fabric (s : State) (n : Nat) (p : Page) : (pageSet s n p).fabric = s.fabric := rfl
@[simp] theorem pageSet_remote (s : State) (n : Nat) (p : Page) : (pageSet s n p).remote = s.remote := rfl
@[simp] theorem pageSet_host (s : State) (n : Nat) (p : Page) : (pageSet s n p).host = s.host := rfl
@[simp] theorem pageSet_power (s : State) (n : Nat) (p : Page) : (pageSet s n p).power = s.power := rfl
@[simp] theorem pageSet_reliab (s : State) (n : Nat) (p : Page) : (pageSet s n p).reliab = s.reliab := rfl
@[simp] theorem pageSet_sec (s : State) (n : Nat) (p : Page) : (pageSet s n p).sec = s.sec := rfl
@[simp] theorem pageSet_mgmt (s : State) (n : Nat) (p : Page) : (pageSet s n p).mgmt = s.mgmt := rfl
@[simp] theorem pageSet_boot (s : State) (n : Nat) (p : Page) : (pageSet s n p).boot = s.boot := rfl
@[simp] theorem pageSet_regs (s : State) (n : Nat) (p : Page) : (pageSet s n p).regs = s.regs := rfl
@[simp] theorem pageSet_committed (s : State) (n : Nat) (p : Page) : (pageSet s n p).committed = s.committed := rfl
@[simp] theorem pageSet_latches (s : State) (n : Nat) (p : Page) : (pageSet s n p).latches = s.latches := rfl
@[simp] theorem pageSet_freeCtr (s : State) (n : Nat) (p : Page) : (pageSet s n p).freeCtr = s.freeCtr := rfl
@[simp] theorem pageSet_tx (s : State) (n : Nat) (p : Page) : (pageSet s n p).tx = s.tx := rfl
@[simp] theorem pageSet_pending (s : State) (n : Nat) (p : Page) : (pageSet s n p).pending = s.pending := rfl

/-! ## regionSet -/

@[simp] theorem regionSet_beat (s : State) (n : Nat) (r : Region) : (regionSet s n r).beat = s.beat := rfl
@[simp] theorem regionSet_grid (s : State) (n : Nat) (r : Region) : (regionSet s n r).grid = s.grid := rfl
@[simp] theorem regionSet_cache (s : State) (n : Nat) (r : Region) : (regionSet s n r).cache = s.cache := rfl
@[simp] theorem regionSet_forager (s : State) (n : Nat) (r : Region) : (regionSet s n r).forager = s.forager := rfl
@[simp] theorem regionSet_lens (s : State) (n : Nat) (r : Region) : (regionSet s n r).lens = s.lens := rfl
@[simp] theorem regionSet_sched (s : State) (n : Nat) (r : Region) : (regionSet s n r).sched = s.sched := rfl
@[simp] theorem regionSet_tiers (s : State) (n : Nat) (r : Region) : (regionSet s n r).tiers = s.tiers := rfl
@[simp] theorem regionSet_fabric (s : State) (n : Nat) (r : Region) : (regionSet s n r).fabric = s.fabric := rfl
@[simp] theorem regionSet_host (s : State) (n : Nat) (r : Region) : (regionSet s n r).host = s.host := rfl
@[simp] theorem regionSet_power (s : State) (n : Nat) (r : Region) : (regionSet s n r).power = s.power := rfl
@[simp] theorem regionSet_reliab (s : State) (n : Nat) (r : Region) : (regionSet s n r).reliab = s.reliab := rfl
@[simp] theorem regionSet_sec (s : State) (n : Nat) (r : Region) : (regionSet s n r).sec = s.sec := rfl
@[simp] theorem regionSet_mgmt (s : State) (n : Nat) (r : Region) : (regionSet s n r).mgmt = s.mgmt := rfl
@[simp] theorem regionSet_boot (s : State) (n : Nat) (r : Region) : (regionSet s n r).boot = s.boot := rfl
@[simp] theorem regionSet_regs (s : State) (n : Nat) (r : Region) : (regionSet s n r).regs = s.regs := rfl
@[simp] theorem regionSet_committed (s : State) (n : Nat) (r : Region) : (regionSet s n r).committed = s.committed := rfl
@[simp] theorem regionSet_latches (s : State) (n : Nat) (r : Region) : (regionSet s n r).latches = s.latches := rfl
@[simp] theorem regionSet_freeCtr (s : State) (n : Nat) (r : Region) : (regionSet s n r).freeCtr = s.freeCtr := rfl
@[simp] theorem regionSet_tx (s : State) (n : Nat) (r : Region) : (regionSet s n r).tx = s.tx := rfl
@[simp] theorem regionSet_pending (s : State) (n : Nat) (r : Region) : (regionSet s n r).pending = s.pending := rfl

/-! ## slotPut -/

@[simp] theorem slotPut_beat (s : State) (i : Nat) (r : RecvSlot) : (slotPut s i r).beat = s.beat := rfl
@[simp] theorem slotPut_grid (s : State) (i : Nat) (r : RecvSlot) : (slotPut s i r).grid = s.grid := rfl
@[simp] theorem slotPut_cache (s : State) (i : Nat) (r : RecvSlot) : (slotPut s i r).cache = s.cache := rfl
@[simp] theorem slotPut_forager (s : State) (i : Nat) (r : RecvSlot) : (slotPut s i r).forager = s.forager := rfl
@[simp] theorem slotPut_lens (s : State) (i : Nat) (r : RecvSlot) : (slotPut s i r).lens = s.lens := rfl
@[simp] theorem slotPut_sched (s : State) (i : Nat) (r : RecvSlot) : (slotPut s i r).sched = s.sched := rfl
@[simp] theorem slotPut_tiers (s : State) (i : Nat) (r : RecvSlot) : (slotPut s i r).tiers = s.tiers := rfl
@[simp] theorem slotPut_fabric (s : State) (i : Nat) (r : RecvSlot) : (slotPut s i r).fabric = s.fabric := rfl
@[simp] theorem slotPut_host (s : State) (i : Nat) (r : RecvSlot) : (slotPut s i r).host = s.host := rfl
@[simp] theorem slotPut_power (s : State) (i : Nat) (r : RecvSlot) : (slotPut s i r).power = s.power := rfl
@[simp] theorem slotPut_reliab (s : State) (i : Nat) (r : RecvSlot) : (slotPut s i r).reliab = s.reliab := rfl
@[simp] theorem slotPut_sec (s : State) (i : Nat) (r : RecvSlot) : (slotPut s i r).sec = s.sec := rfl
@[simp] theorem slotPut_mgmt (s : State) (i : Nat) (r : RecvSlot) : (slotPut s i r).mgmt = s.mgmt := rfl
@[simp] theorem slotPut_boot (s : State) (i : Nat) (r : RecvSlot) : (slotPut s i r).boot = s.boot := rfl
@[simp] theorem slotPut_regs (s : State) (i : Nat) (r : RecvSlot) : (slotPut s i r).regs = s.regs := rfl
@[simp] theorem slotPut_committed (s : State) (i : Nat) (r : RecvSlot) : (slotPut s i r).committed = s.committed := rfl
@[simp] theorem slotPut_latches (s : State) (i : Nat) (r : RecvSlot) : (slotPut s i r).latches = s.latches := rfl
@[simp] theorem slotPut_freeCtr (s : State) (i : Nat) (r : RecvSlot) : (slotPut s i r).freeCtr = s.freeCtr := rfl
@[simp] theorem slotPut_tx (s : State) (i : Nat) (r : RecvSlot) : (slotPut s i r).tx = s.tx := rfl
@[simp] theorem slotPut_pending (s : State) (i : Nat) (r : RecvSlot) : (slotPut s i r).pending = s.pending := rfl

/-! ## gslotSet -/

@[simp] theorem gslotSet_beat (s : State) (j : Nat) (g : GSlot) : (gslotSet s j g).beat = s.beat := rfl
@[simp] theorem gslotSet_grid (s : State) (j : Nat) (g : GSlot) : (gslotSet s j g).grid = s.grid := rfl
@[simp] theorem gslotSet_cache (s : State) (j : Nat) (g : GSlot) : (gslotSet s j g).cache = s.cache := rfl
@[simp] theorem gslotSet_forager (s : State) (j : Nat) (g : GSlot) : (gslotSet s j g).forager = s.forager := rfl
@[simp] theorem gslotSet_sched (s : State) (j : Nat) (g : GSlot) : (gslotSet s j g).sched = s.sched := rfl
@[simp] theorem gslotSet_tiers (s : State) (j : Nat) (g : GSlot) : (gslotSet s j g).tiers = s.tiers := rfl
@[simp] theorem gslotSet_fabric (s : State) (j : Nat) (g : GSlot) : (gslotSet s j g).fabric = s.fabric := rfl
@[simp] theorem gslotSet_remote (s : State) (j : Nat) (g : GSlot) : (gslotSet s j g).remote = s.remote := rfl
@[simp] theorem gslotSet_host (s : State) (j : Nat) (g : GSlot) : (gslotSet s j g).host = s.host := rfl
@[simp] theorem gslotSet_power (s : State) (j : Nat) (g : GSlot) : (gslotSet s j g).power = s.power := rfl
@[simp] theorem gslotSet_reliab (s : State) (j : Nat) (g : GSlot) : (gslotSet s j g).reliab = s.reliab := rfl
@[simp] theorem gslotSet_sec (s : State) (j : Nat) (g : GSlot) : (gslotSet s j g).sec = s.sec := rfl
@[simp] theorem gslotSet_mgmt (s : State) (j : Nat) (g : GSlot) : (gslotSet s j g).mgmt = s.mgmt := rfl
@[simp] theorem gslotSet_boot (s : State) (j : Nat) (g : GSlot) : (gslotSet s j g).boot = s.boot := rfl
@[simp] theorem gslotSet_regs (s : State) (j : Nat) (g : GSlot) : (gslotSet s j g).regs = s.regs := rfl
@[simp] theorem gslotSet_committed (s : State) (j : Nat) (g : GSlot) : (gslotSet s j g).committed = s.committed := rfl
@[simp] theorem gslotSet_latches (s : State) (j : Nat) (g : GSlot) : (gslotSet s j g).latches = s.latches := rfl
@[simp] theorem gslotSet_freeCtr (s : State) (j : Nat) (g : GSlot) : (gslotSet s j g).freeCtr = s.freeCtr := rfl
@[simp] theorem gslotSet_tx (s : State) (j : Nat) (g : GSlot) : (gslotSet s j g).tx = s.tx := rfl
@[simp] theorem gslotSet_pending (s : State) (j : Nat) (g : GSlot) : (gslotSet s j g).pending = s.pending := rfl

/-! ## tileSet -/

@[simp] theorem tileSet_beat (s : State) (t : Nat) (x : TileSt) : (tileSet s t x).beat = s.beat := rfl
@[simp] theorem tileSet_grid (s : State) (t : Nat) (x : TileSt) : (tileSet s t x).grid = s.grid := rfl
@[simp] theorem tileSet_cache (s : State) (t : Nat) (x : TileSt) : (tileSet s t x).cache = s.cache := rfl
@[simp] theorem tileSet_forager (s : State) (t : Nat) (x : TileSt) : (tileSet s t x).forager = s.forager := rfl
@[simp] theorem tileSet_lens (s : State) (t : Nat) (x : TileSt) : (tileSet s t x).lens = s.lens := rfl
@[simp] theorem tileSet_sched (s : State) (t : Nat) (x : TileSt) : (tileSet s t x).sched = s.sched := rfl
@[simp] theorem tileSet_fabric (s : State) (t : Nat) (x : TileSt) : (tileSet s t x).fabric = s.fabric := rfl
@[simp] theorem tileSet_remote (s : State) (t : Nat) (x : TileSt) : (tileSet s t x).remote = s.remote := rfl
@[simp] theorem tileSet_host (s : State) (t : Nat) (x : TileSt) : (tileSet s t x).host = s.host := rfl
@[simp] theorem tileSet_power (s : State) (t : Nat) (x : TileSt) : (tileSet s t x).power = s.power := rfl
@[simp] theorem tileSet_reliab (s : State) (t : Nat) (x : TileSt) : (tileSet s t x).reliab = s.reliab := rfl
@[simp] theorem tileSet_sec (s : State) (t : Nat) (x : TileSt) : (tileSet s t x).sec = s.sec := rfl
@[simp] theorem tileSet_mgmt (s : State) (t : Nat) (x : TileSt) : (tileSet s t x).mgmt = s.mgmt := rfl
@[simp] theorem tileSet_boot (s : State) (t : Nat) (x : TileSt) : (tileSet s t x).boot = s.boot := rfl
@[simp] theorem tileSet_regs (s : State) (t : Nat) (x : TileSt) : (tileSet s t x).regs = s.regs := rfl
@[simp] theorem tileSet_committed (s : State) (t : Nat) (x : TileSt) : (tileSet s t x).committed = s.committed := rfl
@[simp] theorem tileSet_latches (s : State) (t : Nat) (x : TileSt) : (tileSet s t x).latches = s.latches := rfl
@[simp] theorem tileSet_freeCtr (s : State) (t : Nat) (x : TileSt) : (tileSet s t x).freeCtr = s.freeCtr := rfl
@[simp] theorem tileSet_tx (s : State) (t : Nat) (x : TileSt) : (tileSet s t x).tx = s.tx := rfl
@[simp] theorem tileSet_pending (s : State) (t : Nat) (x : TileSt) : (tileSet s t x).pending = s.pending := rfl

/-! ## lunSet -/

@[simp] theorem lunSet_beat (s : State) (l : Nat) (x : Lun) : (lunSet s l x).beat = s.beat := rfl
@[simp] theorem lunSet_grid (s : State) (l : Nat) (x : Lun) : (lunSet s l x).grid = s.grid := rfl
@[simp] theorem lunSet_cache (s : State) (l : Nat) (x : Lun) : (lunSet s l x).cache = s.cache := rfl
@[simp] theorem lunSet_forager (s : State) (l : Nat) (x : Lun) : (lunSet s l x).forager = s.forager := rfl
@[simp] theorem lunSet_lens (s : State) (l : Nat) (x : Lun) : (lunSet s l x).lens = s.lens := rfl
@[simp] theorem lunSet_sched (s : State) (l : Nat) (x : Lun) : (lunSet s l x).sched = s.sched := rfl
@[simp] theorem lunSet_fabric (s : State) (l : Nat) (x : Lun) : (lunSet s l x).fabric = s.fabric := rfl
@[simp] theorem lunSet_remote (s : State) (l : Nat) (x : Lun) : (lunSet s l x).remote = s.remote := rfl
@[simp] theorem lunSet_host (s : State) (l : Nat) (x : Lun) : (lunSet s l x).host = s.host := rfl
@[simp] theorem lunSet_power (s : State) (l : Nat) (x : Lun) : (lunSet s l x).power = s.power := rfl
@[simp] theorem lunSet_reliab (s : State) (l : Nat) (x : Lun) : (lunSet s l x).reliab = s.reliab := rfl
@[simp] theorem lunSet_sec (s : State) (l : Nat) (x : Lun) : (lunSet s l x).sec = s.sec := rfl
@[simp] theorem lunSet_mgmt (s : State) (l : Nat) (x : Lun) : (lunSet s l x).mgmt = s.mgmt := rfl
@[simp] theorem lunSet_boot (s : State) (l : Nat) (x : Lun) : (lunSet s l x).boot = s.boot := rfl
@[simp] theorem lunSet_regs (s : State) (l : Nat) (x : Lun) : (lunSet s l x).regs = s.regs := rfl
@[simp] theorem lunSet_committed (s : State) (l : Nat) (x : Lun) : (lunSet s l x).committed = s.committed := rfl
@[simp] theorem lunSet_latches (s : State) (l : Nat) (x : Lun) : (lunSet s l x).latches = s.latches := rfl
@[simp] theorem lunSet_freeCtr (s : State) (l : Nat) (x : Lun) : (lunSet s l x).freeCtr = s.freeCtr := rfl
@[simp] theorem lunSet_tx (s : State) (l : Nat) (x : Lun) : (lunSet s l x).tx = s.tx := rfl
@[simp] theorem lunSet_pending (s : State) (l : Nat) (x : Lun) : (lunSet s l x).pending = s.pending := rfl

/-! ## keepBeat -/

@[simp] theorem keepBeat_beat (s s' : State) : (keepBeat s s').beat = s.beat := rfl
@[simp] theorem keepBeat_grid (s s' : State) : (keepBeat s s').grid = s'.grid := rfl
@[simp] theorem keepBeat_cache (s s' : State) : (keepBeat s s').cache = s'.cache := rfl
@[simp] theorem keepBeat_forager (s s' : State) : (keepBeat s s').forager = s'.forager := rfl
@[simp] theorem keepBeat_lens (s s' : State) : (keepBeat s s').lens = s'.lens := rfl
@[simp] theorem keepBeat_sched (s s' : State) : (keepBeat s s').sched = s'.sched := rfl
@[simp] theorem keepBeat_tiers (s s' : State) : (keepBeat s s').tiers = s'.tiers := rfl
@[simp] theorem keepBeat_fabric (s s' : State) : (keepBeat s s').fabric = s'.fabric := rfl
@[simp] theorem keepBeat_remote (s s' : State) : (keepBeat s s').remote = s'.remote := rfl
@[simp] theorem keepBeat_host (s s' : State) : (keepBeat s s').host = s'.host := rfl
@[simp] theorem keepBeat_power (s s' : State) : (keepBeat s s').power = s'.power := rfl
@[simp] theorem keepBeat_reliab (s s' : State) : (keepBeat s s').reliab = s'.reliab := rfl
@[simp] theorem keepBeat_sec (s s' : State) : (keepBeat s s').sec = s'.sec := rfl
@[simp] theorem keepBeat_mgmt (s s' : State) : (keepBeat s s').mgmt = s'.mgmt := rfl
@[simp] theorem keepBeat_boot (s s' : State) : (keepBeat s s').boot = s'.boot := rfl
@[simp] theorem keepBeat_regs (s s' : State) : (keepBeat s s').regs = s'.regs := rfl
@[simp] theorem keepBeat_committed (s s' : State) : (keepBeat s s').committed = s'.committed := rfl
@[simp] theorem keepBeat_latches (s s' : State) : (keepBeat s s').latches = s'.latches := rfl
@[simp] theorem keepBeat_freeCtr (s s' : State) : (keepBeat s s').freeCtr = s'.freeCtr := rfl
@[simp] theorem keepBeat_tx (s s' : State) : (keepBeat s s').tx = s'.tx := rfl
@[simp] theorem keepBeat_pending (s s' : State) : (keepBeat s s').pending = s'.pending := rfl

/-! ## keepQueue -/

@[simp] theorem keepQueue_beat (s s' : State) : (keepQueue s s').beat = s'.beat := rfl
@[simp] theorem keepQueue_grid (s s' : State) : (keepQueue s s').grid = s'.grid := rfl
@[simp] theorem keepQueue_cache (s s' : State) : (keepQueue s s').cache = s'.cache := rfl
@[simp] theorem keepQueue_forager (s s' : State) : (keepQueue s s').forager = s'.forager := rfl
@[simp] theorem keepQueue_lens (s s' : State) : (keepQueue s s').lens = s'.lens := rfl
@[simp] theorem keepQueue_sched (s s' : State) : (keepQueue s s').sched = s'.sched := rfl
@[simp] theorem keepQueue_tiers (s s' : State) : (keepQueue s s').tiers = s'.tiers := rfl
@[simp] theorem keepQueue_fabric (s s' : State) : (keepQueue s s').fabric = s'.fabric := rfl
@[simp] theorem keepQueue_remote (s s' : State) : (keepQueue s s').remote = s'.remote := rfl
@[simp] theorem keepQueue_host (s s' : State) : (keepQueue s s').host = s'.host := rfl
@[simp] theorem keepQueue_power (s s' : State) : (keepQueue s s').power = s'.power := rfl
@[simp] theorem keepQueue_reliab (s s' : State) : (keepQueue s s').reliab = s'.reliab := rfl
@[simp] theorem keepQueue_sec (s s' : State) : (keepQueue s s').sec = s'.sec := rfl
@[simp] theorem keepQueue_mgmt (s s' : State) : (keepQueue s s').mgmt = s'.mgmt := rfl
@[simp] theorem keepQueue_boot (s s' : State) : (keepQueue s s').boot = s'.boot := rfl
@[simp] theorem keepQueue_regs (s s' : State) : (keepQueue s s').regs = s'.regs := rfl
@[simp] theorem keepQueue_committed (s s' : State) : (keepQueue s s').committed = s'.committed := rfl
@[simp] theorem keepQueue_latches (s s' : State) : (keepQueue s s').latches = s'.latches := rfl
@[simp] theorem keepQueue_freeCtr (s s' : State) : (keepQueue s s').freeCtr = s'.freeCtr := rfl
@[simp] theorem keepQueue_tx (s s' : State) : (keepQueue s s').tx = s'.tx := rfl
@[simp] theorem keepQueue_pending (s s' : State) : (keepQueue s s').pending = s.pending := rfl

/-! ## quiet -/

/-- With power on, `quiet` is the effect with the beat unit and the queue of before. -/
theorem quiet_powered {s s' : State} (h : Powered s) : quiet s s' = { s' with beat := s.beat, pending := s.pending } := if_neg h

/-- Without power nothing changes. -/
theorem quiet_unpowered {s s' : State} (h : s.boot.phase = 0) : quiet s s' = s := if_pos h

@[simp] theorem quiet_beat (s s' : State) : (quiet s s').beat = s.beat := by
  unfold quiet; split <;> rfl
@[simp] theorem quiet_pending (s s' : State) : (quiet s s').pending = s.pending := by
  unfold quiet; split <;> rfl
theorem quiet_grid {s s' : State} (h : Powered s) : (quiet s s').grid = s'.grid := by rw [quiet_powered h]
theorem quiet_cache {s s' : State} (h : Powered s) : (quiet s s').cache = s'.cache := by rw [quiet_powered h]
theorem quiet_forager {s s' : State} (h : Powered s) : (quiet s s').forager = s'.forager := by rw [quiet_powered h]
theorem quiet_lens {s s' : State} (h : Powered s) : (quiet s s').lens = s'.lens := by rw [quiet_powered h]
theorem quiet_sched {s s' : State} (h : Powered s) : (quiet s s').sched = s'.sched := by rw [quiet_powered h]
theorem quiet_tiers {s s' : State} (h : Powered s) : (quiet s s').tiers = s'.tiers := by rw [quiet_powered h]
theorem quiet_fabric {s s' : State} (h : Powered s) : (quiet s s').fabric = s'.fabric := by rw [quiet_powered h]
theorem quiet_remote {s s' : State} (h : Powered s) : (quiet s s').remote = s'.remote := by rw [quiet_powered h]
theorem quiet_host {s s' : State} (h : Powered s) : (quiet s s').host = s'.host := by rw [quiet_powered h]
theorem quiet_power {s s' : State} (h : Powered s) : (quiet s s').power = s'.power := by rw [quiet_powered h]
theorem quiet_reliab {s s' : State} (h : Powered s) : (quiet s s').reliab = s'.reliab := by rw [quiet_powered h]
theorem quiet_sec {s s' : State} (h : Powered s) : (quiet s s').sec = s'.sec := by rw [quiet_powered h]
theorem quiet_mgmt {s s' : State} (h : Powered s) : (quiet s s').mgmt = s'.mgmt := by rw [quiet_powered h]
theorem quiet_boot {s s' : State} (h : Powered s) : (quiet s s').boot = s'.boot := by rw [quiet_powered h]
theorem quiet_regs {s s' : State} (h : Powered s) : (quiet s s').regs = s'.regs := by rw [quiet_powered h]
theorem quiet_committed {s s' : State} (h : Powered s) : (quiet s s').committed = s'.committed := by rw [quiet_powered h]
theorem quiet_latches {s s' : State} (h : Powered s) : (quiet s s').latches = s'.latches := by rw [quiet_powered h]
theorem quiet_freeCtr {s s' : State} (h : Powered s) : (quiet s s').freeCtr = s'.freeCtr := by rw [quiet_powered h]
theorem quiet_tx {s s' : State} (h : Powered s) : (quiet s s').tx = s'.tx := by rw [quiet_powered h]

end Sys2Proof.Machine
end

