-- ==== Sys2Proof/Laws/Tab.lean ====
section
/-!
SUPPORT. Tables and byte memories: reading back what was set, leaving the other keys alone, and keeping the canonical form.
-/

namespace Sys2Proof.Machine

/-! ## Tables -/

theorem tget_tset_same {α : Type} (t : Tab α) (k : Nat) (v : α) : tget (tset t k v) k = some v := by
  induction t with
  | nil => simp [tset, tget]
  | cons e t ih =>
    obtain ⟨a, x⟩ := e
    simp only [tset]
    split
    · simp [tget]
    · split
      · simp_all [tget]
      · simp [tget, ih]; intro h; simp_all

theorem tget_tset_other {α : Type} (t : Tab α) {k j : Nat} (v : α) (h : j ≠ k) : tget (tset t k v) j = tget t j := by
  induction t with
  | nil => simp [tset, tget, Ne.symm h]
  | cons e t ih =>
    obtain ⟨a, x⟩ := e
    simp only [tset]
    split
    · simp [tget, Ne.symm h]
    · split
      · rename_i ha
        subst ha
        simp [tget, Ne.symm h]
      · simp only [tget, ih]

theorem tget_terase_other {α : Type} (t : Tab α) {k j : Nat} (h : j ≠ k) : tget (terase t k) j = tget t j := by
  induction t with
  | nil => rfl
  | cons e t ih =>
    obtain ⟨a, x⟩ := e
    simp only [terase]
    split
    · rename_i ha
      subst ha
      simp [tget, Ne.symm h]
    · simp only [tget, ih]

@[simp] theorem tgetD_tset_same {α : Type} (t : Tab α) (k : Nat) (v d : α) : tgetD (tset t k v) k d = v := by
  simp [tgetD, tget_tset_same]

theorem tgetD_tset_other {α : Type} (t : Tab α) {k j : Nat} (v d : α) (h : j ≠ k) : tgetD (tset t k v) j d = tgetD t j d := by
  simp [tgetD, tget_tset_other t v h]

theorem tgetD_tsetD_other {α : Type} [DecidableEq α] (t : Tab α) {k j : Nat} (v d : α) (h : j ≠ k) :
    tgetD (tsetD t k v d) j d = tgetD t j d := by
  unfold tsetD
  split
  · simp [tgetD, tget_terase_other t h]
  · exact tgetD_tset_other t v d h

/-- A table kept in order. -/
theorem tsorted_cons {α : Type} {a : Nat} {x : α} {t : Tab α} :
    tsorted ((a, x) :: t) = true ↔ (∀ e ∈ t, a < e.1) ∧ tsorted t = true := by
  induction t generalizing a x with
  | nil => simp [tsorted]
  | cons e t ih =>
    obtain ⟨b, y⟩ := e
    rw [show tsorted ((a, x) :: (b, y) :: t) = (decide (a < b) && tsorted ((b, y) :: t)) from rfl]
    simp only [Bool.and_eq_true, decide_eq_true_eq]
    constructor
    · rintro ⟨h1, h2⟩
      refine ⟨fun e he => ?_, h2⟩
      rcases List.mem_cons.mp he with rfl | he
      · exact h1
      · exact Nat.lt_trans h1 ((ih.mp h2).1 e he)
    · rintro ⟨h1, h2⟩
      exact ⟨h1 _ (List.mem_cons_self ..), h2⟩

theorem mem_tset {α : Type} {t : Tab α} {k : Nat} {v : α} {e : Nat × α} (h : e ∈ tset t k v) : e = (k, v) ∨ e ∈ t := by
  induction t with
  | nil => exact .inl (by simpa [tset] using h)
  | cons x t ih =>
    obtain ⟨a, y⟩ := x
    simp only [tset] at h
    split at h
    · simpa using h
    · split at h
      · rcases List.mem_cons.mp h with h | h
        · exact .inl h
        · exact .inr (List.mem_cons_of_mem _ h)
      · rcases List.mem_cons.mp h with h | h
        · exact .inr (h ▸ List.mem_cons_self ..)
        · exact (ih h).imp id (List.mem_cons_of_mem _)

theorem mem_terase {α : Type} {t : Tab α} {k : Nat} {e : Nat × α} (h : e ∈ terase t k) : e ∈ t := by
  induction t with
  | nil => exact h
  | cons x t ih =>
    obtain ⟨a, y⟩ := x
    simp only [terase] at h
    split at h
    · exact List.mem_cons_of_mem _ h
    · rcases List.mem_cons.mp h with h | h
      · exact h ▸ List.mem_cons_self ..
      · exact List.mem_cons_of_mem _ (ih h)

theorem tsorted_tset {α : Type} {t : Tab α} (k : Nat) (v : α) (h : tsorted t = true) : tsorted (tset t k v) = true := by
  induction t with
  | nil => rfl
  | cons x t ih =>
    obtain ⟨a, y⟩ := x
    obtain ⟨h1, h2⟩ := tsorted_cons.mp h
    simp only [tset]
    split
    · rename_i hk
      refine tsorted_cons.mpr ⟨fun e he => ?_, h⟩
      rcases List.mem_cons.mp he with rfl | he
      · exact hk
      · exact Nat.lt_trans hk (h1 e he)
    · split
      · rename_i hk
        subst hk
        exact tsorted_cons.mpr ⟨h1, h2⟩
      · refine tsorted_cons.mpr ⟨fun e he => ?_, ih h2⟩
        rcases mem_tset he with rfl | he
        · show a < k
          omega
        · exact h1 e he

theorem tsorted_terase {α : Type} {t : Tab α} (k : Nat) (h : tsorted t = true) : tsorted (terase t k) = true := by
  induction t with
  | nil => rfl
  | cons x t ih =>
    obtain ⟨a, y⟩ := x
    obtain ⟨h1, h2⟩ := tsorted_cons.mp h
    simp only [terase]
    split
    · exact h2
    · exact tsorted_cons.mpr ⟨fun e he => h1 e (mem_terase he), ih h2⟩

theorem tget_terase_same {α : Type} {t : Tab α} (k : Nat) (h : tsorted t = true) : tget (terase t k) k = none := by
  induction t with
  | nil => rfl
  | cons x t ih =>
    obtain ⟨a, y⟩ := x
    obtain ⟨h1, h2⟩ := tsorted_cons.mp h
    simp only [terase]
    split
    · rename_i hk
      subst hk
      clear ih h h2
      induction t with
      | nil => rfl
      | cons z t ih2 =>
        obtain ⟨b, q⟩ := z
        have hb := h1 (b, q) (List.mem_cons_self ..)
        simp only [tget]
        rw [if_neg (by simp at hb; omega)]
        exact ih2 fun e he => h1 e (List.mem_cons_of_mem _ he)
    · rename_i hk
      simp [tget, hk, ih h2]

/-! ## Byte memories -/

theorem wf_iff {m : Mem} : Memory.wf m = true ↔ tsorted m = true ∧ ∀ e ∈ m, e.2 ≠ 0 := by
  simp [Memory.wf]

/-- A read after a write to the same place gives the byte written. -/
theorem mget_mset_same {m : Mem} (a : Nat) (b : Byte) (h : Memory.wf m = true) : mget (mset m a b) a = b := by
  unfold mget mset tsetD
  split
  · rename_i hb
    simp [tgetD, tget_terase_same a (wf_iff.mp h).1, hb]
  · simp

/-- A write leaves every other place alone. -/
theorem mget_mset_other (m : Mem) {a k : Nat} (b : Byte) (h : k ≠ a) : mget (mset m a b) k = mget m k :=
  tgetD_tsetD_other m b 0 h

/-- A write keeps the canonical form. -/
theorem wf_mset {m : Mem} (a : Nat) (b : Byte) (h : Memory.wf m = true) : Memory.wf (mset m a b) = true := by
  obtain ⟨h1, h2⟩ := wf_iff.mp h
  unfold mset tsetD
  split
  · exact wf_iff.mpr ⟨tsorted_terase a h1, fun e he => h2 e (mem_terase he)⟩
  · rename_i hb
    refine wf_iff.mpr ⟨tsorted_tset a b h1, fun e he => ?_⟩
    rcases mem_tset he with rfl | he
    · exact hb
    · exact h2 e he

theorem wf_mwrite {m : Mem} (a : Nat) (bs : List Byte) (h : Memory.wf m = true) : Memory.wf (mwrite m a bs) = true := by
  induction bs generalizing m a with
  | nil => exact h
  | cons b bs ih => exact ih (a + 1) (wf_mset a b h)

theorem mget_mwrite_outside (m : Mem) {a k : Nat} (bs : List Byte) (h : k < a ∨ a + bs.length ≤ k) :
    mget (mwrite m a bs) k = mget m k := by
  induction bs generalizing m a with
  | nil => rfl
  | cons b bs ih =>
    simp only [List.length_cons] at h
    rw [mwrite, ih _ (by omega), mget_mset_other m b (by omega)]

/-- Reading back what was written. -/
theorem mread_mwrite {m : Mem} (a : Nat) (bs : List Byte) (h : Memory.wf m = true) : mread (mwrite m a bs) a bs.length = bs := by
  induction bs generalizing m a with
  | nil => rfl
  | cons b bs ih =>
    have ht := ih (a + 1) (wf_mset a b h)
    have h0 : mget (mwrite (mset m a b) (a + 1) bs) a = b := by
      rw [mget_mwrite_outside _ _ (by omega), mget_mset_same a b h]
    have hs : ∀ k, mread (mwrite (mset m a b) (a + 1) bs) a (k + 1) =
        mget (mwrite (mset m a b) (a + 1) bs) a :: mread (mwrite (mset m a b) (a + 1) bs) (a + 1) k := by
      intro k
      simp only [mread, List.range_succ_eq_map, List.map_cons, List.map_map, Nat.add_zero]
      refine congrArg _ (List.map_congr_left fun i _ => ?_)
      simp only [Function.comp]
      rw [show a + Nat.succ i = a + 1 + i by omega]
    rw [mwrite, List.length_cons, hs, h0, ht]

theorem tsorted_filter {t : Tab Byte} (p : Nat × Byte → Bool) (h : tsorted t = true) : tsorted (t.filter p) = true := by
  induction t with
  | nil => rfl
  | cons x t ih =>
    obtain ⟨a, y⟩ := x
    obtain ⟨h1, h2⟩ := tsorted_cons.mp h
    simp only [List.filter]
    split
    · exact tsorted_cons.mpr ⟨fun e he => h1 e (List.mem_filter.mp he).1, ih h2⟩
    · exact ih h2

theorem wf_mclear {m : Mem} (a n : Nat) (h : Memory.wf m = true) : Memory.wf (mclear m a n) = true := by
  obtain ⟨h1, h2⟩ := wf_iff.mp h
  exact wf_iff.mpr ⟨tsorted_filter _ h1, fun e he => h2 e (List.mem_filter.mp he).1⟩

end Sys2Proof.Machine
end

