-- ==== Sys2Proof/Laws/Registers.lean ====
section
/-!
SUPPORT. Register words, cells, workers and ports: what a set makes a get answer.
-/

namespace Sys2Proof.Machine

/-! ## Register words -/

@[simp] theorem rget_rset_same (s : State) (off v : Nat) : rget (rset s off v) off = v % 2 ^ 32 := by
  simp [rget, rset, tget_tset_same]

theorem rget_rset_other (s : State) {off o : Nat} (v : Nat) (h : o ≠ off) : rget (rset s off v) o = rget s o := by
  simp [rget, rset, tget_tset_other _ _ h]

@[simp] theorem cget_rset (s : State) (off v o : Nat) : cget (rset s off v) o = cget s o := rfl

/-! ## Cells and workers -/

@[simp] theorem cellGet_cellSet_same (s : State) (c : Nat) (x : Cell) : cellGet (cellSet s c x) c = x := by
  simp [cellGet, cellSet]

theorem cellGet_cellSet_other (s : State) {c k : Nat} (x : Cell) (h : k ≠ c) : cellGet (cellSet s c x) k = cellGet s k := by
  simp [cellGet, cellSet, tgetD_tset_other _ _ _ h]

@[simp] theorem workerGet_workerSet_same (s : State) (c w : Nat) (x : Worker) : workerGet (workerSet s c w x) c w = x := by
  simp [workerGet, workerSet]

theorem workerGet_workerSet_other (s : State) {c w k : Nat} (x : Worker) (h : k ≠ w) :
    workerGet (workerSet s c w x) c k = workerGet s c k := by
  simp [workerGet, workerSet, tgetD_tset_other _ _ _ h]

/-- Setting a worker changes one worker of one cell. -/
theorem cellGet_workerSet_other (s : State) {c w k : Nat} (x : Worker) (h : k ≠ c) : cellGet (workerSet s c w x) k = cellGet s k :=
  cellGet_cellSet_other s _ h

@[simp] theorem cellGet_workerSet_mem (s : State) (c w : Nat) (x : Worker) : (cellGet (workerSet s c w x) c).mem = (cellGet s c).mem := by
  simp [workerSet]

@[simp] theorem portGet_portPut_same (s : State) (p : Nat) (x : Port) : portGet (portPut s p x) p = x := by
  simp [portGet, portPut]

theorem portGet_portPut_other (s : State) {p k : Nat} (x : Port) (h : k ≠ p) : portGet (portPut s p x) k = portGet s k := by
  simp [portGet, portPut, tgetD_tset_other _ _ _ h]

@[simp] theorem fnGet_fnSet_same (s : State) (f : Nat) (x : Fn) : fnGet (fnSet s f x) f = x := by simp [fnGet, fnSet]

/-! ## g registers (R41) -/

@[simp] theorem gGet_zero (x : Worker) : gGet x 0 = 0 := rfl
@[simp] theorem gSet_zero (x : Worker) (v : Nat) : gSet x 0 v = x := rfl

theorem gGet_gSet_other (x : Worker) {n k : Nat} (v : Nat) (h : k ≠ n) : gGet (gSet x n v) k = gGet x k := by
  unfold gSet
  split
  · rfl
  · unfold gGet
    split
    · rfl
    · show (tgetD (tsetD x.g n (BitVec.ofNat 64 v) 0) k 0).toNat = _
      rw [tgetD_tsetD_other _ _ _ h]

theorem vGet_vSet_other (x : Worker) {n k : Nat} (v : VReg) (h : k ≠ n) : vGet (vSet x n v) k = vGet x k :=
  tgetD_tsetD_other x.v v 0 h

end Sys2Proof.Machine
end

