-- ==== Sys2Proof/Laws/Cells.lean ====
section
/-!
SUPPORT. What the shared frame of the cell instructions does: an instruction that issues has its effect on the issued state; every answer
keeps the beat unit and the queue.
-/

namespace Sys2Proof.Machine

/-- An instruction that issues has its row's effect on the issued state. -/
theorem cellInsn_issues {s : State} {c : CellId} {w : WorkerId} {win : Win} {i : Insn} {r : Row} (h : Issues s c w win i r)
    (eff : State → Issue → State) :
    cellInsn r eff s c.val w.val i = .next (quiet s (eff (issued s c w win i) (issueOf s c w win i))) := by
  have hf : ¬ win.code ≤ (workerGet s c.val w.val).pc.toNat := Nat.not_le.mpr h.fetch
  have hc := h.clean
  unfold fetchedAt at hc
  simp only [cellInsn, issueWith, h.word, h.window, h.ready, hf, hc, if_true, if_false, Bool.not_true, Bool.false_eq_true]
  rfl

/-- A cell instruction answers a next state that keeps the beat unit and the queue, or the fault of a word of another row. -/
theorem cellInsn_cases (r : Row) (eff : State → Issue → State) (s : State) (c w : Nat) (i : Insn) :
    (∃ t, cellInsn r eff s c w i = .next t ∧ t.beat = s.beat ∧ t.pending = s.pending ∧ (s.boot.phase = 0 → t = s)) ∨
    (∃ r', rowOf i = some r' ∧ r' ≠ r ∧ cellInsn r eff s c w i = .fault .wordOfAnotherRow) := by
  unfold cellInsn
  split
  · rename_i r' hr
    split
    · exact .inl ⟨_, rfl, quiet_beat .., quiet_pending .., fun h => quiet_unpowered h⟩
    · rename_i hne
      exact .inr ⟨r', hr, hne, rfl⟩
  · exact .inl ⟨_, rfl, quiet_beat .., quiet_pending .., fun h => quiet_unpowered h⟩

/-- The engine's instructions: the same, and nothing at all while the queue is full. -/
theorem matrixInsn_cases (r : Row) (eff : State → Issue → State) (s : State) (c w : Nat) (i : Insn) :
    (∃ t, matrixInsn r eff s c w i = .next t ∧ t.beat = s.beat ∧ t.pending = s.pending ∧ (s.boot.phase = 0 → t = s)) ∨
    (∃ r', rowOf i = some r' ∧ r' ≠ r ∧ matrixInsn r eff s c w i = .fault .wordOfAnotherRow) := by
  unfold matrixInsn
  split
  · exact .inl ⟨s, rfl, rfl, rfl, fun _ => rfl⟩
  · exact cellInsn_cases ..

/-- The engine's instructions with room in the queue. -/
theorem matrixInsn_issues {s : State} {c : CellId} {w : WorkerId} {win : Win} {i : Insn} {r : Row} (h : Issues s c w win i r)
    (hq : queueFull s c.val = false) (eff : State → Issue → State) :
    matrixInsn r eff s c.val w.val i = .next (quiet s (eff (issued s c w win i) (issueOf s c w win i))) := by
  simp [matrixInsn, hq, cellInsn_issues h]

end Sys2Proof.Machine
end

