-- ==== Sys2Proof/Laws/Commands.lean ====
section
/-!
SUPPORT. What the command processor does with a packet: the number it gets is fresh; refused, held, or started.
-/

namespace Sys2Proof.Machine

theorem fold_max_ge (l : List Cmd) (n : Nat) : n ≤ l.foldl (fun (n : Nat) (c : Cmd) => max n (c.id + 1)) n := by
  induction l generalizing n with
  | nil => exact Nat.le_refl n
  | cons c l ih => exact Nat.le_trans (Nat.le_max_left ..) (ih _)

/-- No command has the number that the next one gets. -/
theorem freshCmd_fresh (s : State) : ∀ c ∈ s.host.cmds, c.id < freshCmd s := by
  unfold freshCmd
  generalize s.host.nextCmd = n
  induction s.host.cmds generalizing n with
  | nil => intro c h; cases h
  | cons d l ih =>
    intro c h
    rcases List.mem_cons.mp h with rfl | h
    · exact Nat.lt_of_lt_of_le (Nat.lt_of_lt_of_le (Nat.lt_succ_self _) (Nat.le_max_right ..)) (fold_max_ge ..)
    · exact ih _ c h

/-- The command that was taken in, by its number. -/
theorem cmdGet_enterCmd (s : State) (h : CmdHdr) (op : HostOp) (phase : Nat) :
    cmdGet (enterCmd s h op phase) (freshCmd s) = some { id := freshCmd s, hdr := h, op := op, pos := freshCmd s, phase := phase, upto := s.remote.nextSeq } := by
  have hf := freshCmd_fresh s
  have : s.host.cmds.find? (fun c => c.id == freshCmd s) = none := by
    refine List.find?_eq_none.mpr fun c hc => ?_
    have := hf c hc
    simp
    omega
  show (s.host.cmds ++ _).find? _ = _
  rw [List.find?_append, this]
  simp
  rfl

/-- Starting it leaves it as it was taken in. -/
theorem cmdMod_enterCmd (s : State) (h : CmdHdr) (op : HostOp) :
    cmdMod (enterCmd s h op 2) (freshCmd s) (fun c => { c with phase := 2 }) = enterCmd s h op 2 := by
  have hf := freshCmd_fresh s
  have hm : (enterCmd s h op 2).host.cmds.map (fun c => if c.id == freshCmd s then { c with phase := 2 } else c) =
      (enterCmd s h op 2).host.cmds := by
    show (s.host.cmds ++ _).map _ = s.host.cmds ++ _
    rw [List.map_append]
    refine congr (congrArg _ ?_) ?_
    · refine (List.map_congr_left fun c hc => ?_).trans (List.map_id _)
      have := hf c hc
      rw [if_neg (by simp; omega)]
      rfl
    · simp
  unfold cmdMod
  rw [hm]

/-- A packet that may not be parsed has no effect. -/
theorem issueHostCommand_closed {s : State} {h : CmdHdr} {op : HostOp} (hf : fetchOpen s h.fn.val = false) : issueHostCommand s h op = s := by
  simp [issueHostCommand, hf]

/-- A packet that starts. -/
theorem issueHostCommand_starts {s : State} {h : CmdHdr} {op : HostOp} (hs : Starts s h op) :
    issueHostCommand s h op = settle (startOp (enterCmd s h op 2) (freshCmd s) false) := by
  obtain ⟨hf, hc, hw, hq⟩ := hs
  have : cmdWaits s { id := freshCmd s, hdr := h, op := op, pos := freshCmd s, phase := 0 } false = false := by
    unfold cmdWaits replyWaits
    refine Bool.eq_false_iff.mpr fun hh => ?_
    simp only [Bool.or_eq_true, Bool.and_eq_true, List.any_eq_true, beq_iff_eq, decide_eq_true_eq, Bool.not_false, Bool.true_and] at hh
    rcases hh with ⟨x, hx, h1, h4⟩ | ⟨h1, r, hr, h2, _⟩
    · obtain ⟨h2, h3⟩ := hw x hx h1.1.1 h1.1.2
      rcases h4 with h4 | h4
      · rw [h2] at h4; cases h4
      · exact h3 h4
    · exact hq h1 r hr h2.1 h2.2
  unfold issueHostCommand takeCommand
  rw [if_pos hf, hc]
  simp only [this, Bool.false_eq_true, if_false]

end Sys2Proof.Machine
end

