-- ==== Sys2Proof/WellFormed.lean ====
section
/-!
DEFINITION. Which commands are well formed: the shapes of their operands that a type does not enforce. An ill-formed term is no event of
the device; each check has a term that it refuses in Tests/Slice0.lean.
-/

namespace Sys2Proof

open Sys2Proof.Machine

/-- Every byte of a flash lies in its 64 MiB, and the bytes are listed in the canonical form (R416). -/
def flashWf (m : Mem) : Bool := Memory.wf m && m.all fun e => decide (e.1 < 0x4000000)

/-- What the boot sequence meets: twelve DDR5 channels, the readings of 96 monitors and 128 sensors, five rails, 14 energy
coefficients and eight weights, LUNs below 256, functions below 256 (R223, R240, R242, R298, R325, R334, R335). -/
def BootWorld.wf (w : BootWorld) : Bool :=
  flashWf w.flash && w.ddr.length == 12 && w.slacks.length == 96 && w.temps.length == 128 && w.vreq.length == 5 &&
    w.ecoef.length == 14 && w.weights.length == 8 &&
    w.nand.length == 8 && w.nand.all (fun c => tsorted c.luns && c.luns.all (fun (e : Nat × List (Nat × Nat)) => decide (e.1 < 32) && tsorted e.2)) &&
    decide (w.numVfs < 256) && w.stressFailing.all (fun c => decide (c < 1024))

/-- A packet's payload is at most 256 bytes in words of eight, and its extension is there with PROT and only then (R252, R368). -/
def Packet.wf (p : Packet) : Bool := decide (p.payload.length ≤ 256) && p.payload.length % 8 == 0 && p.ext.length == (if p.prot then 24 else 0)

/-- A cell instruction's word is the row's, or illegal (R51). -/
def wordWf (r : Row) (i : Insn) : Bool :=
  match rowOf i with
  | some r' => r' == r
  | none => true

/-- Offsets of registers are multiples of 4 (R426). -/
def offWf (off : BitVec 26) : Bool := off.toNat % 4 == 0

/-- A management frame's body has at most the bytes that LENGTH can count, and its TAG is 16 (R376). -/
def MgmtFrame.wf (f : MgmtFrame) : Bool := decide (f.body.length < 65536) && f.tag.length == 16

/-- The operands of a command have the shapes that the spec gives them. -/
def Instr.wf : Instr → Bool
  | .registerWrite _ off _ => offWf off
  | .scalarAlu _ _ i => wordWf .scalarAlu i
  | .scalarLoad _ _ i _ => wordWf .scalarLoad i
  | .scalarStore _ _ i => wordWf .scalarStore i
  | .amoadd _ _ i _ => wordWf .amoadd i
  | .amocas _ _ i _ => wordWf .amocas i
  | .branch _ _ i => wordWf .branch i
  | .jal _ _ i => wordWf .jal i
  | .jalr _ _ i => wordWf .jalr i
  | .vectorAlu _ _ i => wordWf .vectorAlu i
  | .vld _ _ i _ => wordWf .vld i
  | .vst _ _ i => wordWf .vst i
  | .vbcast _ _ i => wordWf .vbcast i
  | .vectorReduce _ _ i => wordWf .vectorReduce i
  | .vperm _ _ i => wordWf .vperm i
  | .vext _ _ i => wordWf .vext i
  | .send _ _ i => wordWf .send i
  | .recv _ _ i => wordWf .recv i
  | .probe _ _ i => wordWf .probe i
  | .dma _ _ i _ => wordWf .dma i
  | .bar _ _ i => wordWf .bar i
  | .waitc _ _ i => wordWf .waitc i
  | .nop _ _ i => wordWf .nop i
  | .sysRd _ _ i => wordWf .sysRd i
  | .halt _ _ i => wordWf .halt i
  | .semacq _ _ i => wordWf .semacq i
  | .semrel _ _ i => wordWf .semrel i
  | .semtry _ _ i => wordWf .semtry i
  | .semrd _ _ i => wordWf .semrd i
  | .critEnter _ _ i => wordWf .critEnter i
  | .critExit _ _ i => wordWf .critExit i
  | .semcancel _ _ i => wordWf .semcancel i
  | .semheld _ _ i => wordWf .semheld i
  | .mma _ _ i => wordWf .mma i.insn
  | .mlda _ _ i => wordWf .mlda i
  | .mst _ _ i => wordWf .mst i
  | .mstat _ _ i => wordWf .mstat i
  | .bar2Write _ _ bytes => decide (bytes.length ≤ 4096)
  | .bar2Read _ _ r => decide (r.len ≤ 4096)
  | .loHalfReadLatch _ r => decide (r.len ≤ 4096)
  | .codewordReceive _ w => w.corrected.length == 4
  | .credit _ counts => counts.length == 4
  | .packetForward _ p | .write _ p | .read _ p | .readResp _ p | .completion _ p | .sendPiece _ p | .flush _ p | .flushResp _ p
  | .return_ _ p => p.wf
  | .nandGarbageCollect lun | .nandRelocate lun _ _ | .nandProgramFail lun _ | .nandLunFail lun => decide (lun < 256)
  | .railRead readings _ => decide (readings.length ≤ 16)
  | .sensorRead temps => temps.length == 128
  | .marginTrim slacks => slacks.length == 96
  | .mgmtRead f | .mgmtWrite f | .telemetry f | .readAcct f | .pullEvents f => f.wf
  | .testLogicReset w | .powerOnReset _ w | .go w | .warmReset _ w | .resetNRise w => w.wf
  | _ => true

end Sys2Proof
end

