-- ==== Sys2Proof/Tests/Slice0.lean ====
section
/-!
SUPPORT. Tests: terms that WellFormed refuses, answers the spec or a published vector gives, and for every statement a state and operands
that meet the conditions of its clauses.
-/

namespace Sys2Proof.Tests

open Sys2Proof Sys2Proof.Machine

set_option maxRecDepth 100000
set_option exponentiation.threshold 600

/-! ## Small parts of states and operands -/

/-- A powered device past its start-up. -/
def up : State := { State.reset with
  boot := { State.reset.boot with phase := 7, pwrOk := true, resetN := true }
  sec := { State.reset.sec with rngOk := true } }

/-- A device with beat numbers, at beat 100. -/
def timed : State := { up with beat := { up.beat with state := .locked, count := 100 } }

/-- The common part of a packet of PF0 on ring 0 that asks for nothing. -/
def h0 : CmdHdr := {
  fn := 0
  ring := 0
  cid := 1
  fence := false
  irqNow := false
  notBefore := 0
  deadline := 0
  roleEpoch := 0
  resv := false }

/-- A NAND channel with no package. -/
def emptyNand : NandChannel := {
  fitted := false
  pageKib := 16
  blockPages := 256
  planes := 2
  enables := 1
  nvDdr3 := true
  lpddr4 := false
  luns := [] }

/-- A board with nothing on it: no tier, no flash. -/
def bare : BootWorld := {
  flash := []
  hbmTrained := 0
  ddr := List.replicate 12 ⟨none, none, false⟩
  nand := List.replicate 8 emptyNand
  seed := none
  rngOk := true
  repairs := []
  ecoef := List.replicate 14 0
  weights := List.replicate 8 0
  vreq := List.replicate 5 750
  slacks := List.replicate 96 50
  temps := List.replicate 128 40
  stressFailing := []
  stressCool := false
  msStep2 := 0
  msStep4a := 0
  msStep4b := 0
  msStep5 := 0
  numVfs := 0
  barSizes := (0, 0)
  mfgTest := false }

/-- A WRITE packet of 128 zero bytes with no check word filled in. -/
def rawPacket : Packet := {
  type := 1
  vc := 0
  ordered := false
  prot := false
  dest := 0
  src := 0
  hops := 31
  sub := 0
  tag := 0
  aux := 0
  beat := 0
  payload := List.replicate 128 0
  ext := []
  hchk := 0
  pcrc := 0
  echk := 0
  resv := false }

/-- A management frame from the I3C side. -/
def frame : MgmtFrame := {
  sgmii := false
  dst := 0
  src := 0
  ethertype := 0
  version := 0
  otherKind := none
  length := 0
  seq := 0
  boot := 0
  status := 0
  resv := 0
  body := []
  tag := List.replicate 16 0 }

/-! ## WellFormed refuses -/

theorem test_wf_accepts : Instr.wf .acquireEdgeTimeout = true ∧ Instr.wf (.go bare) = true ∧ Instr.wf (.write none rawPacket) = true ∧
    Instr.wf (.mgmtRead frame) = true := by decide
theorem test_wf_offset : Instr.wf (.registerWrite .bar0 2 ⟨[0], true⟩) = false ∧ Instr.wf (.loHalfReadLatch .bar0 ⟨0, 4097⟩) = false := by decide
/-- The word of a NOP (class 0xA, OP 0) is of no other row. -/
theorem test_wf_word : (List.map Instr.wf [Instr.scalarAlu 0 0 { word := 0xA000000000000000 }, .mstat 0 0 { word := 0xA000000000000000 }]) = [false, false] ∧
    Instr.wf (.nop 0 0 { word := 0xA000000000000000 }) = true := by decide
theorem test_wf_bar2 : Instr.wf (.bar2Write 0 0 (List.replicate 4097 0)) = false ∧ Instr.wf (.bar2Read 0 0 ⟨4097, []⟩) = false := by decide +kernel
theorem test_wf_codeword : Instr.wf (.codewordReceive 0 { seq := 0, ack := 0, decoded := true, corrected := [0, 0, 0], badLane := none }) = false := by
  decide
theorem test_wf_credit : Instr.wf (.credit 0 [1, 0, 0]) = false := by decide
theorem test_wf_payload : Instr.wf (.write none { rawPacket with payload := List.replicate 264 0 }) = false ∧
    Instr.wf (.write none { rawPacket with payload := List.replicate 12 0 }) = false ∧
    Instr.wf (.write none { rawPacket with prot := true }) = false := by decide
theorem test_wf_lun : Instr.wf (.nandLunFail 256) = false ∧ Instr.wf (.nandRelocate 300 0 .staticWear) = false := by decide
theorem test_wf_rails : Instr.wf (.railRead (List.replicate 17 { rail := 0, present := true, ack := true, millivolts := 0, milliamps := 0 }) 1000) = false := by
  decide
theorem test_wf_sensors : Instr.wf (.sensorRead (List.replicate 127 40)) = false ∧ Instr.wf (.marginTrim (List.replicate 95 50)) = false := by decide
theorem test_wf_frame : Instr.wf (.mgmtRead { frame with tag := [] }) = false ∧
    Instr.wf (.mgmtRead { frame with body := List.replicate 65536 0 }) = false := by decide +kernel
theorem test_wf_world : (List.map Instr.wf [Instr.go { bare with ddr := [] }, .go { bare with slacks := [] }, .go { bare with temps := [] },
      .go { bare with vreq := [] }, .go { bare with ecoef := [] }, .go { bare with weights := [] }, .go { bare with numVfs := 256 },
      .go { bare with stressFailing := [1024] }, .go { bare with nand := [] },
      .go { bare with nand := List.replicate 8 { emptyNand with luns := [(32, [])] } }, .go { bare with flash := [(0, 0)] },
      .go { bare with flash := [(0x4000000, 1)] }]) = List.replicate 12 false := by decide

/-! ## Cells -/

/-- A cell instruction word from its fields (R50): register form and immediate form. -/
def wordR (cls op d a b c w : Nat) : Insn :=
  { word := BitVec.ofNat 64 (cls * 2 ^ 60 + op * 2 ^ 54 + d * 2 ^ 48 + a * 2 ^ 42 + b * 2 ^ 36 + c * 2 ^ 30 + w * 2 ^ 28) }
def wordI (cls op d a w imm : Nat) : Insn :=
  { word := BitVec.ofNat 64 (cls * 2 ^ 60 + (op + 32) * 2 ^ 54 + d * 2 ^ 48 + a * 2 ^ 42 + w * 2 ^ 40 + imm) }

/-- Context 1's window on cell 0: 12,288 bytes from 4,096, 4,096 of them code, all workers, the engine. -/
def win0 : Win := {
  ctx := 1
  rs := 0
  base := 4096
  size := 12288
  code := 4096
  workers := 0xFFFF
  engine := true }

def ctx1 : Ctx := {
  state := .resident
  client := 1
  cls := 0
  prio := 0
  prot := false
  base := 0
  size := 0x8000
  rs := some 0 }

/-- Worker 0 of cell 0 is READY at offset 0 with these g registers; the rest of the cell is as given. -/
def onCell (g : Tab DWord) (cell : Cell) : State := { up with
  power := { up.power with ready := BitVec.ofNat 50 (2 ^ 50 - 1), on := BitVec.ofNat 50 (2 ^ 50 - 1) }
  sched := { up.sched with ctxs := [(1, ctx1)] }
  grid := { up.grid with cells := [(0, { cell with windows := [win0], workers := [(0, { g := g, state := .ready })] })] } }

theorem issues_of {s : State} {c : CellId} {w : WorkerId} {win : Win} {i : Insn} {r : Row}
    (h : s.boot.phase ≠ 0 ∧ rowOf i = some r ∧ winOf s c.val w.val = some win ∧ canIssue s c.val w.val = true ∧
      (workerGet s c.val w.val).pc.toNat < win.code ∧
      cellPoisoned (fetchedAt s c w win i) c.val (lineOf (win.base + (workerGet s c.val w.val).pc.toNat)) = false) : Issues s c w win i r :=
  ⟨h.1, h.2.1, h.2.2.1, h.2.2.2.1, h.2.2.2.2.1, h.2.2.2.2.2⟩

/-- A word issues on worker 0 of cell 0 in context 1's window; the state its effect starts from, and a g register there. -/
abbrev Goes (s : State) (i : Insn) (r : Row) : Prop := Issues s 0 0 win0 i r
abbrev went (s : State) (i : Insn) : State := issued s 0 0 win0 i
def gAt (s : State) (i : Insn) (n : Nat) : Nat := (issueOf s 0 0 win0 i).g (went s i) n

/-- A plain cell, and one whose g1 is CODE, g2 is 12,224 (the window's last line) and g3 is 12,280 (its last word). -/
def plain : State := onCell [] {}
def loaded : State := onCell [(1, 4096), (2, 12224), (3, 12280)] {}

theorem witness_ScalarInstructions :
    Goes plain (wordR 0 0 1 2 3 0 0) .scalarAlu ∧ Goes plain (wordI 0 15 63 63 0 0xFFFFFFFF) .scalarAlu ∧
    Goes plain (wordI 2 0 0 0 0 1) .branch ∧ Goes plain (wordR 2 6 63 0 1 0 0) .jal ∧ Goes plain (wordI 2 7 1 2 0 0) .jalr :=
  ⟨issues_of (by decide), issues_of (by decide), issues_of (by decide), issues_of (by decide), issues_of (by decide)⟩

/-- A word fetched from a line with a correctable error issues as well; one on a poisoned line does not. -/
theorem test_fetch_corrected : Goes plain { wordR 0 0 1 2 3 0 0 with fetch := .corrected } .scalarAlu ∧
    cellPoisoned (fetchedAt plain 0 0 win0 { wordR 0 0 1 2 3 0 0 with fetch := .uncorrectable }) 0 (lineOf 4096) = true :=
  ⟨issues_of (by decide), by decide⟩

/-- The last word and the last line of the window, and the first above CODE. -/
theorem witness_LocalLoadsAndStores :
    (Goes loaded (wordI 1 3 4 3 0 0) .scalarLoad ∧ accessFault win0 12280 8 false = none ∧ gAt loaded (wordI 1 3 4 3 0 0) 3 = 12280 ∧
      cellPoisoned (cellEcc (went loaded (wordI 1 3 4 3 0 0)) 0 (lineOf (4096 + 12280)) .corrected) 0 (lineOf (4096 + 12280)) = false) ∧
    (Goes loaded (wordI 1 10 4 1 0 0) .scalarStore ∧ accessFault win0 4096 8 true = none) ∧
    (Goes loaded (wordI 4 0 31 2 0 0) .vld ∧ accessFault win0 12224 64 false = none ∧
      cellPoisoned (cellEcc (went loaded (wordI 4 0 31 2 0 0)) 0 (lineOf (4096 + 12224)) .clean) 0 (lineOf (4096 + 12224)) = false) ∧
    (Goes loaded (wordI 4 1 31 1 0 0) .vst ∧ accessFault win0 4096 64 true = none) :=
  ⟨⟨issues_of (by decide), by decide⟩, ⟨issues_of (by decide), by decide⟩, ⟨issues_of (by decide), by decide⟩, issues_of (by decide), by decide⟩

theorem witness_AtomicInstructions :
    accessFault win0 4096 8 true = none ∧
    (cellPoisoned (cellEcc (went loaded (wordI 1 11 4 1 0 0)) 0 (lineOf (4096 + 4096)) .clean) 0 (lineOf (4096 + 4096)) = false ∧
      Goes loaded (wordI 1 11 4 1 0 0) .amoadd) ∧
    (cellPoisoned (cellEcc (went loaded (wordI 1 12 4 1 0 0)) 0 (lineOf (4096 + 4096)) .clean) 0 (lineOf (4096 + 4096)) = false ∧
      Goes loaded (wordI 1 12 4 1 0 0) .amocas) :=
  ⟨by decide, ⟨by decide, issues_of (by decide)⟩, by decide, issues_of (by decide)⟩

/-- Lanes of 32 bits throughout; v31 is the last register of every field. -/
theorem witness_VectorInstructions :
    (Goes plain (wordR 3 0x12 31 31 0 0 2) .vectorAlu ∧ iOpNum (wordR 3 0x12 31 31 0 0 2) = 0x12) ∧
    (Goes plain (wordR 3 0x13 31 31 0 0 1) .vectorAlu ∧ iOpNum (wordR 3 0x13 31 31 0 0 1) = 0x13) ∧
    (Goes plain (wordR 3 0 31 31 31 0 3) .vectorAlu ∧ iOpNum (wordR 3 0 31 31 31 0 3) ≠ 0x12 ∧ iOpNum (wordR 3 0 31 31 31 0 3) ≠ 0x13) ∧
    Goes plain (wordR 4 2 31 63 0 0 0) .vbcast ∧ Goes plain (wordR 5 0 31 31 0 0 2) .vectorReduce ∧
    Goes plain (wordR 5 2 31 31 31 0 0) .vperm ∧ Goes plain (wordI 5 3 63 31 1 31) .vext :=
  ⟨⟨issues_of (by decide), by decide⟩, ⟨issues_of (by decide), by decide⟩, ⟨issues_of (by decide), by decide⟩, issues_of (by decide),
    issues_of (by decide), issues_of (by decide), issues_of (by decide)⟩

def port0 : SendPort := { ctx := 1, dstCell := 0, channel := 31, credits := 1 }
def chan0 : Channel := { ctx := 1, srcCell := 0, srcPort := 31 }
def msg0 : Msg := { srcCell := 0, port := 31, dstCell := 0, channel := 31, ctx := 1, data := 7 }

/-- A cell whose port 31 is bound to its own channel 31. -/
def talking (p : SendPort) (c : Channel) : State := onCell [] { ports := [(31, p)], chans := [(31, c)] }
def arriving (c : Channel) : State := { talking port0 c with grid := { (talking port0 c).grid with msgs := [msg0] } }
def crediting (p : SendPort) : State := { talking p chan0 with grid := { (talking p chan0).grid with credits := [(0, 31)] } }

theorem witness_Messages :
    (Goes (talking port0 chan0) (wordI 7 0 0 31 0 31) .send ∧
      tget (cellGet (went (talking port0 chan0) (wordI 7 0 0 31 0 31)) 0).ports 31 = some port0 ∧
      cellOn (went (talking port0 chan0) (wordI 7 0 0 31 0 31)) 0 = true) ∧
    (Goes (talking port0 { chan0 with queue := [5] }) (wordI 7 1 31 0 0 31) .recv ∧
      tget (cellGet (went (talking port0 { chan0 with queue := [5] }) (wordI 7 1 31 0 0 31)) 0).chans 31 = some { chan0 with queue := 5 :: [] }) ∧
    Goes (talking port0 chan0) (wordI 7 1 31 0 0 31) .recv ∧ Goes (talking port0 chan0) (wordI 7 2 63 0 0 31) .probe ∧
    (nextOnPath (arriving chan0) 0 31 = some msg0 ∧ tget (cellGet (arriving chan0) 0).chans 31 = some chan0) ∧
    (nextOnPath (arriving { chan0 with waiters := [(3, 4)] }) 0 31 = some msg0 ∧
      tget (cellGet (arriving { chan0 with waiters := [(3, 4)] }) 0).chans 31 = some { chan0 with waiters := (3, 4) :: [] }) ∧
    ((crediting port0).grid.credits.contains (0, 31) = true ∧ tget (cellGet (crediting port0) 0).ports 31 = some port0) ∧
    tget (cellGet (crediting { port0 with waiters := [(3, 4)] }) 0).ports 31 = some { port0 with waiters := (3, 4) :: [] } :=
  ⟨⟨issues_of (by decide), by decide⟩, ⟨issues_of (by decide), by decide⟩, issues_of (by decide), issues_of (by decide),
    by decide, by decide, by decide, by decide⟩

def barrier255 : Barrier := { ctx := 1, expected := 1 }
def barred (b : Barrier) : State := { plain with grid := { plain.grid with barriers := [(255, b)] } }

theorem witness_WaitsAndSystemValues :
    (Goes (barred barrier255) (wordI 9 0 0 0 0 255) .bar ∧
      tget (went (barred barrier255) (wordI 9 0 0 0 0 255)).grid.barriers 255 = some barrier255) ∧
    Goes plain (wordI 9 1 3 0 0 0) .waitc ∧ Goes plain (wordR 10 0 0 0 0 0 0) .nop ∧ Goes plain (wordI 10 1 0 0 0 0) .halt ∧
    (tget (barred { barrier255 with arrivals := 1, waiting := [(0, 0)] }).grid.barriers 255 =
      some { barrier255 with arrivals := 1, waiting := [(0, 0)] } ∧ barrier255.expected ≤ 1) ∧
    (Goes plain (wordI 10 0 1 0 0 9) .sysRd ∧
      ∀ n ∈ [0, 1, 2, 3, 4, 5, 6, 7, 8, 9], rowOf (wordI 10 0 1 0 0 n) = some .sysRd ∧ iImm (wordI 10 0 1 0 0 n) = n) :=
  ⟨⟨issues_of (by decide), by decide⟩, issues_of (by decide), issues_of (by decide), issues_of (by decide), by decide, issues_of (by decide), by decide⟩

/-- Semaphore 1,023 is LIVE for client 1 with `n` units; context 1 holds `k`. -/
def semState (n k : Nat) (g : Tab DWord) : State := { onCell g {} with
  sched := { (onCell g {}).sched with sems := [(1023, { client := 1, count := n, held := if k = 0 then [] else [(1, k)] })] } }
def critical (k : Nat) : State := { plain with
  grid := { plain.grid with cells := [(0, { windows := [win0], workers := [(0, { state := .ready, crit := k })] })] } }

theorem witness_SemaphoresAndCriticalSections :
    (Goes (semState 1 3 [(1, 65535)]) (wordI 9 16 3 1 0 1023) .semacq ∧ gAt (semState 1 3 [(1, 65535)]) (wordI 9 16 3 1 0 1023) 1 = 65535 ∧
      semOf (went (semState 1 3 [(1, 65535)]) (wordI 9 16 3 1 0 1023)) 1023 = some { client := 1, count := 1, held := [(1, 3)] } ∧
      ctxClient (went (semState 1 3 [(1, 65535)]) (wordI 9 16 3 1 0 1023)) 1 = 1) ∧
    (Goes (semState 1 3 [(1, 3)]) (wordI 9 17 0 1 0 1023) .semrel ∧ gAt (semState 1 3 [(1, 3)]) (wordI 9 17 0 1 0 1023) 1 = 3) ∧
    Goes (semState 1 3 []) (wordI 9 18 1 0 0 1023) .semtry ∧ Goes (semState 1 3 []) (wordI 9 19 1 0 0 1023) .semrd ∧
    Goes (semState 1 3 []) (wordI 9 22 1 0 0 1023) .semcancel ∧ Goes (semState 1 3 []) (wordI 9 23 1 0 0 1023) .semheld ∧
    (Goes (critical 254) (wordI 9 20 0 0 0 0) .critEnter ∧ (workerGet (went (critical 254) (wordI 9 20 0 0 0 0)) 0 0).crit < 255) ∧
    (Goes (critical 255) (wordI 9 20 0 0 0 0) .critEnter ∧ 255 ≤ (workerGet (went (critical 255) (wordI 9 20 0 0 0 0)) 0 0).crit) ∧
    (Goes (critical 1) (wordI 9 21 0 0 0 0) .critExit ∧ 0 < (workerGet (went (critical 1) (wordI 9 21 0 0 0 0)) 0 0).crit) ∧
    (Goes (critical 0) (wordI 9 21 0 0 0 0) .critExit ∧ (workerGet (went (critical 0) (wordI 9 21 0 0 0 0)) 0 0).crit = 0) :=
  ⟨⟨issues_of (by decide), by decide⟩, ⟨issues_of (by decide), by decide⟩, issues_of (by decide), issues_of (by decide),
    issues_of (by decide), issues_of (by decide), ⟨issues_of (by decide), by decide⟩, ⟨issues_of (by decide), by decide⟩,
    ⟨issues_of (by decide), by decide⟩, ⟨issues_of (by decide), by decide⟩⟩

theorem witness_RegisterFrame :
    (Goes plain (wordR 0 0 0 1 2 0 0) .scalarAlu ∧ (wordR 0 0 0 1 2 0 0).fetch = .clean ∧
      (∃ t, exec (.scalarAlu 0 0 (wordR 0 0 0 1 2 0 0)) plain = .next t) ∧ iD (wordR 0 0 0 1 2 0 0) = 0) ∧
    (Goes plain (wordR 3 0 31 0 1 0 0) .vectorAlu ∧ (∃ t, exec (.vectorAlu 0 0 (wordR 3 0 31 0 1 0 0)) plain = .next t)) ∧
    (Goes plain (wordR 10 0 0 0 0 0 0) .nop ∧ (∃ t, exec (.nop 0 0 (wordR 10 0 0 0 0 0 0)) plain = .next t)) :=
  ⟨⟨issues_of (by decide), rfl, ⟨_, rfl⟩, by decide⟩, ⟨issues_of (by decide), ⟨_, rfl⟩⟩, issues_of (by decide), ⟨_, rfl⟩⟩

theorem witness_StoreFrame :
    (Goes loaded (wordI 1 10 4 1 0 0) .scalarStore ∧
      accessFault win0 4096 (leBytes (accessBytes (iOp (wordI 1 10 4 1 0 0))) 5).length true = none) ∧
    (Goes loaded (wordI 4 1 31 2 0 0) .vst ∧ accessFault win0 12224 (vregBytes 0).length true = none) ∧ Memory.wf (cellGet loaded 0).mem = true :=
  ⟨⟨issues_of (by decide), by decide⟩, ⟨issues_of (by decide), by decide⟩, by decide⟩

/-- The worker's PC is CODE. -/
def pastCode : State := { plain with
  grid := { plain.grid with cells := [(0, { windows := [win0], workers := [(0, { state := .ready, pc := 4096 })] })] } }

theorem witness_WorkerFaults :
    (winOf plain 0 0 = some win0 ∧ canIssue plain 0 0 = true ∧ up.boot.phase ≠ 0) ∧
    (winOf pastCode 0 0 = some win0 ∧ canIssue pastCode 0 0 = true ∧ win0.code ≤ (workerGet pastCode 0 0).pc.toNat ∧
      rowOf (wordR 10 0 0 0 0 0 0) = some .nop) ∧
    cellPoisoned (fetchedAt plain 0 0 win0 { wordR 10 0 0 0 0 0 0 with fetch := .uncorrectable }) 0 (lineOf 4096) = true ∧
    (cellPoisoned (fetchedAt plain 0 0 win0 { word := 0xF000000000000000 }) 0 (lineOf 4096) = false ∧ rowOf { word := 0xF000000000000000 } = none) ∧
    (Goes loaded (wordI 1 3 4 1 0 4) .scalarLoad ∧ (4096 + 4) % accessBytes (iOp (wordI 1 3 4 1 0 4)) ≠ 0) ∧
    (Goes loaded (wordI 1 10 4 1 0 4) .scalarStore ∧ (4096 + 4) % accessBytes (iOp (wordI 1 10 4 1 0 4)) ≠ 0) ∧
    Goes loaded (wordI 4 0 4 1 0 8) .vld ∧ Goes loaded (wordI 4 1 4 1 0 8) .vst ∧
    (Goes loaded (wordI 1 3 4 3 0 8) .scalarLoad ∧ (12280 + 8) % 8 = 0 ∧ win0.size < 12280 + 8 + accessBytes (iOp (wordI 1 3 4 3 0 8))) ∧
    (Goes loaded (wordI 1 10 4 0 0 56) .scalarStore ∧ 56 % accessBytes (iOp (wordI 1 10 4 0 0 56)) = 0 ∧ 56 < win0.code) :=
  ⟨by decide, by decide, by decide, by decide, ⟨issues_of (by decide), by decide⟩, ⟨issues_of (by decide), by decide⟩, issues_of (by decide),
    issues_of (by decide), ⟨issues_of (by decide), by decide⟩, ⟨issues_of (by decide), by decide⟩⟩

/-! ## Engines, DMA, cache and lens -/

/-- MMA of one k-block of 64 rows from zero, FP8 by FP8. -/
def mode0 : Nat := 2 ^ 9 + 63 * 2 ^ 16 + 2 ^ 32
def engineOn (e : Engine) : State := onCell [(1, 4096), (2, BitVec.ofNat 64 mode0)] { engine := e }
def tile2 : Engine := { tiles := [(0, { rows := 2 })], cold := false }
def op0 (i : MatInsn) : MatOp := { worker := 0, ctx := 1, cen := true, ctr := 3, insn := i }
def mma0 : MatOp := op0 (.mma 0 0 4096 (BitVec.ofNat 64 mode0) none none [])
def mlda0 : MatOp := op0 (.mlda 1 4096 64 8 false 64)
def mst0 : MatOp := op0 (.mst 0 4096 0 64 2)

/-- A compressed FP8 stream, its descriptor all zero: no codebook slot holds version 0, so it is refused. -/
def modeC : Nat := mode0 + 2 ^ 8
def compressed : State := onCell [(1, 4096), (2, BitVec.ofNat 64 modeC)] { engine := tile2 }
def mmaWord : Insn := wordR 6 0 0 1 2 0 0
def packed (s : State) : State := cellEcc (went s mmaWord) 0 (lineOf (4096 + 4096)) .clean

/-- Where an MMA's row operand, its rows and blocks are legal; its last address is WINSIZE. -/
theorem witness_MatrixInstructions :
    (win0.engine = true ∧ queueFull (engineOn tile2) 0 = false ∧ 4096 % 64 = 0 ∧
      queueFull (engineOn { tile2 with queue := List.replicate 16 mma0 }) 0 = true ∧ Goes (engineOn { tile2 with queue := List.replicate 16 mma0 }) mmaWord .mma) ∧
    (Goes (engineOn tile2) mmaWord .mma ∧ gAt (engineOn tile2) mmaWord 2 = mode0 ∧ mResvOk mode0 = true ∧
      mAfmt mode0 < 7 ∧ mBfmt mode0 < 7 ∧ pairOk (mAfmt mode0) (mBfmt mode0) = true ∧ 0 < mNk mode0 ∧ mKoff mode0 + mNk mode0 ≤ 8 ∧
      mZero mode0 = true ∧ mBcomp mode0 = false ∧ 4096 + mNk mode0 * bBlockBytes (mBfmt mode0) ≤ win0.size) ∧
    (Goes compressed mmaWord .mma ∧ mResvOk modeC = true ∧ mBfmt modeC < 7 ∧ pairOk (mAfmt modeC) (mBfmt modeC) = true ∧ mBcomp modeC = true ∧
      (mBfmt modeC = 0 ∨ mBfmt modeC = 1 ∨ mBfmt modeC = 3) ∧
      (checkCbDesc (packed compressed) 0 win0 (ctxProt (packed compressed) 1) (cellPoisoned (packed compressed) 0 (lineOf (4096 + 4096))) (mBfmt modeC)
        (mNk modeC) (parseCbDesc (cellRead (packed compressed) 0 (4096 + 4096) 64))).isLeft = true) ∧
    (Goes (engineOn tile2) (wordI 6 0 0 1 0 (63 + 7 * 64 + 2 ^ 16)) .mlda ∧ 4096 + rowsSpan 64 64 (32 * 8 + 0) ≤ win0.size) ∧
    (Goes (engineOn tile2) (wordI 6 1 0 1 0 (2 ^ 16)) .mst ∧ futureTile (engGet (went (engineOn tile2) (wordI 6 1 0 1 0 (2 ^ 16))) 0) 0 = (false, 2) ∧
      win0.code ≤ 4096 ∧ 4096 + rowsSpan 2 64 (64 * outBytes 0) ≤ win0.size) ∧
    Goes (engineOn tile2) (wordR 6 1 63 0 0 0 0) .mstat :=
  ⟨⟨by decide, by decide, by decide, by decide, issues_of (by decide)⟩, ⟨issues_of (by decide), by decide⟩, ⟨issues_of (by decide), by decide⟩,
    ⟨issues_of (by decide), by decide⟩, ⟨issues_of (by decide), by decide⟩, issues_of (by decide)⟩

theorem witness_EngineEvents :
    (takeMat isMma [] [mma0] = some (mma0, []) ∧ winOfCtx (engineOn { tile2 with queue := [mma0] }) 0 1 = some win0 ∧
      engineHeld (engineOn { tile2 with queue := [mma0] }) 0 = false ∧ (engGet (engineOn { tile2 with queue := [mma0] }) 0).cold = false) ∧
    takeMat isMlda [] [mma0, mlda0] = some (mlda0, [mma0]) ∧ takeMat isMst [] [mst0] = some (mst0, []) ∧
    ((engGet (engineOn { queue := [mma0] }) 0).cold = true ∧ ([mma0].any fun op => isMma op.insn) = true ∧ 0 % 128 = 4 * (0 % 32)) := by
  decide

def dma0 : DmaOp := {
  id := 1
  worker := 0
  ctx := 1
  desc := 64
  src := 4096
  dst := 4224
  len := 64
  srcSpace := 0
  dstSpace := 0
  ctr := 0
  fence := false
  key := 0
  started := false }

/-- To node 5, and one that has started within the cell. -/
def dmaAway : DmaOp := { dma0 with dstSpace := 3, dst := 5 * 2 ^ 50, len := 128, src := 128, key := 1 }
def dmaRuns : DmaOp := { dma0 with started := true, srcAt := (0, 4160), dstAt := (0, 4224) }

def transferring (ds : List DmaOp) : State := { onCell [(1, 64)] { dma := ds } with
  grid := { (onCell [(1, 64)] { dma := ds }).grid with nextDma := 34 } }

/-- A DMA word whose descriptor lies at offset 64, and the state in which it takes the descriptor. -/
def dmaWord : Insn := wordI 8 0 0 1 0 0
def taking (ds : List DmaOp) : State := cellEcc (went (transferring ds) dmaWord) 0 (lineOf (4096 + 64)) .clean

theorem witness_DmaTransfers :
    (Goes (transferring []) dmaWord .dma ∧ accessFault win0 64 64 false = none ∧ cellPoisoned (taking []) 0 (lineOf (4096 + 64)) = false ∧
      (takeDma (taking []) 0 0 win0 64).2 = none) ∧
    (Goes (transferring ((List.range 32).map fun n => { dma0 with id := n })) dmaWord .dma ∧
      (takeDma (taking ((List.range 32).map fun n => { dma0 with id := n })) 0 0 win0 64).2 = some 34) ∧
    (dmaOf (transferring [{ dma0 with len := 0 }]) 0 1 = some { dma0 with len := 0 } ∧
      dmaMayStart (transferring [{ dma0 with len := 0 }]) 0 { dma0 with len := 0 } = true ∧
      checkDma (transferring [{ dma0 with len := 0 }]) 0 { dma0 with len := 0 } = .inl stOkNoop) ∧
    (dmaOf (transferring [dma0]) 0 1 = some dma0 ∧ dmaMayStart (transferring [dma0]) 0 dma0 = true ∧
      checkDma (transferring [dma0]) 0 dma0 = .inr ((0, 4096 + 4096), (0, 4096 + 4224))) ∧
    (dmaMayStart (transferring [dmaAway]) 0 dmaAway = true ∧
      checkDma (transferring [dmaAway]) 0 dmaAway = .inr ((0, 4096 + 128), (0, 5 * 2 ^ 50)) ∧
      ownNodeStatus (transferring [dmaAway]) dmaAway = none) ∧
    (dmaOf (transferring [dmaRuns]) 0 1 = some dmaRuns ∧ dmaToLens (transferring [dmaRuns]) dmaRuns = false) :=
  ⟨⟨issues_of (by decide), by decide, by decide, by decide⟩, ⟨issues_of (by decide +kernel), by decide +kernel⟩, by decide, by decide, by decide, by decide⟩

def layout0 : Layout := {
  split := 0
  n := 1
  member := 0
  layers := 1
  hq := 1
  hkv := 1
  hg := 1
  dh := 16
  kfmt := 0
  vfmt := 0
  kver := 1
  vver := 1
  fpt := 1
  plain := false
  maxpos := 4096 }

/-- A schedule image of one cell and no entries. -/
def image0 : ScheduleImage := {
  job := 1
  node := 0
  period := 0
  frame := 1
  jobSize := 1
  hkey := 0
  modelDigest := 0
  peers := []
  main := layout0
  prot := none
  slots := [{ cells := [{ cell := 0, base := 4096, size := 12288, code := 4096, workers := 0xFFFF, engine := true }], credits := [0, 0, 0, 0, 0, 0] }]
  classes := [1]
  barriers := []
  bindings := []
  code := []
  entries := []
  split := { nlev := 1, start := 0, wg := 1, wp := 1, up := [65535], down := [0] }
  resv := false }

/-- A request of context 1 in the middle of its generation, and the step that runs for it. -/
def handle0 : DWord := 0x0001000000000001
def desc0 : Desc := {
  handle := handle0
  state := .active
  client := 1
  ctx := 1
  epoch := 1
  clen := 70
  clenh := 70
  plen := 70
  maxlen := 100
  map := 0x1000
  tbuf := 0x2000
  sample := 0x4000
  setup := List.replicate 64 0 }
def step0 : Step := {
  handle := handle0
  ctx := 1
  gen := true
  start := 0
  deadline := 8
  clen := 70
  e := 71
  draftSlots := 1
  att := [] }

/-- The bytes of a lens request of a kind for row `rows` and result at CODE. -/
def reqBytes (kind j : Nat) : VReg :=
  BitVec.ofNat 512 (handle0.toNat + kind * 2 ^ 64 + j * 2 ^ 72 + 0x6000 * 2 ^ 128 + 4096 * 2 ^ 224)
def lensReq (kind j : Nat) : LensReq := { bytes := reqBytes kind j, client := 1, ctx := 1 }

/-- The job of image 0 runs from beat 64; a tiered range of 4 tiles; the lens is on with a vocabulary of one token. -/
def serving (x : Step) (d : Desc) (q : List LensReq) : State := { plain with
  beat := { plain.beat with state := .locked, count := 100 }
  sched := { plain.sched with image := some (image0, 0), job := .started 64, steps := [x] }
  forager := { plain.forager with descs := [d] }
  lens := { plain.lens with vocab := 1, narrow := 1, queue := q }
  tiers := { plain.tiers with total := 4 } }

def stage0 : Stage := { handle := handle0, layer := 0, due := 8, items := [] }
def coll0 : Coll := { id := 3, ctx := 1, lse := false, dh := 0, due := 8, src := ⟨0, 4096, 16⟩, dst := ⟨0, 4224, 16⟩, own := List.replicate 16 1 }
def staging : State := { serving step0 desc0 [] with cache := { up.cache with stages := [stage0], colls := [coll0] } }

theorem witness_CellAndCacheEvents :
    (up.boot.phase ≠ 0 ∧ cfld { up with committed := [(rClCfg, 1)] } rClCfg 3 0 ≠ 0) ∧
    (staging.cache.stages.find? (fun (x : Stage) => x.handle == handle0 && x.layer == 0) = some stage0 ∧
      descOf staging handle0 = some desc0 ∧ stepOf staging handle0 = some step0 ∧ descLayout staging desc0 = some layout0) ∧
    (staging.cache.colls.find? (fun c => c.id == 3) = some coll0 ∧ winOfCtx staging 0 1 = some win0) := by decide +kernel

def dmaLens : DmaOp := { dma0 with started := true, dstSpace := 2, dst := 4 * tileSize, srcAt := (0, 4160), dstAt := (0, 4 * tileSize) }
def handing : State := { serving step0 desc0 [] with grid := (transferring [dmaLens]).grid }
def drafting : State := serving step0 desc0 [lensReq 0 1]
def verifying : State := serving step0 desc0 [lensReq 1 1]
def step1 : Step := { step0 with gen := false }
def desc1 : Desc := { desc0 with clen := 0 }
def firsting : State := serving step1 desc1 [lensReq 2 0]

/-- The lens meets no upset and no finding. -/
def meets0 : LensMeets := ⟨[], []⟩
def askOf (kind j : Nat) : Req := parseReq (lensReq kind j)

theorem witness_LensSampling :
    (dmaOf handing 0 1 = some dmaLens ∧ dmaToLens handing dmaLens = true ∧ lensOn handing = true ∧ handing.lens.queue.length < 4096) ∧
    (headReq drafting 0 = some (askOf 0 1) ∧ stepOf drafting (askOf 0 1).handle = some step0 ∧ step0.recompute = false ∧
      reqStatus (popReq drafting) (askOf 0 1) = stOk ∧ descOf (popReq drafting) (askOf 0 1).handle = some desc0 ∧
      (sampleAt (popReq drafting) (askOf 0 1) desc0 0 (70 + 1) (sbGet (popReq drafting) desc0 64 4) meets0).2 = .inr 0) ∧
    (headReq verifying 1 = some (askOf 1 1) ∧ stepOf verifying (askOf 1 1).handle = some step0 ∧ reqStatus (popReq verifying) (askOf 1 1) = stOk ∧
      descOf (popReq verifying) (askOf 1 1).handle = some desc0 ∧ discarded (popReq verifying) (askOf 1 1) = false ∧
      (verifyLoop meets0 (askOf 1 1) desc0 step0 (remaining (popReq verifying) desc0) 1 (popReq verifying) 0
        (sbGet (popReq verifying) desc0 64 4) []).2 = .inr ([0], 0)) ∧
    (headReq firsting 2 = some (askOf 2 0) ∧ stepOf firsting (askOf 2 0).handle = some step1 ∧ step1.recompute = false ∧
      reqStatus (popReq firsting) (askOf 2 0) = stOk ∧ descOf (popReq firsting) (askOf 2 0).handle = some desc1 ∧
      (sampleAt (popReq firsting) (askOf 2 0) desc1 0 70 (sbGet (popReq firsting) desc1 64 4) meets0).2 = .inr 0) := by
  decide +kernel

/-- Context 1 on its way out of slot 0, or into it. -/
def swapping (x : Ctx) : State := { serving step0 desc0 [] with sched := { (serving step0 desc0 []).sched with ctxs := [(1, x)] } }
def leavingCtx : Ctx := { ctx1 with state := .swappingOut }
def drainedCtx : Ctx := { leavingCtx with drained := true }
def freshCtx : Ctx := { ctx1 with state := .swappingIn }
def rec0 : SwapRec := { rs := 0, cells := [], barriers := [], finished := [], discarded := [], sems := [] }
def savedCtx : Ctx := { freshCtx with record := some rec0 }
/-- Its record's tile holds a poisoned line. -/
def lostCtx : Ctx := { savedCtx with swapRuns := [(0, 1)] }
def losing : State := { swapping lostCtx with tiers := { (swapping lostCtx).tiers with poison := [511] } }
def lensBusy : State := { serving step0 desc0 [] with
  lens := { up.lens with slots := [(7, { state := .loading })], on := BitVec.ofNat 64 (2 ^ 63) } }

theorem witness_LensUpkeepAndSwaps :
    ((gslotOf lensBusy 7).state = .loading ∧ lensBusy.lens.on.getLsbD 63 = true) ∧
    cfld { up with committed := [(rLnCfg, 1)] } rLnCfg 0 0 ≠ 0 ∧
    (ctxOf (swapping leavingCtx) 1 = some leavingCtx ∧ leavingCtx.rs = some 0 ∧ drainDone (swapping leavingCtx) 1 = true) ∧
    (ctxOf (swapping drainedCtx) 1 = some drainedCtx ∧ drainedCtx.saved = false ∧ drainedCtx.force = false) ∧
    (ctxOf (swapping freshCtx) 1 = some freshCtx ∧ freshCtx.restored = false ∧ freshCtx.record = none) ∧
    (ctxOf (swapping savedCtx) 1 = some savedCtx ∧ savedCtx.restored = false ∧ savedCtx.record = some rec0 ∧
      recordLost (readRecord (swapping savedCtx) savedCtx []) savedCtx = false) ∧
    (ctxOf losing 1 = some lostCtx ∧ lostCtx.record = some rec0 ∧ recordLost (readRecord losing lostCtx []) lostCtx = true) := by
  decide +kernel

/-! ## Tiers, beat time, resets, power -/

/-- Tile 3 in DDR5 channel 2, with a free tile in stack 19 and a request that wants it in HBM. -/
def req3 : MoveReq := { id := 1, rank := 5, dest := 0, comb := 4, tiles := [3] }
def moving : State := { up with tiers := { up.tiers with
  total := 4, hbmTiles := 4, tiles := [(3, { place := .ddr 2 })], freeHbm := [(19, 1)], reqs := [req3] } }
def switching : State := { moving with tiers := { moving.tiers with tiles := [(3, { place := .ddr 2, moving := some (.hbm 19) })] } }

theorem witness_TileMoves :
    ((moveHeads moving).any (stuckPin moving) = false ∧ nextMove moving = some (req3, 3) ∧ tileGet moving 3 = some { place := .ddr 2 } ∧
      (takePlace moving 0 (moveComb moving req3 3) 3).map (·.1) = some (.hbm 19)) ∧
    (tileGet switching 3 = some { place := .ddr 2, moving := some (.hbm 19) } ∧
      tileGet (memoryFindings (countRead (countRead switching 6) 7) (3 * tileSize) tileSize [(0, .corrected)]) 3 =
        some { place := .ddr 2, moving := some (.hbm 19) } ∧
      placeFailed (memoryFindings (countRead (countRead switching 6) 7) (3 * tileSize) tileSize [(0, .corrected)]) (.ddr 2) = false) := by
  decide

/-- PF0's window over a range of four tiles, with HBM channel states. -/
def windowed : State := { moving with boot := { moving.boot with window := false } }

/-- The first line of the range is sealed. -/
def sealing : State := { windowed with sec := { windowed.sec with seals := [⟨0, 64, 0, .schedule⟩] } }

theorem witness_HostWindowAndMemoryFailures :
    (windowed.boot.phase = 7 ∧ fnEnabled windowed 0 = true ∧ bootWindow windowed 0 = false) ∧
    bootWindow moving 0 = true ∧
    (bar2Refused windowed 0 (windowAt windowed 0 0) 64 = false ∧ sealedRange windowed (windowAt windowed 0 0) 64 = false ∧
      64 ≤ barSize windowed 0) ∧
    (bar2Refused sealing 0 (windowAt sealing 0 0) 64 = false ∧ sealedRange sealing (windowAt sealing 0 0) 64 = true) ∧
    (bar2Refused windowed 0 (windowAt windowed 0 (4 * tileSize - 64)) 64 = false ∧
      bar2Refused windowed 0 (windowAt windowed 0 (4 * tileSize)) 64 = true) ∧
    (tileGet moving (3 * 512 / 512) = some { place := .ddr 2 } ∧ tierOf (.ddr 2) < 2) ∧
    (moving.tiers.hbmFailed.getLsbD 19 = false ∧ moving.tiers.hbmOut.getLsbD 19 = false) ∧
    (tgetD { moving.tiers with ddrState := [(11, 1)], ddrLines := [(11, 17)] }.ddrState 11 0 = 1 ∧
      16 < tgetD { moving.tiers with ddrState := [(11, 1)], ddrLines := [(11, 17)] }.ddrLines 11 0) ∧
    tgetD (scrubLines moving []).tiers.ddrLines 11 0 ≤ 16 := by decide

/-- A LUN whose blocks 0 and 1 hold the halves of tile 0, written 73 powered hours ago; the worn blocks 2 and 3 are open with room. -/
def lun0 : Lun := {
  blocks := [(0, { pages := [(0, 0)], used := 1, reads := 0x10000000 }), (1, { pages := [(0, 1)], used := 1 }),
    (2, { pages := [(1, 0)], used := 1, erase := 65535, programmed := 73 }), (3, { pages := [(1, 1)], used := 1, erase := 65535, programmed := 73 })]
  opened := some (2, 3) }
def nandOn : State := { up with
  power := { up.power with wearHours := 73 }
  tiers := { up.tiers with luns := [(255, lun0)], blockPages := 256 } }

theorem witness_NandUpkeep :
    (nandOn.boot.phase ≠ 0 ∧ (lunGet nandOn 255).dead = false ∧ lunGet nandOn 255 = lun0 ∧ (emptyBlock nandOn 255 0).isSome = true) ∧
    (freeBlocks lun0 * 50 < lun0.blocks.length ∧
      leastBlock (fun k => k.pages.length)
        (lun0.blocks.filter fun e => e.2.used != 0 && !((lun0.opened.map fun p => p.1 == e.1 || p.2 == e.1).getD false)) =
        some (0, { pages := [(0, 0)], used := 1, reads := 0x10000000 })) ∧
    (tget lun0.blocks 0 = some { pages := [(0, 0)], used := 1, reads := 0x10000000 } ∧ wornApart nandOn lun0 = some 0 ∧
      cfld nandOn rMtNandCfg 15 8 * 1024 ≤ 0x10000000 ∧ 0 + 72 < nandOn.power.wearHours) ∧
    tget nandOn.tiers.luns 255 = some lun0 := by decide

def edging (b : BeatUnit) : State := { up with beat := b }
def upPort : State := { timed with fabric := { timed.fabric with ports := [(5, { state := .up })] } }

/-- Sixteen edges in a row, on a source and on a device with and without a marker of the beat. -/
def locking (m : Option (Nat × Nat)) (reg : Word) : State := { edging { state := .acquiring, run := 16, phased := true, acqMarker := m, acqEdges := 3 } with
  committed := [(rBtCfg, reg)] }

theorem witness_EdgesAndMarkers :
    (scanOwnsPins { up with mgmt := { up.mgmt with tap := .extest } } = true ∧ scanOwnsPins up = false ∧ up.beat.state = .unlocked) ∧
    (timed.beat.state = .locked ∧ (200 : Int).natAbs ≤ windowNs { timed with committed := [(rBtCfg, BitVec.ofNat 32 (20 * 256 + 10))] } ∧
      timed.beat.accepted = false) ∧
    windowNs { timed with committed := [(rBtCfg, BitVec.ofNat 32 (20 * 256 + 10))] } < (-201 : Int).natAbs ∧
    ((edging { state := .holdover, count := 1, accepted := true }).beat.accepted = true ∧ (edging { state := .lost }).beat.state = .lost) ∧
    ((edging { state := .acquiring, run := 15 }).beat.phased = false ∧ (edging { state := .acquiring, run := 15, phased := true }).beat.run < 16) ∧
    ((locking none 0xa0a).beat.run = 16 ∧ isSource (locking none 0xa0a) = false ∧ (locking (some (5, 9)) 0xa0a).beat.acqMarker = some (5, 9) ∧
      isSource (locking none 0x10a0a) = true ∧ (0 : Int).natAbs ≤ windowNs (locking none 0x10a0a)) ∧
    ((portGet upPort 5).state = .up ∧ tget upPort.beat.markers 5 = none ∧
      tget { upPort.beat with markers := [(5, 7)] }.markers 5 = some 7) := by decide

def held (n good : Nat) (a : Bool) : State := edging { state := .holdover, count := 7, held := n, good := good, accepted := a }
def last : State := edging { state := .locked, count := maxBeat, accepted := true }

theorem witness_Boundaries :
    (timed.beat.leaving = none ∧ lostCause timed = none ∧ timed.beat.accepted = false ∧
      lostCause (edging { state := .locked, count := maxBeat - 1, accepted := true }) = none) ∧
    (lostCause (held 255 0 false) = none ∧ lostCause (held 256 2 true) = none ∧ lostCause (held 256 3 true) = none) ∧
    ((held 256 0 false).beat.state = .holdover ∧ 256 ≤ (held 256 0 false).beat.held) ∧ (hasBeat last = true ∧ maxBeat < nextBeat last) := by
  decide

def weighing (x : SplitSection) (level : Nat) (reg : Word) : State := { serving step0 desc0 [] with
  beat := { timed.beat with count := 64 + 256 }
  sched := { (serving step0 desc0 []).sched with image := some ({ image0 with split := x }, 0), level := level, target := level }
  committed := [(rSqCfg, reg)] }
def split2 : SplitSection := { nlev := 2, start := 0, wg := 1, wp := 1, up := [65535, 65535], down := [0, 65534] }

/-- What R218 compares: the weight of generation and that of prompts. -/
def weights (s : State) : Nat × Nat :=
  ((splitOf s).wg * ((s.forager.descs.filter fun d => d.state == .active || d.state == .adopted).filter fun d => !inPrompt d).length,
    (splitOf s).wp * ((s.forager.descs.filter fun d => inPrompt d).map fun d => d.plen - d.clen).sum)

/-- Level 0 with generation only steps up, level 1 with a prompt of ten positions only steps down, level 1 with generation only stays, and
work of no weight keeps everything. -/
theorem witness_SplitEvaluation :
    (jobOrigin (weighing split2 0 1) = some 64 ∧ hasBeat (weighing split2 0 1) = true ∧ (now (weighing split2 0 1) - 64) % 256 = 0 ∧
      (weighing split2 0 1).sched.evalAt ≠ now (weighing split2 0 1) ∧ 64 < now (weighing split2 0 1)) ∧
    (weights (weighing split2 0 1) = (1, 0) ∧ cfld (weighing split2 0 1) rSqCfg 20 20 ≠ 1 ∧ 0 + 1 < split2.nlev ∧ split2.up.getD 0 65535 ≤ 65535 * 1 / 1) ∧
    (weights { weighing split2 1 1 with forager := { up.forager with descs := [{ desc0 with clen := 60, clenh := 60 }] } } = (0, 10) ∧
      cfld (weighing split2 1 1) rSqCfg 20 20 ≠ 1 ∧ ¬ 1 + 1 < split2.nlev ∧ 65535 * 0 / 10 < split2.down.getD 1 0) ∧
    (weights (weighing split2 1 1) = (1, 0) ∧ ¬ 65535 * 1 / 1 < split2.down.getD 1 0) ∧
    weights (weighing { split2 with wg := 0, wp := 0 } 0 1) = (0, 0) ∧ cfld (weighing split2 0 0x100001) rSqCfg 20 20 = 1 := by decide

theorem witness_ResetsAndGo :
    (bare.mfgTest = false ∧ { bare with mfgTest := true }.mfgTest = true ∧ up.boot.pwrOk = true ∧ up.boot.resetN = true ∧ up.boot.phase ≠ 1 ∧
      up.boot.phase = 7) ∧
    ({ up.boot with resetN := false }.resetN = false ∧ { up.boot with phase := 4 }.phase ≠ 7) ∧
    (State.reset.mgmt.scanned = false ∧ { up.mgmt with scanned := true }.scanned = true) := by decide

def firstRail : RailReading := { rail := 15, present := true, ack := true, millivolts := 750, milliamps := 1000 }
def allotted : State := { timed with power := { timed.power with alloc := some { watts := 100, first := 50, last := 100 }, closing := [49, 3] } }

theorem witness_PowerEvents :
    (up.boot.phase ≠ 0 ∧ allotted.power.closing = 49 :: [3]) ∧
    (((BitVec.ofNat 50 (2 ^ 31)).getLsbD 31 = true ∧ up.power.ready.getLsbD 31 = false)) ∧
    ([firstRail].any fun r => r.present && !r.ack) = false ∧
    (allotted.power.alloc = some { watts := 100, first := 50, last := 100 } ∧ hasBeat allotted = true ∧ 100 ≤ now allotted) := by decide

def hotAt (n : Int) (cap : Nat) : State := { up with power := { up.power with temps := List.replicate 128 n, thermal := some cap, thermalAge := 128 } }

theorem witness_WearAndMargins :
    (128 ≤ (hotAt 840 2700).power.thermalAge ∧ degrees 105 ≤ (hottest (hotAt 840 2700)).1 ∧ (hottest (hotAt 800 2700)).1 ≤ degrees 100) ∧
    (wearSpent { up with power := { up.power with wear := 3600000000000 } } = true ∧ up.power.worn = false) ∧
    (cfld { up with committed := [(rPwCfg, 1)] } rPwCfg 0 0 ≠ 0 ∧ ((List.range 5).filter fun a => (List.range 96).any fun m =>
        monitorArea m == a && decide ((List.replicate 79 10 ++ [9] ++ List.replicate 16 10).getD m 0 < 10)) = [3] ∧
      [750, 750, 750, 849, 750].getD 3 0 < areaTop 3) := by decide

def decaying (r : Reliab) : State := { timed with beat := { timed.beat with count := 2 ^ 24 }, reliab := r }

theorem witness_HealthEvents :
    (hasBeat (decaying { score := 8 }) = true ∧ now (decaying { score := 8 }) % 2 ^ 24 = 0 ∧ ({ score := 8 } : Reliab).decayAt ≠ 2 ^ 24) ∧
    cfld (decaying { health := .softPending, softAge := 4096, score := 65535 }) rRlCfg 31 16 ≤ 65535 ∧
    (tget ({ windows := [(255, 0), (3, 4)] } : Reliab).windows 255 = some 0 ∧ tget [(3, 0 + 1)] 3 = some (0 + 1)) ∧
    ({ test := .stress 7 } : Reliab).test = .stress 7 ∧ ({ test := .kat 7 } : Reliab).test = .kat 7 := by decide

/-! ## Images that verify

The signature checks have no body, so these witnesses take as given that they accept. -/

/-- An image signed by an owner whose keys are zeros: type, device, payload. -/
def header (type : Byte) (device : Nat) (payload : List Byte) : List Byte :=
  leBytes 4 0x49504C54 ++ [type, 1, 0, 0] ++ leBytes 8 payload.length ++ leBytes 8 device ++ leBytes 8 0
def signed (type : Byte) (device : Nat) (payload : List Byte) : List Byte :=
  header type device payload ++ leBytes 48 (digest384 payload).toNat ++ (List.replicate 5360 0 ++ payload)
def zeroOwner : List Byte × List Byte := (List.replicate 32 0, List.replicate 1952 0)

theorem leNat_lt (bs : List Byte) : leNat bs < 2 ^ (8 * bs.length) := by
  induction bs with
  | nil => simp [leNat]
  | cons b t ih =>
    have h := b.isLt
    simp only [leNat, List.length_cons]
    have e : 2 ^ (8 * (t.length + 1)) = 256 * 2 ^ (8 * t.length) := by rw [Nat.mul_add, Nat.pow_add]; omega
    rw [e]
    omega

theorem leNat_leBytes (n v : Nat) : leNat (leBytes n v) = v % 2 ^ (8 * n) := by
  induction n generalizing v with
  | zero => simp [leNat, leBytes, Nat.mod_one]
  | succ n ih =>
    simp only [leNat, leBytes, ih]
    have e : 2 ^ (8 * (n + 1)) = 256 * 2 ^ (8 * n) := by rw [Nat.mul_add, Nat.pow_add]; omega
    rw [e, Nat.mod_mul]
    simp

theorem leBytes_length (n v : Nat) : (leBytes n v).length = n := by
  induction n generalizing v with
  | zero => rfl
  | succ n ih => simp [leBytes, ih]

theorem header_length (type : Byte) (device : Nat) (payload : List Byte) : (header type device payload).length = 32 := by
  simp only [header, List.length_append, List.length_cons, List.length_nil, leBytes_length]

theorem signed_digest (type : Byte) (device : Nat) (payload : List Byte) : imgDigest (signed type device payload) = digest384 payload := by
  simp only [imgDigest, imgNat, imgBytes, signed, List.append_assoc]
  rw [List.drop_left' (header_length type device payload), List.take_left' (leBytes_length 48 _), leNat_leBytes, Nat.mod_eq_of_lt (digest384 payload).isLt]
  simp

theorem signed_payload (type : Byte) (device : Nat) (payload : List Byte) : imgPayload (signed type device payload) = payload := by
  simp only [imgPayload, headerSize, signed]
  rw [← List.append_assoc, List.drop_left' (by rw [List.length_append, List.length_append, header_length, leBytes_length, List.length_replicate])]

/-- 64 bytes of payload, and a range whose first bytes are an image. -/
def payload0 : List Byte := List.replicate 64 0
def stored (type : Byte) : State := { up with
  tiers := { up.tiers with total := 4, mem := mwrite [] 0 (signed type 0 payload0) }
  sec := { up.sec with owner := some zeroOwner } }
def loading (type : Byte) (what : VerifyFor) : State := { stored type with
  sec := { (stored type).sec with verifs := [{ id := 9, cmd := 9, fn := 0, base := 0, length := 5504, what := what }] } }

theorem inTable_empty (base size a : Nat) : inTable base 0 size a = none := by
  simp only [inTable]
  rw [if_neg (by omega)]

theorem range_of_mem (s : State) (n : Nat) (h : s.committed = []) (hr : s.forager.recs = []) (hp : s.forager.pfx = []) :
    rangeRead s 0 n = mread s.tiers.mem 0 n := by
  have z : cget s rKvPtCount = 0 ∧ cget s rFgDescCount = 0 ∧ cget s rFgHomeCount = 0 ∧ cget s rFgPfxCount = 0 ∧
      cget s rRaRegCount = 0 ∧ cget s rRaSlotCount = 0 := by
    simp only [cget, h, tget]
    decide
  obtain ⟨z1, z2, z3, z4, z5, z6⟩ := z
  simp only [rangeRead, mread, rangeByte, tableByte, z1, z2, z3, z4, z5, z6, inTable_empty, hr, hp, List.findSome?_nil, Option.or_none,
    Option.getD_none]

theorem signed_length (type : Byte) : (signed type 0 payload0).length = 5504 := by
  simp only [signed, List.length_append, header_length, leBytes_length, List.length_replicate, payload0]

theorem stored_reads (s : State) (type : Byte) (h : s.committed = []) (hr : s.forager.recs = []) (hp : s.forager.pfx = []) (m : s.tiers.mem = mwrite [] 0 (signed type 0 payload0)) :
    rangeRead s 0 5504 = signed type 0 payload0 := by
  rw [range_of_mem s 5504 h hr hp, m, ← signed_length type]
  exact mread_mwrite 0 _ rfl

/-- An image whose header is in order and whose signatures the checks accept verifies. -/
theorem signed_verifies (s : State) (type : Byte) (device : Nat) (payload : List Byte) (t n : Nat)
    (hn : n = headerSize + imgPayloadLen (signed type device payload))
    (hf : (imgMagic (signed type device payload) != 0x49504C54 || imgType (signed type device payload) != t ||
      decide (1 < imgSigner (signed type device payload)) || imgResv (signed type device payload) ||
      imgPayloadLen (signed type device payload) == 0) = false)
    (hd : (imgDevice (signed type device payload) != 0 && (s.sec.idkeys.isNone || imgDevice (signed type device payload) != identity s)) = false)
    (hs : imgSigner (signed type device payload) = 1) (ht : t ≠ 7)
    (ho : s.sec.owner = some (imgEdPk (signed type device payload), imgMldsaPk (signed type device payload)))
    (he : Config.ed25519Ok (imgEdPk (signed type device payload)) (imgBytes (signed type device payload) 0 80)
      (imgBytes (signed type device payload) 2064 64) = true)
    (hm : Config.mldsaOk (imgMldsaPk (signed type device payload)) (imgBytes (signed type device payload) 0 80)
      (imgBytes (signed type device payload) 2128 3309) = true) :
    imageStatus s false n t (signed type device payload) = stOk := by
  unfold imageStatus
  rw [if_neg (by decide), if_neg (by simp [hn]), hf, if_neg (by decide), hd, if_neg (by decide), if_neg (by simp [hs]),
    if_neg (by simp [hs, ho, ht]), signed_payload, signed_digest, if_neg (by simp), he, hm]
  rfl

def model0 : ModelImage := { layers := 2, vocab := 1, narrow := 1, resv := false, sections := [] }

/-- What the obligation takes from the verification: its state and what it reads. -/
def reading (s : State) : State := { s with sec := { s.sec with verifs := s.sec.verifs.filter fun x => x.id != 9 } }

theorem loading_reads (t : Byte) (w : VerifyFor) : rangeRead (reading (loading t w)) 0 5504 = signed t 0 payload0 :=
  stored_reads _ t rfl rfl rfl (by simp only [reading, loading, stored])

theorem foldl_same {α β : Type} (f : β → α → β) (b : β) (h : ∀ a, f b a = b) : ∀ l : List α, l.foldl f b = b
  | [] => rfl
  | a :: l => by rw [List.foldl_cons, h a]; exact foldl_same f b h l

/-- Where no tile is listed, neither an access nor a charge is noted. -/
theorem untiled (s : State) (c a n : Nat) (b : Bool) (h : s.tiers.tiles = []) : chargeRange (touchRange s a n) c a n b = s := by
  have g : ∀ t, tileGet s t = none := fun t => by simp only [tileGet, h, tget]
  have e : touchRange s a n = s := by
    simp only [touchRange]
    rw [foldl_same touchTile s fun t => by simp only [touchTile, g]]
    split
    · rfl
    · exact foldl_same countRead s (fun p => by simp only [countRead, g]) _
  rw [e]
  exact foldl_same _ s (fun l => by simp only [chargeAccess, g]) _

theorem signed_head (t : Byte) (d : Nat) (p : List Byte) (o n : Nat) (h : o + n ≤ 32) :
    imgNat (signed t d p) o n = leNat (((header t d p).drop o).take n) := by
  simp only [imgNat, imgBytes, signed, List.append_assoc]
  rw [List.drop_append_of_le_length (by rw [header_length]; omega), List.take_append_of_le_length (by rw [List.length_drop, header_length]; omega)]

/-- From byte 80 to the payload a signed image is zeros. -/
theorem signed_zeros (t : Byte) (d : Nat) (p : List Byte) (o n : Nat) (h1 : 80 ≤ o) (h2 : o + n ≤ 5440) :
    imgBytes (signed t d p) o n = List.replicate n 0 := by
  have e : (header t d p ++ leBytes 48 (digest384 p).toNat).length = 80 := by rw [List.length_append, header_length, leBytes_length]
  obtain ⟨k, rfl⟩ := Nat.exists_eq_add_of_le h1
  simp only [imgBytes, signed]
  rw [← List.drop_drop, List.drop_left' e, List.drop_append_of_le_length (by rw [List.length_replicate]; omega), List.drop_replicate,
    List.take_append_of_le_length (by rw [List.length_replicate]; omega), List.take_replicate, Nat.min_eq_left (by omega)]

theorem zero_keys (t : Byte) (d : Nat) (p : List Byte) : (imgEdPk (signed t d p), imgMldsaPk (signed t d p)) = zeroOwner := by
  rw [imgEdPk, imgMldsaPk, signed_zeros t d p 80 32 (by omega) (by omega), signed_zeros t d p 112 1952 (by omega) (by omega), zeroOwner]

theorem header_fields (t : Byte) (d : Nat) (p : List Byte) (hp : p.length = 64) (h : (t, d) ∈ [((1 : Byte), 0), (2, 0), (3, 0), (6, 5)]) :
    imgPayloadLen (signed t d p) = 64 ∧ imgSigner (signed t d p) = 1 ∧ imgDevice (signed t d p) = d ∧
      imgMagic (signed t d p) = 0x49504C54 ∧ imgType (signed t d p) = t.toNat ∧ imgResv (signed t d p) = false := by
  have tail : imgNat (signed t d p) 5437 3 = 0 := by rw [imgNat, signed_zeros t d p 5437 3 (by omega) (by omega)]; decide
  have e : header t d p = header t d payload0 := by simp only [header, hp, payload0, List.length_replicate]
  simp only [imgResv, tail, imgPayloadLen, imgSigner, imgDevice, imgMagic, imgType]
  repeat rw [signed_head _ _ _ _ _ (by omega)]
  rw [e]
  revert h
  simp only [List.mem_cons, Prod.mk.injEq, List.not_mem_nil, or_false]
  rintro (⟨rfl, rfl⟩ | ⟨rfl, rfl⟩ | ⟨rfl, rfl⟩ | ⟨rfl, rfl⟩) <;> decide

theorem witness_Verifications_images
    (he : ∀ t, Config.ed25519Ok (imgEdPk (signed t 0 payload0)) (imgBytes (signed t 0 payload0) 0 80) (imgBytes (signed t 0 payload0) 2064 64) = true)
    (hm : ∀ t, Config.mldsaOk (imgMldsaPk (signed t 0 payload0)) (imgBytes (signed t 0 payload0) 0 80)
      (imgBytes (signed t 0 payload0) 2128 3309) = true) :
    (∀ x ∈ [((2 : Byte), VerifyFor.model), (3, .schedule)],
      let s0 := reading (loading x.1 x.2)
      let s1 := memoryFindings (chargeRange (touchRange s0 0 5504) 0 0 5504 false) 0 5504 []
      ∃ v1, verifyImage s1 (rangePoisoned s1 0 5504) 5504 (verifyType x.2) (rangeRead s0 0 5504) = (v1, stOk) ∧ jobStarted v1 = false ∧
        modelStatus v1 0 model0 = stOk ∧ scheduleStatus v1 image0 = stOk) ∧
    (loading 2 .model).sec.verifs = [{ id := 9, cmd := 9, fn := 0, base := 0, length := 5504, what := .model }] := by
  have ok : ∀ (t : Byte) (w : VerifyFor), (t, 0) ∈ [((1 : Byte), 0), (2, 0), (3, 0), (6, 5)] →
      imageStatus (reading (loading t w)) false 5504 t.toNat (signed t 0 payload0) = stOk := by
    intro t w ht
    obtain ⟨h1, h2, h3, h4, h5, h6⟩ := header_fields t 0 payload0 rfl ht
    refine signed_verifies _ t 0 payload0 t.toNat 5504 (by rw [h1]; rfl) ?_ (by rw [h3]; rfl) h2 ?_ ?_ (he t) (hm t)
    · rw [h1, h2, h4, h5, h6]; simp
    · intro h; simp at ht; rcases ht with rfl | rfl | rfl <;> exact absurd h (by decide)
    · rw [zero_keys]; simp only [reading, loading, stored]
  refine ⟨?_, by simp only [loading]⟩
  have all : ∀ (t : Byte) (w : VerifyFor), (t, 0) ∈ [((1 : Byte), 0), (2, 0), (3, 0), (6, 5)] → t.toNat = verifyType w →
      rangePoisoned (reading (loading t w)) 0 5504 = false →
      let s0 := reading (loading t w)
      let s1 := memoryFindings (chargeRange (touchRange s0 0 5504) 0 0 5504 false) 0 5504 []
      verifyImage s1 (rangePoisoned s1 0 5504) 5504 (verifyType w) (rangeRead s0 0 5504) = (satAdd s0 rScVerifyCount 31 16 1, stOk) := by
    intro t w ht hv hp
    dsimp only
    rw [untiled _ _ _ _ _ rfl]
    simp only [memoryFindings, List.foldl_nil, hp, loading_reads, verifyImage, ← hv, ok t w ht, verified, beq_self_eq_true, Bool.true_or, if_true]
  intro x hx
  simp only [List.mem_cons, List.not_mem_nil, or_false] at hx
  rcases hx with rfl | rfl
  · exact ⟨_, all 2 .model (by decide) rfl (by decide +kernel), by decide, by decide +kernel, by decide +kernel⟩
  · exact ⟨_, all 3 .schedule (by decide) rfl (by decide +kernel), by decide, by decide +kernel, by decide +kernel⟩

theorem verified_sec (s : State) (t : Nat) : (verified s t stOk).sec = s.sec := rfl

/-- A grant of level 1 for the device with identity 5, as it stands in the grant buffer. -/
def payload1 : List Byte := List.replicate 32 0 ++ [1] ++ List.replicate 31 0
def buffered : State := { up with
  sec := { up.sec with owner := some zeroOwner, idkeys := some 5, grant := some 5504 }
  regs := (List.range 1376).map fun w => (rScGrantBuf w, BitVec.ofNat 32 (leNat (((signed 6 5 payload1).drop (4 * w)).take 4))) }

theorem tget_range {f : Nat → Word} {g : Nat → Nat} (inj : ∀ a b, g a = g b → a = b) (l : List Nat) (w : Nat) (h : w ∈ l) :
    tget (l.map fun w => (g w, f w)) (g w) = some (f w) := by
  induction l with
  | nil => simp at h
  | cons a l ih =>
    simp only [List.map_cons, tget]
    by_cases e : a = w
    · subst e; simp
    · rw [if_neg (fun x => e (inj _ _ x))]
      exact ih (by simpa [Ne.symm e] using h)

theorem leBytes_leNat (bs : List Byte) : leBytes bs.length (leNat bs) = bs := by
  induction bs with
  | nil => rfl
  | cons b t ih =>
    have h := b.isLt
    simp only [List.length_cons, leNat, leBytes]
    rw [show (b.toNat + 256 * leNat t) / 256 = leNat t by omega, ih]
    congr 1
    apply BitVec.eq_of_toNat_eq
    rw [BitVec.toNat_ofNat]
    omega

theorem chunks (n : Nat) : ∀ bs : List Byte, bs.length = 4 * n →
    ((List.range n).flatMap fun w => leBytes 4 (leNat ((bs.drop (4 * w)).take 4))) = bs := by
  induction n with
  | zero => intro bs h; simpa using (List.eq_nil_of_length_eq_zero h).symm
  | succ n ih =>
    intro bs h
    have hd : ∀ w, bs.drop (4 * (w + 1)) = (bs.drop 4).drop (4 * w) := by
      intro w
      rw [List.drop_drop]
      congr 1
      omega
    have ht : leBytes 4 (leNat (bs.take 4)) = bs.take 4 := by
      have e := leBytes_leNat (bs.take 4)
      rwa [List.length_take, Nat.min_eq_left (by omega)] at e
    rw [List.range_succ_eq_map, List.flatMap_cons, List.flatMap_map]
    simp only [Nat.succ_eq_add_one, hd, Nat.mul_zero, List.drop_zero]
    rw [ih (bs.drop 4) (by rw [List.length_drop]; omega), ht, List.take_append_drop]

theorem payload1_length : payload1.length = 64 := by decide

theorem buffered_grant : grantBytes { buffered with sec := { buffered.sec with grant := none } } 5504 = signed 6 5 payload1 := by
  have hl : (signed 6 5 payload1).length = 5504 := by
    simp only [signed, List.length_append, header_length, leBytes_length, List.length_replicate, payload1_length]
  have e : ∀ w ∈ List.range 1376, leBytes 4 (rget { buffered with sec := { buffered.sec with grant := none } } (rScGrantBuf w)) =
      leBytes 4 (leNat (((signed 6 5 payload1).drop (4 * w)).take 4)) := by
    intro w hw
    simp only [rget, buffered]
    rw [tget_range (fun a b h => by simp only [rScGrantBuf] at h; omega) _ w hw]
    have lt := leNat_lt (((signed 6 5 payload1).drop (4 * w)).take 4)
    have ll : (((signed 6 5 payload1).drop (4 * w)).take 4).length ≤ 4 := List.length_take_le _ _
    have lp : 2 ^ (8 * (((signed 6 5 payload1).drop (4 * w)).take 4).length) ≤ 2 ^ 32 := Nat.pow_le_pow_right (by omega) (by omega)
    simp only [BitVec.toNat_ofNat]
    rw [Nat.mod_eq_of_lt (by omega)]
  have f : ((List.range 1376).flatMap fun w => leBytes 4 (rget { buffered with sec := { buffered.sec with grant := none } } (rScGrantBuf w))) =
      (List.range 1376).flatMap fun w => leBytes 4 (leNat (((signed 6 5 payload1).drop (4 * w)).take 4)) := by
    simp only [List.flatMap, List.map_congr_left e]
  rw [grantBytes, show (5504 + 3) / 4 = 1376 from rfl, f, chunks 1376 _ (by rw [hl]), List.take_of_length_le (Nat.le_of_eq hl)]

theorem witness_Verifications_grant
    (he : Config.ed25519Ok (imgEdPk (signed 6 5 payload1)) (imgBytes (signed 6 5 payload1) 0 80) (imgBytes (signed 6 5 payload1) 2064 64) = true)
    (hm : Config.mldsaOk (imgMldsaPk (signed 6 5 payload1)) (imgBytes (signed 6 5 payload1) 0 80)
      (imgBytes (signed 6 5 payload1) 2128 3309) = true) :
    let s0 := { buffered with sec := { buffered.sec with grant := none } }
    let bs := grantBytes s0 5504
    ∃ v, verifyImage s0 false 5504 6 bs = (v, stOk) ∧ imgDevice bs ≠ 0 ∧ imgPayloadLen bs = 64 ∧ imgPayload bs = payload1 ∧
      imgNat payload1 32 1 = 1 ∧ imgNat payload1 33 31 = 0 ∧ imgNat payload1 0 32 = v.sec.challenge.toNat ∧ bit 1 1 ≠ 1 ∧ v.sec.rngOk = true := by
  obtain ⟨h1, h2, h3, h4, h5, h6⟩ := header_fields 6 5 payload1 payload1_length (by decide)
  have st : imageStatus { buffered with sec := { buffered.sec with grant := none } } false 5504 6 (signed 6 5 payload1) = stOk := by
    refine signed_verifies _ 6 5 payload1 6 5504 (by rw [h1]; rfl) ?_ ?_ h2 (by decide) ?_ he hm
    · rw [h1, h2, h4, h5, h6]; decide
    · rw [h3]; decide
    · rw [zero_keys]; rfl
  dsimp only
  rw [buffered_grant]
  refine ⟨_, by simp only [verifyImage, st]; rfl, by rw [h3]; decide, h1, signed_payload 6 5 payload1, by decide, by decide, ?_, by decide, ?_⟩
  · rw [verified_sec]; decide
  · rw [verified_sec]; rfl

/-- A configuration payload with no preloads, and GO's staging area with it. -/
def config0 : List Byte := [1] ++ List.replicate 63 0
def stagedImage : State := { up with
  boot := { up.boot with phase := 4, staging := mwrite [] stagingImage (signed 1 0 config0) }
  sec := { up.sec with owner := some zeroOwner } }

theorem applyConfig_accepts (s : State) (p : List Byte) (d : BitVec 384) (src : Nat) (h0 : imgNat p 48 4 = 0) (hc : (commitAll s).1 = stOk) :
    (applyConfig s p d src).2 = stOk := by
  simp only [applyConfig, h0, List.range_zero, List.foldl_nil]
  generalize commitAll s = r at hc
  obtain ⟨st, t⟩ := r
  simp only at hc
  subst hc
  simp

theorem presentImage_accepts (s : State) (n : Nat) (bs : List Byte) (src : Nat) (h1 : imageStatus s false n 1 bs = stOk)
    (h2 : configStatus (imgPayload bs) (imgPayloadLen bs) = stOk) (h3 : (applyConfig s (imgPayload bs) (imgDigest bs) src).2 = stOk) :
    (presentImage s n bs src).2 = true := by
  simp only [presentImage, h1, h2, beq_self_eq_true, if_true]
  generalize applyConfig s (imgPayload bs) (imgDigest bs) src = r at h3
  obtain ⟨t, st⟩ := r
  simp only at h3
  subst h3
  simp

theorem config0_length : config0.length = 64 := by decide

/-- That the reset words of every block and window commit is taken as given here: the kernel would be minutes over 256 windows. -/
theorem witness_ResetsAndGo_go
    (he : Config.ed25519Ok (imgEdPk (signed 1 0 config0)) (imgBytes (signed 1 0 config0) 0 80) (imgBytes (signed 1 0 config0) 2064 64) = true)
    (hm : Config.mldsaOk (imgMldsaPk (signed 1 0 config0)) (imgBytes (signed 1 0 config0) 0 80)
      (imgBytes (signed 1 0 config0) 2128 3309) = true)
    (hc : (commitAll stagedImage).1 = stOk) :
    stagedImage.boot.phase = 4 ∧ mread stagedImage.boot.staging stagingImage 5504 = signed 1 0 config0 ∧
    (presentImage stagedImage 5504 (signed 1 0 config0) 3).2 = true := by
  have hl : (signed 1 0 config0).length = 5504 := by
    simp only [signed, List.length_append, header_length, leBytes_length, List.length_replicate, config0_length]
  obtain ⟨h1, h2, h3, h4, h5, h6⟩ := header_fields 1 0 config0 config0_length (by decide)
  refine ⟨rfl, ?_, presentImage_accepts _ _ _ _ ?_ ?_ (applyConfig_accepts _ _ _ _ ?_ hc)⟩
  · have m := mread_mwrite (m := []) stagingImage (signed 1 0 config0) rfl
    rw [hl] at m
    simp only [stagedImage]
    exact m
  · refine signed_verifies _ 1 0 config0 1 5504 (by rw [h1]; rfl) ?_ ?_ h2 (by decide) ?_ he hm
    · rw [h1, h2, h4, h5, h6]; decide
    · rw [h3]; decide
    · rw [zero_keys]; rfl
  · rw [signed_payload, h1]; decide +kernel
  · rw [signed_payload]; decide

/-! ## Registers, host interface and host commands -/

theorem witness_BlockAndWindowCommits :
    (up.boot.phase = 7 ∧ (1 : Word).getLsbD 0 = true ∧ ∀ b ∈ [0, 1, 2, 4, 5, 6, 7, 8, 9, 10, 12, 13, 15], commitFails up b = ([], [])) ∧
    ((commitFails { up with regs := [(rBtCfg, 1)] } 0).1 = [rBtCfg, rBtCfg] ∧ windowFails up 0 = ([], []) ∧
      (windowFails { up with regs := [(rHiCqBaseLo 0, 64)] } 0).1 = [rHiCqBaseLo 0]) ∧
    commitFails { up with sched := { up.sched with job := .started 1 }, regs := [(rBtCfg, 0xa0a)] } 0 = ([], [rBtCfg]) := by
  decide +kernel

theorem witness_BeatControl :
    ((1 : Word).getLsbD 0 = true ∧ up.beat.state = .unlocked ∧ timed.beat.state ≠ .unlocked) ∧
    ((0 : Word).getLsbD 0 = false ∧ jobStarted up = false ∧ (edging { state := .acquiring }).beat.state = .acquiring ∧ hasBeat timed = true ∧
      jobStarted timed = false) ∧
    (jobStarted (serving step0 desc0 []) = true ∧ (serving step0 desc0 []).beat.state ≠ .unlocked ∧ (serving step0 desc0 []).boot.phase = 7) := by
  decide

theorem witness_PairedReads : up.boot.phase = 7 ∧ rBtNowLo ∈ [rBtNowLo, rBtOriginLo, rBtMissLogLo] ∧
    tget { up with latches := [(rBtNowLo + 4, 0xFFFF)] }.latches (rBtNowLo + 4) = some 0xFFFF ∧ Path.sgmii ≠ .bar0 ∧
    pathServes { up with mgmt := { up.mgmt with serving := true } } .sgmii = true := by decide

/-- A plain register, a hole of a block, and an offset beyond every block. -/
theorem witness_PlainRegisters :
    ((regRow? rBtSeedLo).isSome = true ∧ inSpan rBtSeedLo = true ∧ commitBlockOf rBtSeedLo = none ∧
      rBtSeedLo ∉ [rBtCtl, rBtCommit, rRlExpel, rScGrantCtl, rEgRouteSel] ∧ ¬ (rScGrantBuf 0 ≤ rBtSeedLo) ∧ ¬ (rEgPortCtl 0 ≤ rBtSeedLo) ∧
      ¬ (rMgTmxk 0 ≤ rBtSeedLo) ∧ ¬ (rHiFnCommitSt 0 ≤ rBtSeedLo)) ∧
    (regRow? 0xFC = none ∧ inSpan 0xFC = true) ∧ (regRow? 0x100 = none ∧ inSpan 0x100 = false) := by decide

def ported (p : Port) : State := { up with
  power := { up.power with ready := BitVec.ofNat 50 (2 ^ 50 - 1) }
  fabric := { up.fabric with ports := [(5, p)] } }

theorem witness_ControlRegisters :
    ((1 : Word).getLsbD 0 = true ∧ (1 : Word).getLsbD 1 = false ∧ (portGet (ported {}) 5).state = .disabled ∧
      (ported {}).power.ready.getLsbD (36 + 5) = true) ∧ ((3 : Word).getLsbD 1 = true ∧ (portGet (ported { state := .up }) 5).state = .up) ∧
    ({ up.reliab with health := .softPending }.health = .softPending ∧ (regRow? rScGrantCtl).isSome = true ∧ up.sec.grant = none) ∧
    ((regRow? (rMgTmxk 15)).isSome = true ∧ tmxOk 4 31 = true ∧ tmxOk 4 32 = false) := by decide

def ring : SqRing := { enabled := true, size := 4 }
def ringing (x : Fn) (ds : List (Nat × Nat × Nat)) : State := { up with host := { up.host with fns := [(0, x)], doorbells := ds } }

theorem witness_HostInterfaceEvents :
    (fnEnabled up 0 = true ∧ (sqOf (ringing { sq := [(15, ring)] } []) 0 15).enabled = true ∧ (15 : Word).toNat < 2 ^ ring.size ∧
      2 ^ ring.size ≤ (16 : Word).toNat) ∧
    ((fnGet (ringing { cqEnabled := true, cqSize := 4 } []) 0).cqEnabled = true ∧
      (15 : Word).toNat < cqSize (ringing { cqEnabled := true, cqSize := 4 } []) 0 ∧
      (fnGet (ringing { cqEnabled := true, cqSize := 4 } []) 0).cqError = false) ∧
    ((dropDoorbells (ringing { sq := [(15, ring)] } [(0, 15, 1)])).host.doorbells = (0, 15, 1) :: [] ∧
      doorbellOpen (dropDoorbells (ringing { sq := [(15, ring)] } [(0, 15, 1)])) (0, 15, 1) = true) ∧
    (cfld { up with committed := [(rHiIrq 0, 0x101)] } (rHiIrq 0) 15 8 ≠ 0 ∧ (fnGet (ringing { unsignalled := 1 } []) 0).unsignalled ≠ 0) ∧
    up.host.numVfs = 0 := by decide

theorem starts_of {s : State} {h : CmdHdr} {op : HostOp} (e : fetchOpen s h.fn.val = true ∧ parseCheck s h op = .start ∧ s.host.cmds = [] ∧ h.fence = false) :
    Starts s h op :=
  ⟨e.1, e.2.1, (by rw [e.2.2.1]; intro x hx; cases hx), fun f => absurd f (by rw [e.2.2.2]; decide)⟩

theorem witness_DeviceCommands :
    Starts up h0 .nop ∧ Starts up h0 (.identify 64) ∧ Starts up h0 (.identify 0) ∧ (Starts up h0 (.readAccounting 255 64) ∧ h0.fn.val = 0) ∧
    (Starts up h0 (.attest 64 7) ∧ { up.sec with seed := some 7 }.seed = some 7) ∧
    (Starts up h0 (.setRole 4) ∧ up.sched.job = .none ∧ heldStarts up = [] ∧ up.forager.descs = [] ∧ up.forager.recs = [] ∧ up.forager.pfx = []) ∧
    Starts up h0 (.setPowerLimit 1 50 2750) ∧ (Starts up h0 (.selfTest 0) ∧ jobStarted up = false ∧ up.reliab.test = .none) ∧
    Starts up h0 (.selfTest 1) :=
  ⟨starts_of (by decide), starts_of (by decide), starts_of (by decide), ⟨starts_of (by decide), by decide⟩,
    ⟨starts_of (by decide), by decide⟩, ⟨starts_of (by decide), by decide⟩, starts_of (by decide), ⟨starts_of (by decide), by decide⟩,
    starts_of (by decide)⟩

/-- PF0 copies within a range of four tiles, on a device in the cache role. -/
def copying : State := { windowed with boot := { windowed.boot with role := 3 }, forager := { windowed.forager with descs := [{ desc0 with client := 0 }] } }
def migrate (n : Word) : MigrateArg := { first := 0, count := n, dest := 3, comb := 7 }
def prefetch (b : Bool) (f : DWord) : PrefetchArg := { byHandle := b, comb := 3, first := f, count := 4 }
def copyArg (n : DWord) : DmaCopyArg := { spaces := 0x10, src := 64, dst := 4 * 32768 - 64, length := n }

theorem witness_CopyCommands :
    (Starts copying h0 (.migrate (migrate 0)) ∧ Starts copying h0 (.migrate (migrate 4)) ∧ inRange copying 0 (4 * tileSize) = true ∧
      fnMay copying 0 0 (4 * tileSize) = true) ∧
    (Starts copying h0 (.prefetch (prefetch true handle0)) ∧ descOf copying handle0 = some { desc0 with client := 0 }) ∧
    Starts copying h0 (.prefetch (prefetch false 0)) ∧
    (pinTier moving 3 = none ∧ inPool moving 3 = false ∧ sealedRange moving (3 * tileSize) tileSize = false ∧ moving.tiers.reqs.length < 1024) ∧
    (Starts copying h0 (.dmaCopy (copyArg 0) ⟨[], []⟩) ∧ Starts copying h0 (.dmaCopy (copyArg 64) ⟨[.data 7 false], []⟩) ∧
      inRange copying (4 * 32768 - 64) 64 = true ∧ protectedRange copying (4 * 32768 - 64) 64 = false ∧
      sealedRange copying (4 * 32768 - 64) 64 = false) :=
  ⟨⟨starts_of (by decide), starts_of (by decide), by decide⟩, ⟨starts_of (by decide), by decide⟩, starts_of (by decide), by decide,
    ⟨starts_of (by decide), starts_of (by decide), by decide⟩⟩

def owned (s : State) : State := { s with sched := { s.sched with model := some (⟨2, 1, 1, false, []⟩, 0, 0) } }
def imageArg : ImageArg := { image := 0, length := 4 * 32768 }
def slotted (st : CbState) : State := owned { copying with grid := { copying.grid with cells := [(1023, { slots := [(3, { state := st, version := 65535 })] })] } }
def lit : State := owned { copying with
  power := { copying.power with ready := BitVec.ofNat 50 (2 ^ 46) }
  lens := { copying.lens with slots := [(7, { state := .live, id := 65535 })] } }

theorem witness_ImageCommands :
    (0 < imageArg.length.toNat ∧ inRange copying 0 imageArg.length.toNat = true ∧ jobStarted copying = false) ∧
    Starts copying h0 (.loadModel imageArg) ∧ Starts copying h0 (.loadSchedule imageArg) ∧
    (Starts (owned copying) h0 (.loadCodebook imageArg 3 0 1023) ∧ modelOwner (owned copying) = some 0) ∧
    (Starts lit h0 (.loadGrammar imageArg 7) ∧ lensOn lit = true ∧ modelOwner lit = some 0) ∧
    (Starts (slotted .live) h0 (.retireCodebook 65535 1023 1023) ∧ (slotGet (slotted .live) 1023 3).state = .live) ∧
    (Starts lit h0 (.retireGrammar 65535) ∧
      lit.lens.slots.find? (fun e => e.2.id == 65535 && e.2.state != .free) = some (7, { state := .live, id := 65535 })) :=
  ⟨by decide, starts_of (by decide), starts_of (by decide), ⟨starts_of (by decide), by decide⟩, ⟨starts_of (by decide), by decide⟩,
    ⟨starts_of (by decide), by decide⟩, ⟨starts_of (by decide), by decide⟩⟩

/-- The device is node 9 and mixed, the images are in place, and the tables have room. -/
def peer9 : PeerEntry := { node := 9, role := 4, roleEpoch := 0, lead := 9, partner := none }
def image9 : ScheduleImage := { image0 with node := 9, period := 8, peers := [peer9] }
def ready9 : State := { onCell [] {} with
  boot := { up.boot with window := false, role := 4 }
  beat := { timed.beat with count := 100 }
  host := { up.host with numVfs := 1 }
  fabric := { up.fabric with node := some 9 }
  tiers := { up.tiers with total := 16 }
  sched := { up.sched with model := some (⟨2, 1, 1, false, []⟩, 0, 0), image := some (image9, 0), ctxs := [(1, ctx1)] }
  committed := [(rKvPtCount, 16), (rFgDescCount, 16), (rSqSwapBaseLo, 8 * 32768), (rSqSwapTiles, 8), (rRaRegCount, 4), (rRaSlotCount, 1)] }
def jobOn : State := { ready9 with sched := { ready9.sched with job := .started 64 } }

def hAt (beat : BeatField) : CmdHdr := { h0 with notBefore := beat }
def startCmd : Cmd := { id := 1, hdr := hAt 100, op := .startJob, pos := 1, phase := 1 }
def h1 : CmdHdr := { h0 with fn := 1 }
def holdingStart : State := { ready9 with host := { ready9.host with cmds := [startCmd], nextCmd := 2 } }
def contextArg : ContextArg := { cls := 0, priority := 7, prot := false, base := 0, size := 0x80000 }
def withCtx (x : Ctx) : State := { jobOn with sched := { jobOn.sched with ctxs := [(4127, x)] } }

theorem witness_JobCommands :
    (fetchOpen ready9 0 = true ∧ parseCheck ready9 (hAt 101) .startJob = .hold) ∧
    (cmdGet holdingStart 1 = some startCmd ∧
      startJobStatus (cmdMod holdingStart 1 fun c => { c with phase := 2 }) 1 true = stOk) ∧
    (Starts jobOn h0 (.stopJob 1) ∧ jobStarted jobOn = true ∧ imageJob jobOn = 1 ∧ heldStarts jobOn = []) ∧
    (Starts jobOn h1 (.contextCreate contextArg) ∧ jobOn.sched.image = some (image9, 0) ∧ 0 < image9.classes.length ∧
      inRange jobOn 0 0x80000 = true ∧ (reserveSwap (enterCmd jobOn h1 (.contextCreate contextArg) 2) 0).isSome = true ∧
      freeCtxNumber (enterCmd jobOn h1 (.contextCreate contextArg) 2) = 0) ∧
    (Starts (withCtx { ctx1 with state := .swapped }) h1 (.contextDestroy 4127) ∧
      ctxOf (withCtx { ctx1 with state := .swapped }) 4127 = some { ctx1 with state := .swapped }) ∧
    Starts (withCtx { ctx1 with state := .aborted }) h1 (.contextDestroy 4127) ∧
    (Starts (withCtx ctx1) h1 (.contextDestroy 4127) ∧ ctx1.destroy = none ∧ ctx1.state = .resident) ∧
    (Starts jobOn h1 (.semInit 1023 65535) ∧ semOf jobOn 1023 = none) :=
  ⟨by decide, by decide, ⟨starts_of (by decide), by decide⟩, ⟨starts_of (by decide), by decide⟩, ⟨starts_of (by decide), by decide⟩,
    starts_of (by decide), ⟨starts_of (by decide), by decide⟩, ⟨starts_of (by decide), by decide⟩⟩

def region3 : Region := {
  base := 0
  length := 1048576
  secret := 5
  rd := true
  wr := true
  queue := false
  prot := false
  from_ := none
  client := 1 }
def queue3 : Region := { region3 with queue := true, slots := 1 }
def regioned (r : Region) : State := { ready9 with remote := { ready9.remote with regions := [(3, r)] } }
def key3 : DWord := keyOf 3 5
def sendArg : SendArg := { node := 0x3FFF, slot := 1023, key := key3, gen := 1, length := 0x80000, src := 0 }
def flushing (fs : List FlushItem) : State := { ready9 with remote := { ready9.remote with nextSeq := 1, flushes := fs } }
def item0 : FlushItem := { seq := 0, tag := 1, isSend := true, fn := 1, node := 0x3FFF }
def wait0 : FlushWait := { cmd := 1, fn := 1, node := some 0x3FFF, upto := 1 }

theorem witness_RemoteCommands :
    (Starts ready9 h1 (.registerRegion ⟨0, 0x13, 0x3FFF, 0, 0x80000⟩) ∧ fnMay ready9 1 0 0x8000 = true ∧
      Starts ready9 h1 (.registerRegion ⟨0, 1, 0, 0, 128⟩) ∧ inRange ready9 0 128 = true ∧ ready9.sec.rngOk = true ∧
      freeRegionNumber (enterCmd ready9 h1 (.registerRegion ⟨0, 1, 0, 0, 128⟩) 2) = some 1) ∧
    (Starts (regioned region3) h1 (.revokeRegion key3) ∧ keySecret key3 = 5 ∧ keyRegion key3 = 3 ∧ regionOf (regioned region3) 3 = some region3) ∧
    (Starts (regioned queue3) h1 (.postRecv ⟨key3, 0, 256, 32512⟩) ∧ fnMay (enterCmd (regioned queue3) h1 (.postRecv ⟨key3, 0, 256, 32512⟩) 2) 1 256 32512 = true ∧
      (slotOf (regioned queue3) 0).state = .empty ∧
      queue3.prot = ((regioned queue3).remote.regions.any fun e => e.2.prot && !e.2.queue && within 256 32512 e.2.base e.2.length)) ∧
    (Starts ready9 h1 (.send { sendArg with length := 0x8000 }) ∧ fnMay ready9 1 0 0x8000 = true ∧ inRange ready9 0 0x8000 = true ∧
      nodeDown ready9 0x3FFF = false) ∧
    (Starts (flushing [item0]) h1 (.flush 0x3FFF) ∧ ([item0].filter (flushCovers wait0)).any (fun f => f.outcome.isNone) = true) ∧
    (Starts (flushing []) h1 (.flush 0x8000) ∧ ([] : List FlushItem).filter (flushCovers wait0) = []) :=
  ⟨⟨starts_of (by decide), by decide, starts_of (by decide), by decide⟩, ⟨starts_of (by decide), by decide⟩, ⟨starts_of (by decide), by decide⟩,
    ⟨starts_of (by decide), by decide⟩, ⟨starts_of (by decide), by decide⟩, ⟨starts_of (by decide), by decide⟩⟩

/-- Peer 7 is a cache device that is UP. -/
def peer7 : Peer := { entry := { node := 7, role := 3, roleEpoch := 0, lead := 7, partner := none } }
def submitArg : SubmitArg := { context := 1, home := 0x8007, plen := 1, maxlen := 4096, tbuf := 0x2000, sample := 0x6F00, map := 0x1000, parent := 0 }
def asking (ds : List Desc) : State := { jobOn with
  forager := { jobOn.forager with peers := [peer7], descs := ds } }
def inArg : HandoffInArg := { handle := handle0, source := 0x8005, context := 1, tbuf := 0x2000, sample := 0x4000, map := 0x1000 }
/-- A record of this node's home, and the cache device that keeps it. -/
def handle9 : DWord := BitVec.ofNat 64 (2 ^ 48 + 9 * 2 ^ 34 + 5)
def data9 : RecordData := {
  handle := handle9
  state := 1
  client := 1
  owner := some 5
  epoch := 1
  lease := 200
  pending := none
  proposed := false
  claimed := false
  primaryOk := true
  mirrorOk := false
  acting := false
  lastc := none
  partner := 0
  cb := 0
  clenh := 70
  plen := 70
  maxlen := 100
  ownerCommitted := false }
def homed (d : RecordData) : State := { jobOn with boot := { jobOn.boot with role := 3 }, forager := { jobOn.forager with recs := [{ data := d }] } }
def page0 : Page := { frame := 0, refs := 1, pins := 0, client := 1 }
def paged (p : Page) : State := { jobOn with cache := { jobOn.cache with pages := [(15, p)] } }

theorem witness_RequestCommands :
    (Starts (asking []) h1 (.submit submitArg) ∧ contextStatus (asking []) 1 1 = stOk ∧ layoutOf (asking []) 1 = some layout0 ∧
      submitArg.maxlen.toNat ≤ layout0.maxpos ∧ inAlloc (asking []) 1 0x2000 (4 * 4096) = true ∧ buffersOk (asking []) 1 0x6F00 0x1000 = true ∧
      chooseHome (enterCmd (asking []) h1 (.submit submitArg) 2) 1 submitArg none = .inr 7 ∧ freeDescIdx (asking []) = some 0) ∧
    (descOf (asking [desc0]) handle0 = some desc0 ∧ Starts (asking [desc0]) h1 (.cancel handle0) ∧
      Starts (asking [desc0]) h1 (.handoffOut handle0 0x3FFF) ∧ nodeNum (asking [desc0]) = 9) ∧
    (Starts (asking []) h1 (.handoffIn inArg) ∧ descOf (asking []) handle0 = none ∧ contextStatus (asking []) 1 1 = stOk ∧
      buffersOk (asking []) 1 0x4000 0x1000 = true) ∧
    (Starts (homed data9) h0 (.query handle9 0) ∧ servesHome (homed data9) handle9 = true ∧ recOf (homed data9) handle9 = some { data := data9 } ∧
      Starts (homed data9) h0 (.query handle9 64)) ∧
    (Starts (homed data9) h0 (.prefixLookup 9 64 0) ∧ inRange (homed data9) 0 256 = true) ∧
    (Starts (paged page0) h1 (.pagePin 15) ∧ pageCheck (enterCmd (paged page0) h1 (.pagePin 15) 2) 1 15 = .inr page0 ∧ pageInHbm (paged page0) page0 = true) ∧
    (Starts (paged { page0 with pins := 1, cmdPins := [(1, 1)] }) h1 (.pageUnpin 15) ∧ 0 < tgetD [(1, 1)] 1 0) :=
  ⟨⟨starts_of (by decide), by decide +kernel⟩, ⟨by decide, starts_of (by decide), starts_of (by decide), by decide⟩, ⟨starts_of (by decide), by decide⟩,
    ⟨starts_of (by decide), by decide, by decide, starts_of (by decide)⟩, ⟨starts_of (by decide), by decide⟩, ⟨starts_of (by decide), by decide⟩,
    ⟨starts_of (by decide), by decide⟩⟩

/-- The rows of the checks in their order, and a packet that none of them refuses but waits. -/
theorem witness_CommandChecks :
    (fetchOpen ready9 0 = true ∧ parseCheck ready9 { h0 with resv := true } .nop = .refuse stBadField ∧
      parseCheck up h0 (.revokeRegion 0) = .refuse stWrongRole ∧ parseCheck ready9 { h0 with roleEpoch := 1 } (.setRole 1) = .refuse stRoleStale ∧
      parseCheck up (hAt 1) .nop = .refuse stBeatLost ∧ parseCheck ready9 { h0 with deadline := 100 } .nop = .refuse stDeadlineMissed) ∧
    parseCheck ready9 (hAt 101) .nop = .hold ∧ fetchOpen { ready9 with boot := { ready9.boot with phase := 5 } } 0 = false ∧
    (h1.fn.val ≠ 0 ∧ parseCheck ready9 h1 .startJob = .refuse stRights) := by decide

theorem witness_CommandsWithoutBeat :
    (opPf0 .nop = false ∧ h0.resv = false ∧ opRoleOk (roleOf up) .nop = true ∧ opEpoch .nop = false) ∧
    (up.beat.state = .unlocked ∧ (hAt 1).notBefore ≠ 0 ∧ ({ h0 with deadline := 1 } : CmdHdr).deadline ≠ 0) ∧
    (h0.notBefore = 0 ∧ h0.deadline = 0 ∧ HostOp.nop ≠ .startJob) ∧ timed.beat.state = .locked ∧
    (opPf0 .startJob = true ∧ h0.fn.val = 0 ∧ opRoleOk 4 .startJob = true ∧ up.beat.state ≠ .locked) := by decide

/-! ## Forager messages -/

def m9 : FHdr := {
  src := 5
  roleEpoch := 0
  handle := handle9
  epoch := 1
  status := 0
  hashv := false
  fork := false
  notBefore := 100
  deadline := 0
  resv := false }
def partner7 : Peer := { entry := { node := 7, role := 3, roleEpoch := 0, lead := 7, partner := some 9 } }
def self9 : Peer := { entry := { node := 9, role := 3, roleEpoch := 0, lead := 9, partner := some 7 } }
def paired (d : RecordData) : State := { homed d with forager := { (homed d).forager with peers := [self9, partner7] } }
/-- A generation device 6 that may take a request. -/
def peer6 : Peer := { entry := { node := 6, role := 2, roleEpoch := 0, lead := 6, partner := none } }

theorem letIn_of {s : State} {m : FHdr} {b : Bool} (h : s.boot.phase ≠ 0 ∧ jobStarted s = true ∧ msgStatus s m b = stOk ∧ s.beat.state ≠ .lost ∧
    (m.notBefore = 0 ∨ m.notBefore.toNat ≤ now s)) : LetIn s m b :=
  ⟨h.1, h.2.1, h.2.2.1, h.2.2.2.1, h.2.2.2.2⟩

/-- A renewal of the same handle has been sent to the mirror. -/
def mirrored : State := { homed data9 with
  forager := { (homed data9).forager with homeOps := [{ handle := handle9, msg := .renew m9, sent := true, acks := 1 }] } }

theorem witness_HomeOperations :
    (LetIn mirrored m9 true ∧ mirrored.forager.homeOps.find? (fun o => o.handle == m9.handle) =
      some { handle := handle9, msg := .renew m9, sent := true, acks := 1 }) ∧
    LetIn (homed data9) m9 true ∧ servesHome (homed data9) m9.handle = true ∧ (∀ o ∈ (homed data9).forager.homeOps, o.handle ≠ m9.handle) ∧
    (judge (queuedOp (homed data9) handle9 (.renew m9)) (.renew m9) = .change ∧ otherCopy (homed data9) = none) ∧
    (judge (queuedOp (homed { data9 with lease := 101 }) handle9 (.renew m9)) (.renew m9) = .change ∧
      judge (queuedOp (homed { data9 with lease := 100 }) handle9 (.renew m9)) (.renew m9) = .refuse stNotOwner) ∧
    (LetIn (paired data9) m9 true ∧ judge (queuedOp (paired data9) handle9 (.end_ m9 0)) (.end_ m9 0) = .change ∧ otherCopy (paired data9) = some 7) ∧
    (judge { homed { data9 with pending := some 6, proposed := true } with
        forager := { (homed { data9 with pending := some 6, proposed := true }).forager with peers := [peer6] } } (.propose m9 6) = .same) ∧
    (judge (homed data9) (.create m9 1 1 2 0 [] []) = .refuse stHandleInUse ∧ judge (homed data9) (.claim { m9 with src := 6 } 0 0) = .refuse stWrongRole ∧
      judge (homed data9) (.tokens m9 100 1 [7]) = .refuse stBounds ∧ judge (homed data9) (.tokens m9 99 1 [7]) = .change) :=
  ⟨⟨letIn_of (by decide), by decide⟩, letIn_of (by decide), by decide, by decide, by decide, by decide,
    ⟨letIn_of (by decide), by decide, by decide⟩, by decide, by decide⟩

theorem witness_HomeChanges :
    recOf (homed data9) handle9 = some { data := data9 } ∧ data9.claimed = false ∧ { data9 with claimed := true }.claimed = true ∧
    (data9.state ≠ recOrphaned ∧ data9.proposed = false ∧ { data9 with state := recOrphaned }.state = recOrphaned) ∧
    (({ data9 with epoch := 0xFFFFFFFE } : RecordData).epoch ≠ 0xFFFFFFFF ∧ ({ data9 with epoch := 0xFFFFFFFF } : RecordData).epoch = 0xFFFFFFFF ∧
      ({ data9 with lastc := some 7 } : RecordData).lastc = some 7 ∧ peerUp (paired { data9 with pending := some 7 }) 7 = true) ∧
    ({ data9 with lastc := some 7 }.owner ≠ some 7 ∧ data9.pending = none ∧ data9.lastc = none) := by decide

def data64 : RecordData := { data9 with plen := 64, clenh := 64, cb := 1 }
def placedRec (ps : List (Nat × Nat × Nat)) : HomeRec := { data := { data9 with cb := 0 }, hashes := [(0, 7)], placed := if ps = [] then [] else [(0, ps)] }
def committing (ps : List (Nat × Nat × Nat)) : State := { homed data9 with
  forager := { (homed data9).forager with recs := [placedRec ps] }
  committed := (rFgPfxCount, 16) :: (homed data9).committed }

/-- A block's COMMIT with no pages, in its turn. -/
def commitMsg : Instr := .commit m9 0 7 []
def committed (ps : List (Nat × Nat × Nat)) : HomeRec := { placedRec ps with placed := [(0, ps)], from_ := [(0, 5)] }
def placing (ps : List (Nat × Nat × Nat)) : State :=
  recMod (queuedOp (committing ps) handle9 commitMsg) handle9 fun r => { r with
    placed := tset r.placed 0 (tgetD r.placed 0 [] ++ []), from_ := r.from_ ++ [(0, 5)], hashes := r.hashes }

theorem witness_HomeReads :
    LetIn (homed data9) m9 true ∧ (servesHome (homed data9) handle9 = true ∧ recOf (homed data9) handle9 = some { data := data9 } ∧
      (homed data9).forager.homeOps = []) ∧
    recOf (homed { data9 with handle := 1 }) handle9 = none ∧
    (recOf (homed data64) handle9 = some { data := data64 } ∧ r146 (homed data64) m9 true = none ∧ mainLayout (homed data64) = some layout0 ∧
      (homed data64).sched.image = some (image9, 0) ∧ data64.cb ≤ 1 ∧ max data64.clenh data64.plen ≤ min data64.plen (64 * data64.cb)) ∧
    (r146 (committing []) m9 true = none ∧ recOf (committing []) handle9 = some (placedRec []) ∧ (placedRec []).done.contains 0 = false ∧
      (placedRec []).from_.contains (0, 5) = false ∧ cget (committing []) rFgPfxCount ≠ 0 ∧
      (placePages (queuedOp (committing []) handle9 commitMsg) 1 []) = some ([], queuedOp (committing []) handle9 commitMsg) ∧
      recOf (placing []) handle9 = some (committed []) ∧ blockPlaced (placing []) (committed []) 0 = false) ∧
    (r146 (committing [(0, 0, 3)]) m9 true = none ∧ recOf (committing [(0, 0, 3)]) handle9 = some (placedRec [(0, 0, 3)]) ∧
      recOf (placing [(0, 0, 3)]) handle9 = some (committed [(0, 0, 3)]) ∧ blockPlaced (placing [(0, 0, 3)]) (committed [(0, 0, 3)]) 0 = true ∧
      otherCopy (placing [(0, 0, 3)]) = none) :=
  ⟨letIn_of (by decide), by decide, by decide, by decide, by decide, by decide⟩

def mAt : FHdr := { m9 with handle := handle0, src := 7, epoch := 2 }
def owner (st : DescState) : Desc := { desc0 with state := st, cmd := 4, peer := some 7 }
def summary0 : ReqSummary := { client := 1, plen := 1, maxlen := 4096, cb := 0, clenh := 1, lease := 200 }

theorem witness_OwnerMessages :
    LetIn (asking [owner .fetching]) mAt false ∧
    (descOf (asking [owner .fetching]) handle0 = some (owner .fetching) ∧ descLayout (asking [owner .fetching]) (owner .fetching) = some layout0 ∧
      (placeFetched (asking [owner .fetching]) layout0 (owner .fetching) []).map (·.2) = some 0) ∧
    ((2 : Nat) < ({ owner .fetching with epoch := 3 } : Desc).epoch ∧ (owner .fetching).epoch ≤ 2 ∧ mAt.status ≠ stPoisoned) ∧
    (descOf (asking [owner .receiving]) handle0 = some (owner .receiving) ∧ (owner .receiving).lead = true ∧
      inAlloc (judgeDirect (applySummary (asking [owner .receiving]) handle0 2 summary0) handle0) 1 0x2000 (4 * 4096) = true) ∧
    (directFits (owner .fetching) 2 = false ∧ directFits { owner .fetching with epoch := 3 } 2 = true ∧ (owner .fetching).direct = none) ∧
    (descOf (asking [owner .handingOut]) handle0 = some (owner .handingOut) ∧ (owner .handingOut).cmd ≠ 0 ∧ (owner .handingOut).epoch < 2) ∧
    (descOf (asking []) handle0 = none ∧ freeDescIdx (asking []) = some 0) ∧ (owner .fetching).peer = some mAt.src.toNat :=
  ⟨letIn_of (by decide), by decide, by decide, by decide +kernel, by decide, by decide, by decide, by decide⟩

def asked (b : FBody) : Asked := { dst := 7, handle := handle0, epoch := 2, body := b }
def waiting (as : List Asked) (d : Desc) : State := { asking [d] with forager := { (asking [d]).forager with asked := as } }
def lastOwner : Desc := { owner .handingOut with clen := 128, clenh := 128, cb := 2 }
def done (d : Desc) : State := { asking [d] with sched := { (asking [d]).sched with steps := [] } }

theorem witness_RepliesAndLeases :
    (jobStarted (waiting [] desc0) = true ∧ mAt.roleEpoch = (waiting [] desc0).boot.roleEpoch ∧ (waiting [] desc0).beat.state ≠ .lost ∧
      mAt.notBefore.toNat ≤ now (waiting [] desc0) ∧ (waiting [] desc0).forager.asked.find? (answers mAt .propose) = none ∧ mAt.resv = false ∧
      mAt.status ≠ stRoleStale) ∧
    (fencedBy (waiting [] desc0) handle0 mAt.status = false ∧ fencedBy (waiting [] desc0) handle0 stNotOwner = true) ∧
    ([asked .renew].find? (answers mAt (.renew 300)) = some (asked .renew) ∧ [asked (.propose 6)].find? (answers mAt .propose) = some (asked (.propose 6)) ∧
      [asked (.claim none 0)].find? (answers mAt .claim) = some (asked (.claim none 0)) ∧
      [asked (.replicate (.tokens 0 []))].find? (answers mAt .replicate) = some (asked (.replicate (.tokens 0 [])))) ∧
    { mAt with roleEpoch := 1 }.roleEpoch ≠ (waiting [] desc0).boot.roleEpoch ∧
    (descOf (done lastOwner) handle0 = some lastOwner ∧ lastOwner.proposed = false ∧ stepOf (done lastOwner) handle0 = none ∧
      lastOwner.tokensOut = [] ∧ lastOwner.clen / 64 ≤ lastOwner.cb ∧ directRows (done lastOwner) lastOwner = []) ∧
    (hasBeat (done lastOwner) = true ∧ ({ lastOwner with lease := 100 } : Desc).lease ≤ now (done lastOwner)) ∧
    (servesHome (homed { data9 with lease := 100 }) handle9 = true ∧ hasBeat (homed data9) = true ∧ now (homed data9) = 100 ∧ data9.state = recOwned ∧
      otherCopy (homed data9) = none) ∧
    ({ up.forager with resilver := [7] } : Forager).resilver.contains (7 : NodeId).toNat = true := by decide

/-! ## Fabric, remote access, management -/

def cw (seq : BitVec 10) (ok : Bool) : CodewordIn := { seq := seq, ack := 5, decoded := ok, corrected := [0, 0, 0, 0], badLane := none }
def livePort : Port := { state := .up, width := 3, locked := 0xF }
def linked (p : Port) (q : List QPkt) : State := { jobOn with fabric := { jobOn.fabric with ports := [(5, p)], waiting := q } }
def stalled : QPkt := { input := 5, vc := 3, pkt := { rawPacket with vc := 3, dest := BitVec.ofNat 64 (9 * 2 ^ 50), beat := 100 }, age := 256 }

/-- Six codewords are sent, SEQ 0 to 5, and none is acknowledged. -/
def sending : Port := { livePort with txSeq := 6, replay := List.replicate 6 { seq := 0, ack := 0, stream := [] } }

theorem witness_LinksAndPorts :
    ((portGet (linked sending []) 5).state = .up ∧ (∀ n ∈ (cw 0 true).corrected, n = 0) ∧ (cw 0 true).seq.toNat = (sending.rxSeq + 1) % 1024 ∧
      (cw 9 true).seq.toNat ≠ (sending.rxSeq + 1) % 1024) ∧
    ((5 + 1024 - sending.ackSeq) % 1024 = 6 ∧ 0 < 6 ∧ 6 ≤ unacked sending ∧ { cw 0 true with ack := 1023 }.ack.toNat = sending.ackSeq) ∧
    ((cw 0 false).decoded = false ∧ (cw 0 false).badLane = none ∧ { cw 0 false with badLane := some 3 }.badLane = some 3) ∧
    (unacked sending ≠ 0 ∧ ({ sending with replays := 6 } : Port).replays < 7 ∧ 7 ≤ ({ sending with replays := 7 } : Port).replays) ∧
    (livePort.locked &&& 8#4 ≠ 0 ∧ widthOf (livePort.locked &&& ~~~8#4) = 2 ∧ widthOf 0xF = 3 ∧ 0 < min livePort.width (min 2 (widthOf 0xF)) ∧
      min livePort.width (min 2 (widthOf 0xF)) < livePort.width ∧ widthOf ((1#4) &&& ~~~1#4) = 0) ∧
    ((portGet (linked { livePort with state := .training } []) 5).state = .training ∧ min (widthOf 1) (widthOf 0xF) ≠ 0) ∧
    ((portGet (linked { livePort with state := .down } []) 5).state ≠ .up ∧ (portGet (linked { livePort with state := .held } []) 5).state = .held ∧
      (portGet (linked { livePort with state := .held } []) 5).holdEnd ≤ (linked { livePort with state := .held } []).beat.periods) ∧
    ((heads (linked livePort [stalled]).fabric.waiting).any fun q => q.vc == 3 && decide (256 ≤ q.age) && standsAt (linked livePort [stalled]) 5 q) = true := by
  decide

/-- A packet with its check words filled in for a key. -/
def sealed (key : DWord) (p : Packet) : Packet :=
  let p := { p with echk := checkWord key p }
  let p := { p with hchk := crc16 (pktHead30 p) }
  { p with pcrc := crc32c (pktHead p ++ p.payload ++ p.ext) }
/-- To node 9 from node 3, of a type, at an offset of region 3. -/
def toUs (type : Byte) (vc : BitVec 2) (aux : Word) (payload : List Byte) (off : Nat) : Packet :=
  sealed key3 { rawPacket with type := type, vc := vc, dest := BitVec.ofNat 64 (9 * 2 ^ 50 + off), src := 3, aux := aux, payload := payload, tag := 77 }
def writePkt : Packet := toUs 1 0 3 (List.replicate 128 7) (1048576 - 128)
def toOther : Packet := sealed 0 { rawPacket with dest := BitVec.ofNat 64 (8 * 2 ^ 50), hops := 1 }
def routed : State := { linked livePort [] with fabric := { (linked livePort []).fabric with active := [(8, 0x1005)] } }
def image9s : ScheduleImage := { image9 with frame := 16, entries := [{ off := 1, rs := 0, levels := 1, kind := .span 9 0x20 4 }] }
def spanning : State := { linked livePort [] with
  sched := { jobOn.sched with image := some (image9s, 0), job := .started 100 } }

theorem witness_PacketsAndCredits :
    (pktHopOk rawPacket = false ∧ pktHopOk writePkt = true ∧ writePkt.resv = false ∧ isDirected writePkt = false ∧
      packetLate jobOn writePkt = false ∧ packetLate jobOn { writePkt with beat := 100 } = true ∧ jobOn.fabric.node.isSome = true ∧
      pktNode writePkt = nodeNum jobOn ∧ pktPcrcOk writePkt = true ∧ pktPcrcOk { writePkt with payload := [] } = false) ∧
    (pktHopOk toOther = true ∧ isDirected toOther = false ∧ pktNode toOther ≠ nodeNum routed ∧ packetLate routed toOther = false ∧ toOther.hops ≠ 0 ∧
      (routePorts routed 0 8).find? (portUp routed) = some 5) ∧
    (linked livePort [stalled]).fabric.waiting.find? (fun q => q.vc == 3 && packetLate (linked livePort [stalled]) q.pkt &&
      standsAt (linked livePort [stalled]) 5 q) = some stalled ∧
    (({ livePort with timer := true } : Port).timer = true ∧ (portGet (linked livePort []) 5).state = .up) ∧
    (jobOrigin spanning = some 100 ∧ hasBeat spanning = true ∧ spanAt spanning 5 ((now spanning + 1 - 100) % 16) = some 9 ∧
      (portGet spanning 5).span ≠ some 9) := by decide +kernel

def waggle (ptr : Byte) (count : BitVec 5) (e : Word) : WaggleHdr := {
  port := 5
  src := 0
  dest := 0
  hops := 31
  sub := 0
  tag := 0
  aux := 0
  beat := 0
  route := 0
  back := 0
  ptr := ptr
  count := count
  routed := false
  mgr := 0
  fepoch := e
  resv := false
  body := [] }

/-- The body of a route write of one entry, 1, from node 16,383 on, and of an allocation of 50 W for one beat from beat 100 on. -/
def lastRoute (entry : Half) : List Byte := routeBody 0 16383 1 [entry] { resv1 := 0, resv6 := 0, padding := [0, 0, 0, 0, 0, 0] }
def oneBeat : List Byte := allocBody 50 100 1
/-- The device once it has taken a waggle of a kind on port 5. -/
def takenOf (s : State) (w : WaggleHdr) (kind : Byte) : State := oweCredit s 5 2 (pktCredits (wagglePacket w kind))
def plainW : WaggleHdr := waggle 0 0 0

theorem witness_Waggles :
    (waggleTransit (waggle 0 16 0) = true ∧ waggleTransit (waggle 16 16 0) = false) ∧
    (waggleCheck (takenOf jobOn { plainW with resv := true } 8) { plainW with resv := true } false false false = some stBadField ∧
      waggleCheck (takenOf jobOn plainW 2) plainW false true (decide (16383 < (16384 : Half).toNat)) = some stBadField ∧
      waggleCheck (takenOf up plainW 7) plainW false false false = some stNoRoute) ∧
    (waggleCheck (takenOf jobOn plainW 1) plainW true false false = none ∧ waggleCheck (takenOf jobOn plainW 2) plainW false true false = none ∧
      (takenOf up plainW 2).fabric.node = none ∧ (takenOf jobOn plainW 2).fabric.node ≠ some 16383 ∧
      (takenOf jobOn plainW 2).fabric.node = some 9 ∧ jobStarted (takenOf jobOn plainW 2) = true) ∧
    (let w := { plainW with body := lastRoute 0 }
     routeBodyBad w.body = false ∧ waggleCheck (takenOf jobOn w 3) w false false false = none) ∧
    (let w := { plainW with body := lastRoute 0x8000 }
     routeBodyBad w.body = true ∧ waggleCheck (takenOf jobOn w 3) w false false (routeBodyBad w.body) = some stBadField) ∧
    (let w := { plainW with body := allocBody 0x10032 100 1 }
     waggleCheck (takenOf jobOn w 8) w false false (allocBodyBad w.body) = some stBadField) ∧
    (waggleCheck (takenOf jobOn plainW 4) plainW false false false = none ∧ now (takenOf jobOn plainW 4) < (101 : BeatField).toNat ∧
      (100 : BeatField).toNat ≤ now (takenOf jobOn plainW 4)) ∧
    (heldStarts (takenOf jobOn plainW 7) = [] ∧ (1 : Half).toNat = imageJob (takenOf jobOn plainW 7)) ∧
    (let w := { plainW with body := oneBeat }
     let t := takenOf { jobOn with power := { jobOn.power with mode := 1 } } w 8
     allocBodyBad w.body = false ∧ waggleCheck t w false false false = none ∧ t.power.mode ≠ 0 ∧
      now t < (100 : BeatField).toNat + (1 : BitVec 48).toNat % 65536) := by
  decide

theorem arrives_of {s : State} {arr : Option PortId} {p : Packet} {type : Byte}
    (h : s.boot.phase ≠ 0 ∧ p.type = type ∧ pktHchkOk p = true ∧ pktTypeOk p = true ∧ s.fabric.node.isSome = true ∧ pktNode p = nodeNum s ∧
      pktPcrcOk p = true ∧ packetLate (takenIn s arr p) p = false ∧ pktFormOk p = true ∧ pktSpanOk p = true ∧ p.resv = false) :
    Arrives s arr p type :=
  ⟨h.1, h.2.1, h.2.2.1, h.2.2.2.1, h.2.2.2.2.2.2.2.2.2.1, h.2.2.2.2.1, h.2.2.2.2.2.1, h.2.2.2.2.2.2.1, h.2.2.2.2.2.2.2.1,
    h.2.2.2.2.2.2.2.2.2.2, h.2.2.2.2.2.2.2.2.1⟩

def line0 (isRead : Bool) : LineOp := {
  tag := 77
  isRead := isRead
  fn := 1
  ctx := 1
  cell := 0
  dma := 1
  line := 0
  dest := BitVec.ofNat 64 (3 * 2 ^ 50)
  key := key3
  mem := 0
  space := 2
  addr := 0
  data := 0
  data2 := 0
  poison := false
  sent := true }
def send0 : SendTx := { tag := 77, fn := 1, cmd := 0, node := 3, slot := 0, key := key3, gen := 1, src := 0, len := 8, inFlight := true }
def tracking (ls : List LineOp) (xs : List SendTx) : State := { jobOn with remote := { jobOn.remote with lines := ls, sends := xs } }
def posted : State := { regioned queue3 with remote := { (regioned queue3).remote with
  slots := [(0, { buf := 256, size := 512, gen := 1, state := .posted })] } }
def returned : List Byte := leBytes 16 1 ++ leBytes 4 77 ++ leBytes 12 0

theorem witness_RemotePackets :
    (Arrives (regioned region3) (some 5) writePkt 1 ∧ admitStatus (regioned region3) writePkt = (stOk, true) ∧
      regionOf (regioned region3) (pktRegion writePkt) = some region3) ∧
    (admitStatus (regioned { region3 with wr := false }) writePkt = (stRights, true) ∧ admitStatus ready9 writePkt = (stKeyInvalid, false)) ∧
    (Arrives (regioned region3) none (toUs 2 0 3 [] 0) 2 ∧ admitStatus (regioned region3) (toUs 2 0 3 [] 0) = (stOk, true)) ∧
    (Arrives posted none (toUs 4 0 1 (List.replicate 8 9) (3 * 2 ^ 30 + 256)) 4 ∧
      admitStatus posted (toUs 4 0 1 (List.replicate 8 9) (3 * 2 ^ 30 + 256)) = (stOk, true) ∧ pktRegion (toUs 4 0 1 (List.replicate 8 9) (3 * 2 ^ 30 + 256)) = 3) ∧
    (Arrives posted none (toUs 6 0 1 [0, 2, 0, 0, 0, 0, 0, 0] (3 * 2 ^ 30)) 6 ∧
      admitStatus posted (toUs 6 0 1 [0, 2, 0, 0, 0, 0, 0, 0] (3 * 2 ^ 30)) = (stOk, true)) ∧
    (Arrives (tracking [line0 true] []) none (toUs 3 1 0 (List.replicate 128 9) 0) 3 ∧
      (tracking [line0 true] []).remote.lines.find? (fun l => l.tag % 2 ^ 32 == 77 && l.sent && l.dest.toNat / 2 ^ 50 == 3 && l.isRead) = some (line0 true) ∧
      checkWord key3 (toUs 3 1 0 (List.replicate 128 9) 0) = (toUs 3 1 0 (List.replicate 128 9) 0).echk ∧
      openPacket (tracking [line0 true] []) (toUs 3 1 0 (List.replicate 128 9) 0) = some (List.replicate 128 9) ∧ settles false 0 = true) ∧
    (Arrives (tracking [line0 false] []) none (toUs 5 1 0 [] 0) 5 ∧ checkWord key3 (toUs 5 1 0 [] 0) = (toUs 5 1 0 [] 0).echk ∧
      openPacket (tracking [line0 false] []) (toUs 5 1 0 [] 0) = some []) ∧
    (Arrives (tracking [] [send0]) none (toUs 7 1 0 [] 0) 7 ∧ (∀ y ∈ (tracking [] [send0]).remote.sends, y.forager = false) ∧
      (tracking [] [send0]).remote.sends.find? (fun y => y.tag % 2 ^ 32 == 77 && y.inFlight && y.node == 3 && !y.forager) = some send0 ∧ settles true 0 = true) ∧
    (Arrives (tracking [line0 false] []) none (toUs 0x13 2 5 returned 0) 0x13 ∧ leNat ((toUs 0x13 2 5 returned 0).payload.take 1) = 1 ∧ (5 : Half) ≠ stBadField ∧
      (tracking [line0 false] []).remote.sends = [] ∧
      (tracking [line0 false] []).remote.lines.find? (fun l => l.tag % 2 ^ 32 == leNat (((toUs 0x13 2 5 returned 0).payload.drop 16).take 4) && l.sent &&
        !l.isRead) = some (line0 false)) ∧
    ((Arrives ready9 none (toUs 2 0 3 [] 0) 2 ∧ Arrives ready9 none (toUs 4 0 1 (List.replicate 8 9) (3 * 2 ^ 30)) 4 ∧
        Arrives ready9 none (toUs 6 0 1 [0, 2, 0, 0, 0, 0, 0, 0] (3 * 2 ^ 30)) 6) ∧
      [admitStatus ready9 (toUs 2 0 3 [] 0), admitStatus ready9 (toUs 4 0 1 (List.replicate 8 9) (3 * 2 ^ 30)),
        admitStatus ready9 (toUs 6 0 1 [0, 2, 0, 0, 0, 0, 0, 0] (3 * 2 ^ 30))] = List.replicate 3 (stKeyInvalid, false)) :=
  ⟨⟨arrives_of (by decide +kernel), by decide +kernel⟩, by decide +kernel, ⟨arrives_of (by decide +kernel), by decide +kernel⟩,
    ⟨arrives_of (by decide +kernel), by decide +kernel⟩,
    ⟨arrives_of (by decide +kernel), by decide +kernel⟩, ⟨arrives_of (by decide +kernel), by decide +kernel⟩,
    ⟨arrives_of (by decide +kernel), by decide +kernel⟩, ⟨arrives_of (by decide +kernel), by decide +kernel⟩,
    ⟨arrives_of (by decide +kernel), by decide +kernel⟩,
    ⟨arrives_of (by decide +kernel), arrives_of (by decide +kernel), arrives_of (by decide +kernel)⟩, by decide +kernel⟩

def admitted0 (p : Packet) : Admitted := { id := 4, region := 3, place := 1024, pkt := p }
def admitting (p : Packet) : State := { posted with remote := { posted.remote with
  admitted := [admitted0 p], slots := [(0, { buf := 256, size := 512, gen := 1, state := .filling, tag := 77 })] } }
def timedOut (n : Nat) : LineOp := { line0 true with attempts := n, until_ := 100 }
def dmaIn : DmaOp := { dma0 with
  srcSpace := 3, src := 3 * 2 ^ 50, key := key3, started := true, len := 128, dstAt := (0, 8192), linesToIssue := 1 }
def reaching : State := { jobOn with grid := { jobOn.grid with cells := [(0, { windows := [win0], dma := [dmaIn] })] } }

theorem witness_RemoteCompletions :
    ((takeAdmitted (admitting writePkt) 4 1).map (·.1) = some (admitted0 writePkt) ∧ regionOf (admitting writePkt) 3 = some queue3 ∧
      (regionOf (rangeWrite (admitting writePkt) 1024 (List.replicate 64 7) false).1 3).isSome = true) ∧
    (takeAdmitted (admitting (toUs 2 0 3 [] 0)) 4 2).map (·.1) = some (admitted0 (toUs 2 0 3 [] 0)) ∧
    ((takeAdmitted (admitting (toUs 4 0 1 [9] 0)) 4 4).map (·.1) = some (admitted0 (toUs 4 0 1 [9] 0)) ∧
      (slotOf (admitting (toUs 4 0 1 [9] 0)) 0).state = .filling ∧ (slotOf (admitting (toUs 4 0 1 [9] 0)) 0).gen = (toUs 4 0 1 [9] 0).aux.toNat ∧
      (slotOf (admitting (toUs 4 0 1 [9] 0)) 0).tag = (toUs 4 0 1 [9] 0).tag) ∧
    ((tracking [timedOut 3] []).remote.lines.find? (fun l => l.tag == 77) = some (timedOut 3) ∧
      (timedOut 3).sent = true ∧ attemptOver (tracking [timedOut 3] []) 100 none = true ∧ (timedOut 3).attempts ≤ cfld (tracking [timedOut 3] []) rRaCfg 11 8 ∧
      cfld (tracking [timedOut 4] []) rRaCfg 11 8 < (timedOut 4).attempts) ∧
    ((tracking [] [{ send0 with inFlight := false }]).remote.sends.find? (fun t => !t.inFlight && !t.forager) =
        some { send0 with inFlight := false } ∧
      sendsInFlight (tracking [] [{ send0 with inFlight := false }]) < 1024) ∧
    nextLineDma jobOn = none ∧
    (nextLineDma reaching = some (0, dmaIn) ∧ reaching.remote.lines.length < 8192 ∧ dmaIn.srcSpace = 3 ∧ nodeDown reaching 3 = false ∧
      ((tget reaching.sched.ctxs 1).map fun x => x.prot).getD false = false) := by decide +kernel

def managed (m : Mgmt) (regs : Tab Word) : State := { up with mgmt := m, committed := regs }
def i3cMgmt : Mgmt := { up.mgmt with i3cOn := true, daddr := some 8, ibiOn := true }
def sgmiiMgmt : Mgmt := { up.mgmt with serving := true, link := .up1000, mac := some 2, boot := 1, mkey := none }
def request (len : Half) (body : List Byte) : MgmtFrame := { frame with version := 1, length := len, body := body }
def eFrame (len : Half) (body : List Byte) : MgmtFrame := { request len body with sgmii := true, dst := 2, ethertype := 0x88B5, boot := 1, seq := 1 }

theorem witness_ManagementFrames :
    frameAccepted up frame = false ∧ frame.otherKind = none ∧
    (headStatus (managed i3cMgmt []) (frameKind 1 { request 0 [] with otherKind := some 9 }) { request 0 [] with otherKind := some 9 } = some stBadOpcode) ∧
    (frameAccepted (managed i3cMgmt []) frame = true ∧ tagFails (managed i3cMgmt []) 1 frame = false ∧
      headStatus (managed i3cMgmt []) 1 frame = some stBadField) ∧
    (frameAccepted (managed i3cMgmt []) (request 8 [8, 0, 0, 0, 1, 0, 0, 0]) = true ∧
      headStatus (managed i3cMgmt []) 1 (request 8 [8, 0, 0, 0, 1, 0, 0, 0]) = none ∧
      tailStatus (managed i3cMgmt []) 1 (request 8 [8, 0, 0, 0, 1, 0, 0, 0]) = stOk) ∧
    (headStatus (managed i3cMgmt []) 2 (request 12 [0, 0, 0xF0, 0, 1, 0, 0, 0, 0, 0, 0, 0]) = none ∧
      tailStatus (managed i3cMgmt []) 2 (request 12 [0, 0, 0xF0, 0, 1, 0, 0, 0, 0, 0, 0, 0]) = stOk) ∧
    (headStatus (managed i3cMgmt []) 3 (request 0 []) = none ∧ headStatus (managed i3cMgmt []) 4 (request 8 [255, 0, 0, 0, 0, 0, 0, 0]) = none) ∧
    (headStatus (managed i3cMgmt []) 5 (request 8 [8, 0, 0, 0, 0, 0, 0, 0]) = none ∧
      tailStatus (managed i3cMgmt []) 5 (request 8 [8, 0, 0, 0, 0, 0, 0, 0]) = stOk) ∧
    (sgmiiUp (managed sgmiiMgmt []) = true ∧ collector (managed sgmiiMgmt [(rMgCollectorLo, 2)]) ≠ 0 ∧
      cfld (managed sgmiiMgmt [(rMgCfg, 0x88B50100)]) rMgCfg 15 8 ≠ 0 ∧ cfld (managed sgmiiMgmt [(rMgCfg, 0x88B50100)]) rMgCfg 0 0 = 0) := by decide +kernel

/-- With a management key a frame whose tag is not its HMAC fails. -/
theorem witness_ManagementFrames_tag :
    frameAccepted (managed { sgmiiMgmt with mkey := some [] } [(rMgCfg, 0x88B50000)]) (eFrame 0 []) = true ∧
    tagFails (managed { sgmiiMgmt with mkey := some [] } []) 3 (eFrame 0 []) = true := by decide +kernel

theorem witness_I3cAndTestAccess :
    (scanOwnsPins up = false ∧ scanOwnsPins { up with mgmt := { i3cMgmt with tap := .clamp } } = true ∧ ({} : Mgmt).i3cOn = false) ∧
    (up.boot.phase ≠ 0 ∧ i3cMgmt.i3cOn = true ∧ up.mgmt.daddr = none ∧ i3cMgmt.daddr.isSome = true ∧ i3cMgmt.ibiOn = true ∧
      cfld (managed i3cMgmt [(rMgCfg, 0x88B50001)]) rMgCfg 0 0 = 1 ∧ i3cMgmt.sent < ({ up.reliab with seq := 1 } : Reliab).seq) ∧
    ((254 : Byte) ≠ 0 ∧ (254 : Byte) ≠ 0xFF) ∧
    (({ up.mgmt with tap := .regacc } : Mgmt).tap = .regacc ∧ bits (0x40000000 : DWord).toNat 31 30 = 1 ∧ bits (0x80000000 : DWord).toNat 31 30 = 2 ∧
      mgmtMayWrite rMgCfg = true ∧ mgmtMayWrite rBtCtl = false) ∧
    (bit ({ up.sec with debug := 2 } : Security).debug 1 = 1 ∧ bit up.sec.debug 1 = 0) := by decide +kernel

/-! ## Statements over every command -/

theorem witness_StepTakesTheFront : ({ up with pending := [.rngFail, .marker 0 0 true] } : State).pending = .rngFail :: [.marker 0 0 true] ∧ up.pending = [] := by
  decide

theorem witness_BeatUnitKept : up.beat.Ok ∧ (edging { state := .holdover, count := maxBeat, held := 256 }).beat.Ok ∧ ∃ t, step up = .next t :=
  ⟨⟨by decide, by decide, by decide, by decide⟩, ⟨by decide, by decide, by decide, by decide⟩, ⟨_, rfl⟩⟩

theorem witness_QueueKept : ∃ t, exec .rngFail { up with pending := [.rngFail] } = .next t ∧ t.pending = [.rngFail] := ⟨_, rfl, rfl⟩

theorem witness_NothingRunsUnpowered : movesBeat .rngFail = false ∧ Instr.rngFail ≠ .perstBeforeReady ∧ State.reset.boot.phase = 0 :=
  ⟨rfl, by decide, rfl⟩

theorem witness_NoUnlistedTransition : movesBeat .rngFail = false ∧ (∃ t, exec .rngFail up = .next t) ∧ Instr.rngFail ≠ .perstBeforeReady ∧
    State.reset.boot.phase = 0 := ⟨rfl, ⟨_, rfl⟩, by decide, rfl⟩


/-- One word of each row of R51, and an illegal one. -/
theorem witness_EveryCommandActs :
    ([wordR 0 0 1 2 3 0 0, wordI 1 3 4 3 0 0, wordI 1 10 4 1 0 0, wordI 1 11 4 1 0 0, wordI 1 12 4 1 0 0, wordI 2 0 0 0 0 1, wordR 2 6 63 0 1 0 0,
        wordI 2 7 1 2 0 0, wordR 3 0 31 31 31 0 3, wordI 4 0 31 2 0 0, wordI 4 1 31 1 0 0, wordR 4 2 31 63 0 0 0, wordR 5 0 31 31 0 0 2,
        wordR 5 2 31 31 31 0 0, wordI 5 3 63 31 1 31, wordI 7 0 0 31 0 31, wordI 7 1 31 0 0 31, wordI 7 2 63 0 0 31, wordI 8 0 0 1 0 0,
        wordI 9 0 0 0 0 255, wordI 9 1 3 0 0 0, wordR 10 0 0 0 0 0 0, wordI 10 0 1 0 0 9, wordI 10 1 0 0 0 0].map rowOf) =
      [Row.scalarAlu, .scalarLoad, .scalarStore, .amoadd, .amocas, .branch, .jal, .jalr, .vectorAlu, .vld, .vst, .vbcast, .vectorReduce, .vperm, .vext,
        .send, .recv, .probe, .dma, .bar, .waitc, .nop, .sysRd, .halt].map some ∧
    ([wordI 9 16 3 1 0 1023, wordI 9 17 0 1 0 1023, wordI 9 18 1 0 0 1023, wordI 9 19 1 0 0 1023, wordI 9 20 0 0 0 0, wordI 9 21 0 0 0 0,
        wordI 9 22 1 0 0 1023, wordI 9 23 1 0 0 1023, wordR 6 0 0 1 2 0 0, wordI 6 0 0 1 0 0, wordI 6 1 0 1 0 0, wordR 6 1 63 0 0 0 0].map rowOf) =
      [Row.semacq, .semrel, .semtry, .semrd, .critEnter, .critExit, .semcancel, .semheld, .mma, .mlda, .mst, .mstat].map some ∧
    rowOf { word := 0xF000000000000000 } = none := by decide

/-! ## Answers from the spec's words and from published vectors -/

/-- What one command leaves of the state, by a reading of it. -/
def after (c : Instr) (s : State) (f : State → Nat) : Option Nat :=
  match step { s with pending := [c] } with
  | .next t => some (f t)
  | _ => none

/-- The published check values of CRC-32C and of CRC-16 with polynomial 0x1021 and all-ones start: those of the nine digits "123456789". -/
theorem test_crc : crc32c [0x31, 0x32, 0x33, 0x34, 0x35, 0x36, 0x37, 0x38, 0x39] = 0xE3069283 ∧
    crc16 [0x31, 0x32, 0x33, 0x34, 0x35, 0x36, 0x37, 0x38, 0x39] = 0x29B1 := by decide +kernel

/-- R51: ADD wraps at 64 bits; R41: a write of g0 is discarded. -/
theorem test_add_wraps : after (.scalarAlu 0 0 (wordR 0 0 1 2 3 0 0)) (onCell [(2, 0xFFFFFFFFFFFFFFFF), (3, 2)] {})
    (fun t => gGet (workerGet t 0 0) 1) = some 1 := by decide +kernel
theorem test_add_g0 : after (.scalarAlu 0 0 (wordR 0 0 0 2 3 0 0)) (onCell [(2, 5), (3, 2)] {})
    (fun t => gGet (workerGet t 0 0) 0 + (workerGet t 0 0).pc.toNat) = some 8 := by decide +kernel

/-- R52: the corners of division. -/
theorem test_div_corners : scalarOp 0x4 7 0 = .is (2 ^ 64 - 1) ∧ scalarOp 0x5 7 0 = .is (2 ^ 64 - 1) ∧
    scalarOp 0x5 (2 ^ 63) (2 ^ 64 - 1) = .is (2 ^ 63) := by decide +kernel

/-- Round to nearest even, by hand: 1 + 2⁻⁸ is a tie of bfloat16 and goes to 1; 1 + 3·2⁻⁸ goes to 1 + 2⁻⁶. -/
theorem test_bf16_ties : bf16.encode (fp32.decode 0x3F808000) = 0x3F80 ∧ bf16.encode (fp32.decode 0x3F818000) = 0x3F82 := by decide +kernel

end Sys2Proof.Tests
end

section
/-!
PROOFS. Paired reads (R39, R379): what a read of a low half and of a high half of the beat unit's register pairs answers and latches.
-/

namespace Sys2Proof.Machine

/-- Each path has its own latches. -/
theorem pathNum_injective : Function.Injective pathNum := by
  intro p q h
  cases p <;> cases q <;> simp only [pathNum, Path.vf.injEq, Fin.ext_iff] at h ⊢ <;> omega

/-- Latches of one offset on two paths are two entries. -/
theorem latchKey_ne {p q : Path} (h : q ≠ p) (o : Nat) : pathNum q * 2 ^ 26 + o ≠ pathNum p * 2 ^ 26 + o := by
  have := pathNum_injective.ne h
  omega

/-- The registers `o` and `o + 4` are a pair that R39 latches: a low half in a block's span whose read takes no free value, and its
high half. -/
structure LatchedPair (o : Nat) : Prop where
  low : (regRow? o).isSome = true
  high : (regRow? (o + 4)).isSome = true
  latches : latchHigh o = some (o + 4)
  live : isLatched o = false
  notPhase : o ≠ rBtPhase
  notStress : o ≠ rRlStress
  lowSpan : inSpan o = true
  highSpan : inSpan (o + 4) = true
  aligned : o % 4 = 0
  bound : o + 4 < 2 ^ 26

/-- The three pairs of R39. -/
theorem latchedPair_beat {o : Nat} (h : o ∈ [rBtNowLo, rBtOriginLo, rBtMissLogLo]) : LatchedPair o := by
  simp only [List.mem_cons, List.not_mem_nil, or_false] at h
  obtain rfl | rfl | rfl := h <;> constructor <;> decide +kernel

section
variable {o : Nat}

theorem LatchedPair.high_isLatched (h : LatchedPair o) : isLatched (o + 4) = true := by
  simp [isLatched, h.latches]

/-- R39: a read of a low half answers it and latches the high half on its path. -/
theorem readReg_low (h : LatchedPair o) (s : State) (p : Path) :
    readReg s p o = (viewReg s o,
      { s with latches := tset s.latches (pathNum p * 2 ^ 26 + (o + 4)) (BitVec.ofNat 32 (viewReg s (o + 4))) }) := by
  have hrow : (regRow? o).isNone = false := by simp [Option.isNone_eq_false_iff, h.low]
  have hlive : liveReg s o = (viewReg s o, s) := by simp [liveReg, h.notPhase, h.notStress]
  simp only [readReg, hrow, h.live, hlive, h.latches, Bool.false_eq_true, if_false]

/-- R39: a read of a high half answers what is latched on its path, and changes nothing. -/
theorem readReg_high (h : LatchedPair o) (s : State) (p : Path) :
    readReg s p (o + 4) = ((tgetD s.latches (pathNum p * 2 ^ 26 + (o + 4)) 0).toNat, s) := by
  have hrow : (regRow? (o + 4)).isNone = false := by simp [Option.isNone_eq_false_iff, h.high]
  simp only [readReg, hrow, h.high_isLatched, Bool.false_eq_true, if_false, if_true]

/-- After a read of the low half on a path, a read of the high half on that path answers the half of that moment. -/
theorem readReg_low_high_same (h : LatchedPair o) (s : State) (p : Path) :
    (readReg (readReg s p o).2 p (o + 4)).1 = (BitVec.ofNat 32 (viewReg s (o + 4))).toNat := by
  simp only [readReg_low h, readReg_high h, tgetD_tset_same]

/-- R379: a read of the low half on one path leaves what the high half answers on another. -/
theorem readReg_low_high_other (h : LatchedPair o) (s : State) {p q : Path} (hq : q ≠ p) :
    (readReg (readReg s p o).2 q (o + 4)).1 = (readReg s q (o + 4)).1 := by
  simp only [readReg_low h, readReg_high h, tgetD_tset_other _ _ _ (latchKey_ne hq (o + 4))]

/-- A read of one aligned register is one 4-byte read (R427). -/
theorem readSpan_word (s : State) (p : Path) {off : Nat} (ha : off % 4 = 0) :
    readSpan s p 0 off 4 = ((readReg s p off).2, leBytes 4 (readReg s p off).1) := by
  have hoff : 0 + off / 4 * 4 = off := by omega
  simp only [readSpan, ha, hoff]
  rfl

/-- A read of one aligned register from PF0 after READY. -/
theorem accessRead_bar0_word {s : State} {off : Nat} (hs : s.boot.phase = 7) (hi : inSpan off = true) (ha : off % 4 = 0) :
    accessRead s .bar0 off 4 = emit (readReg s .bar0 off).2 (.completion 0 (leBytes 4 (readReg s .bar0 off).1) false) := by
  simp [accessRead, hs, hi, readSpan_word s .bar0 ha]

/-- A read of one aligned register on a management path that serves. -/
theorem accessRead_management_word {s : State} {p : Path} {off : Nat} (hp : p ∈ [Path.sgmii, .i3c, .tap])
    (hs : pathServes s p = true) (ha : off % 4 = 0) : accessRead s p off 4 = (readReg s p off).2 := by
  simp only [List.mem_cons, List.not_mem_nil, or_false] at hp
  obtain rfl | rfl | rfl := hp <;> simp [accessRead, hs, readSpan_word s _ ha]

/-- LO_HALF_READ_LATCH is a read access on its path that leaves the beat unit and the queue alone. -/
theorem exec_loHalfReadLatch (s : State) (p : Path) (r : RegRead) :
    exec (.loHalfReadLatch p r) s = .next (quiet s (accessRead s p r.off.toNat r.len)) := rfl

/-- A read command of one register is the access at its offset. -/
theorem exec_loHalfReadLatch_word (s : State) (p : Path) {off : Nat} (hb : off < 2 ^ 26) :
    exec (.loHalfReadLatch p ⟨BitVec.ofNat 26 off, 4⟩) s = .next (quiet s (accessRead s p off 4)) := by
  have hoff : (BitVec.ofNat 26 off).toNat = off := by rw [BitVec.toNat_ofNat, Nat.mod_eq_of_lt hb]
  rw [exec_loHalfReadLatch, hoff]

/-- From PF0 the read of a low half completes with it and latches its high half. -/
theorem exec_read_low_bar0 (h : LatchedPair o) {s : State} (hs : s.boot.phase = 7) :
    ∃ t, exec (.loHalfReadLatch .bar0 ⟨BitVec.ofNat 26 o, 4⟩) s = .next t ∧
      t.tx = .completion 0 (leBytes 4 (viewReg s o)) false :: s.tx ∧
      tget t.latches (o + 4) = some (BitVec.ofNat 32 (viewReg s (o + 4))) := by
  have hp : Powered s := by simp [Powered, hs]
  refine ⟨_, exec_loHalfReadLatch_word s .bar0 (by have := h.bound; omega), ?_, ?_⟩
  · rw [quiet_tx hp, accessRead_bar0_word hs h.lowSpan h.aligned, readReg_low h]
    rfl
  · rw [quiet_latches hp, accessRead_bar0_word hs h.lowSpan h.aligned, readReg_low h]
    simp [pathNum, tget_tset_same]

/-- From PF0 the read of a high half completes with what is latched there. -/
theorem exec_read_high_bar0 (h : LatchedPair o) {s : State} (hs : s.boot.phase = 7) {w : Word}
    (hw : tget s.latches (o + 4) = some w) :
    ∃ t, exec (.loHalfReadLatch .bar0 ⟨BitVec.ofNat 26 (o + 4), 4⟩) s = .next t ∧ t.latches = s.latches ∧
      t.tx = .completion 0 (leBytes 4 w.toNat) false :: s.tx := by
  have hp : Powered s := by simp [Powered, hs]
  have ha : (o + 4) % 4 = 0 := by have := h.aligned; omega
  refine ⟨_, exec_loHalfReadLatch_word s .bar0 h.bound, ?_, ?_⟩
  · rw [quiet_latches hp, accessRead_bar0_word hs h.highSpan ha, readReg_high h, emit_latches]
  · rw [quiet_tx hp, accessRead_bar0_word hs h.highSpan ha, readReg_high h]
    simp [emit, pathNum, tgetD, hw]

/-- A read of a low half on a management path that serves latches there. -/
theorem exec_read_low_management (h : LatchedPair o) {s : State} {p : Path} (hp : p ∈ [Path.sgmii, .i3c, .tap])
    (hs : pathServes s p = true) :
    exec (.loHalfReadLatch p ⟨BitVec.ofNat 26 o, 4⟩) s = .next (quiet s (readReg s p o).2) := by
  rw [exec_loHalfReadLatch_word s p (by have := h.bound; omega), accessRead_management_word hp hs h.aligned]

end

/-- Settles O27: the three offsets are latched pairs, and each clause is what a read of such a pair does. -/
theorem pairedReads : Obligations.PairedReads := by
  intro s hs o ho
  have h := latchedPair_beat ho
  refine ⟨exec_read_low_bar0 h hs, fun _ hw => exec_read_high_bar0 h hs hw, fun p hp => ⟨?_, ?_, ?_, ?_, ?_⟩⟩
  · rw [readReg_low h]
  · exact readReg_low_high_same h s p
  · rw [readReg_high h]
  · exact fun q hq => readReg_low_high_other h s hq
  · exact fun hb => exec_read_low_management h (List.mem_of_ne_of_mem hb hp)

end Sys2Proof.Machine
end

section
/-!
PROOFS. Commands while the device has no beat number (R27): the check of the beat fields, and what a command refused by it leaves.
-/

namespace Sys2Proof.Machine

/-- R25: the states without a beat number. -/
theorem hasBeat_eq_false_iff {s : State} :
    hasBeat s = false ↔ s.beat.state = .unlocked ∨ s.beat.state = .acquiring ∨ s.beat.state = .lost := by
  unfold hasBeat
  cases s.beat.state <;> decide

section
variable {s : State} {h : CmdHdr} {op : HostOp}

/-- A command that passes the rows of R303 before the beat fields comes to what these say. -/
theorem parseCheck_eq_beatCheck (hpf : opPf0 op = false ∨ h.fn.val = 0) (hresv : h.resv = false)
    (hrole : opRoleOk (roleOf s) op = true) (hepoch : opEpoch op = false ∨ h.roleEpoch.toNat = roleEpoch s) :
    parseCheck s h op = beatCheck s h op := by
  have hpf' : (opPf0 op && h.fn.val != 0) = false := by obtain e | e := hpf <;> simp [e]
  have hepoch' : (opEpoch op && h.roleEpoch.toNat != roleEpoch s) = false := by obtain e | e := hepoch <;> simp [e]
  simp [parseCheck, hpf', hresv, hrole, hepoch']

/-- R27: without a beat number a non-zero beat field is refused. -/
theorem beatCheck_withoutBeat (hb : hasBeat s = false) (hf : h.notBefore ≠ 0 ∨ h.deadline ≠ 0) :
    beatCheck s h op = .refuse stBeatLost := by
  have hf' : (h.notBefore.toNat != 0 || h.deadline.toNat != 0) = true := by
    simpa [BitVec.toNat_eq] using hf
  simp only [beatCheck, hb, hf', Bool.not_false, Bool.and_self, if_true]

/-- R27: OP_START_JOB is refused outside LOCKED, whatever its beat fields. -/
theorem beatCheck_startJob (hl : s.beat.state ≠ .locked) : beatCheck s h .startJob = .refuse stBeatLost := by
  simp [beatCheck, hl]

/-- R27: a command without beat fields starts in every state, OP_START_JOB in LOCKED. -/
theorem beatCheck_zero (hn : h.notBefore = 0) (hd : h.deadline = 0) (hj : op ≠ .startJob ∨ s.beat.state = .locked) :
    beatCheck s h op = .start := by
  have hj' : (op == .startJob && s.beat.state != .locked) = false := by obtain e | e := hj <;> simp [e]
  simp [beatCheck, hn, hd, hj']

/-- A command that the parse refuses is taken in and refused. -/
theorem takeCommand_refused {st : Half} (hc : parseCheck s h op = .refuse st) :
    takeCommand s h op = refuseParsed (enterCmd s h op 2) (freshCmd s) op st := by
  simp only [takeCommand, hc]

/-- R168: the refusal of a command of the forager's chapter is noted there. -/
theorem refuseParsed_forager {q : DWord} (hq : foragerOp op = some q) (cmd : Nat) (st : Half) :
    refuseParsed s cmd op st = finishCmd (noteRefusal s 0 st q) cmd st 0 := by
  simp only [refuseParsed, hq]
  rfl

/-- The refusal of any other command is its reply alone. -/
theorem refuseParsed_other (hq : foragerOp op = none) (cmd : Nat) (st : Half) :
    refuseParsed s cmd op st = finishCmd s cmd st 0 := by
  simp only [refuseParsed, hq]
  rfl

end

/-- Settles O60: past the earlier rows of R303 the beat fields decide, and a refusal of theirs ends the command with ST_BEAT_LOST. -/
theorem commandsWithoutBeat : Obligations.CommandsWithoutBeat := by
  intro s h op hpf hresv hrole hepoch noted lost
  have hparse : parseCheck s h op = beatCheck s h op := parseCheck_eq_beatCheck hpf hresv hrole hepoch
  have hlost (hb : beatCheck s h op = .refuse stBeatLost) : takeCommand s h op = lost := by
    rw [takeCommand_refused (hparse.trans hb)]
    cases hq : foragerOp op with
    | none => simp only [refuseParsed_other hq, lost, noted, hq]
    | some q => simp only [refuseParsed_forager hq, lost, noted, hq]
  refine ⟨fun hs hf => ?_, fun hn hd hj => ?_, fun hl hn hd _ => ?_, fun hl hj => ?_⟩
  · exact hlost (beatCheck_withoutBeat (hasBeat_eq_false_iff.mpr hs) hf)
  · exact hparse.trans (beatCheck_zero hn hd (.inl hj))
  · exact hparse.trans (beatCheck_zero hn hd (.inr hl))
  · subst hj
    exact hlost (beatCheck_startJob hl)

end Sys2Proof.Machine
end

section
/-!
PROOFS. Every command: the form of its answer. A cell instruction runs in the frame of its row, every other command answers a next
state, and but for the events of the beat unit and PERST that state is `quiet`.
-/

namespace Sys2Proof.Machine

/-- The row of a cell instruction. -/
def insnRow : Instr → Option Row
  | .scalarAlu .. => some .scalarAlu | .scalarLoad .. => some .scalarLoad | .scalarStore .. => some .scalarStore
  | .amoadd .. => some .amoadd | .amocas .. => some .amocas | .branch .. => some .branch | .jal .. => some .jal
  | .jalr .. => some .jalr | .vectorAlu .. => some .vectorAlu | .vld .. => some .vld | .vst .. => some .vst
  | .vbcast .. => some .vbcast | .vectorReduce .. => some .vectorReduce | .vperm .. => some .vperm | .vext .. => some .vext
  | .send .. => some .send | .recv .. => some .recv | .probe .. => some .probe | .dma .. => some .dma | .bar .. => some .bar
  | .waitc .. => some .waitc | .nop .. => some .nop | .sysRd .. => some .sysRd | .halt .. => some .halt
  | .semacq .. => some .semacq | .semrel .. => some .semrel | .semtry .. => some .semtry | .semrd .. => some .semrd
  | .critEnter .. => some .critEnter | .critExit .. => some .critExit | .semcancel .. => some .semcancel
  | .semheld .. => some .semheld | .mma .. => some .mma | .mlda .. => some .mlda | .mst .. => some .mst | .mstat .. => some .mstat
  | _ => none

/-- The commands with an instruction word are the cell instructions. -/
theorem insnRow_isSome_of_cellWord {c : Instr} {k : Insn} (h : cellWord c = some k) : ∃ r, insnRow c = some r := by
  cases c <;> cases h <;> exact ⟨_, rfl⟩

/-- A cell instruction runs in the frame of its row, the engine's in the frame that waits while the queue is full. -/
theorem exec_cell {c : Instr} {k : Insn} {r : Row} (hk : cellWord c = some k) (hr : insnRow c = some r) (s : State) :
    ∃ eff n w, exec c s = cellInsn r eff s n w k ∨ exec c s = matrixInsn r eff s n w k := by
  cases c <;> cases hk <;> cases hr
  case mma | mlda | mst => exact ⟨_, _, _, .inr rfl⟩
  all_goals exact ⟨_, _, _, .inl rfl⟩

/-- A cell instruction answers a next state that keeps the beat unit and the queue, or stops on a word of another row. -/
theorem exec_cell_cases {c : Instr} {k : Insn} {r : Row} (hk : cellWord c = some k) (hr : insnRow c = some r) (s : State) :
    (∃ t, exec c s = .next t ∧ t.beat = s.beat ∧ t.pending = s.pending ∧ (s.boot.phase = 0 → t = s)) ∨
    (∃ r', rowOf k = some r' ∧ r' ≠ r ∧ exec c s = .fault .wordOfAnotherRow) := by
  obtain ⟨eff, n, w, h | h⟩ := exec_cell hk hr s <;> rw [h]
  · exact cellInsn_cases ..
  · exact matrixInsn_cases ..

/-- Every other command answers a next state with the queue as it was. -/
theorem exec_next {c : Instr} (hk : cellWord c = none) (s : State) : ∃ t, exec c s = .next t := by
  cases c <;> cases hk <;> exact ⟨_, rfl⟩

/-- A command that is no cell instruction, no event of the beat unit and not PERST acts on everything but the beat unit and the queue. -/
theorem exec_quiet {c : Instr} (hk : cellWord c = none) (hb : movesBeat c = false) (hp : c ≠ .perstBeforeReady) (s : State) :
    ∃ u, exec c s = .next (quiet s u) := by
  cases c <;> cases hk <;> cases hb
  case perstBeforeReady => exact absurd rfl hp
  all_goals exact ⟨_, rfl⟩

end Sys2Proof.Machine
end

section
/-!
PROOFS. What the operations that every block shares leave alone, and the events of the beat unit: the queue and the unit's invariant
(R23 to R25).
-/

namespace Sys2Proof.Machine

/-! ## Operations of Ops.lean on the beat unit -/

@[simp] theorem satAdd_beat (s : State) (off hi lo n : Nat) : (satAdd s off hi lo n).beat = s.beat := rfl

@[simp] theorem raiseVector_beat (s : State) (f v : Nat) : (raiseVector s f v).beat = s.beat := by
  unfold raiseVector
  split
  · dsimp only; split <;> rfl
  · rfl

@[simp] theorem setEvent_beat (s : State) (off i : Nat) : (setEvent s off i).beat = s.beat := by
  unfold setEvent
  dsimp only
  split
  · rw [raiseVector_beat]; rfl
  · rfl

/-! ## The invariant of the beat unit -/

/-- Entry into ACQUIRING and UNLOCKED keeps the held count and has neither run nor count. -/
theorem BeatUnit.Ok.enterAcquiring {b : BeatUnit} (h : b.Ok) : (enterAcquiring b).Ok :=
  ⟨h.held, Nat.zero_le _, fun _ _ => rfl, Nat.zero_le _⟩

theorem BeatUnit.Ok.enterUnlocked {b : BeatUnit} (h : b.Ok) : (enterUnlocked b).Ok :=
  ⟨h.held, Nat.zero_le _, fun _ _ => rfl, Nat.zero_le _⟩

/-- The unit after power-on. -/
theorem beatUnit_ok_initial : ({} : BeatUnit).Ok := ⟨by decide, by decide, fun _ _ => rfl, by decide⟩

theorem bootBeat_ok (s : State) : (bootBeat s).beat.Ok := by
  unfold bootBeat
  dsimp only
  split
  · exact beatUnit_ok_initial.enterAcquiring
  · exact beatUnit_ok_initial

/-! ## Edges and markers -/

/-- R25: the count that LOCKED is entered with is no later than the last beat number. -/
theorem lockAt_ok (s : State) (n : Nat) : (lockAt s n).beat.Ok := by
  unfold lockAt
  rw [setEvent_beat]
  exact ⟨Nat.zero_le _, Nat.zero_le _, fun h => absurd rfl h, Nat.min_le_right ..⟩

/-- R25: an edge in ACQUIRING sets the phase, starts the run again, adds to it up to 16, or locks. -/
theorem edgeAcquiring_ok {s : State} (h : s.beat.Ok) (offset : Int) : (edgeAcquiring s offset).beat.Ok := by
  have hrun (e : Nat) : ({ s.beat with run := min 16 (s.beat.run + 1), acqEdges := e } : BeatUnit).Ok :=
    ⟨h.held, Nat.min_le_left .., h.idle, h.bound⟩
  unfold edgeAcquiring
  dsimp only
  split
  · exact ⟨h.held, h.run, h.idle, h.bound⟩
  split
  · exact ⟨h.held, Nat.zero_le _, h.idle, h.bound⟩
  split
  · exact lockAt_ok ..
  split
  · split
    · exact lockAt_ok ..
    · exact hrun _
  · exact hrun _

theorem beatEdge_ok {s : State} (h : s.beat.Ok) (offset : Int) : (beatEdge s offset).beat.Ok := by
  unfold beatEdge
  split
  · exact h
  split
  · exact h
  · exact edgeAcquiring_ok h offset
  · split
    · simpa only [strayEdge, setEvent_beat, satAdd_beat] using h
    · exact ⟨h.held, h.run, h.idle, h.bound⟩

theorem edgeTimeout_ok {s : State} (h : s.beat.Ok) : (edgeTimeout s).beat.Ok := by
  unfold edgeTimeout
  split
  · exact ⟨h.held, Nat.zero_le _, h.idle, h.bound⟩
  · exact h

/-- R25: a marker in ACQUIRING is remembered or not; nothing that the invariant speaks of moves. -/
theorem markerAcquiring_ok {s : State} (h : s.beat.Ok) (p v : Nat) : (markerAcquiring s p v).beat.Ok := by
  have hset : ({ s.beat with acqMarker := some (p, v), acqEdges := 0 } : BeatUnit).Ok := ⟨h.held, h.run, h.idle, h.bound⟩
  unfold markerAcquiring
  cases s.beat.acqMarker with
  | none => exact hset
  | some m =>
    dsimp only
    split
    · exact h
    · exact hset

/-- R23: a marker is kept beside the count; it moves neither the count nor the state. -/
theorem marker_ok {s : State} (h : s.beat.Ok) (p v : Nat) (hchkOk : Bool) : (marker s p v hchkOk).beat.Ok := by
  have hkept : ∀ t : State, t.beat = s.beat →
      (if (tget t.beat.markers p).isSome then t
        else { t with beat := { t.beat with markers := tset t.beat.markers p v } }).beat.Ok := by
    intro t ht
    split
    · exact ht ▸ h
    · rw [← ht] at h
      exact ⟨h.held, h.run, h.idle, h.bound⟩
  unfold marker
  split
  · exact h
  split
  · exact h
  split
  · exact h
  split
  · exact markerAcquiring_ok h p v
  · exact hkept _ (by split <;> simp)
  · exact hkept _ (by split <;> simp)
  · exact h

/-! ## Boundaries -/

/-- R25, R26: LOST has no beat number. -/
theorem enterLost_ok {s : State} (h : s.beat.Ok) (c : LostCause) : (enterLost s c).beat.Ok :=
  ⟨h.held, Nat.zero_le _, fun _ _ => rfl, Nat.zero_le _⟩

/-- R25: what a boundary of LOCKED or HOLDOVER makes of the unit: one of these two states again, and only a HOLDOVER without an edge adds
to the held count. -/
theorem heldLogic_cases {s : State} (h : hasBeat s = true) :
    ∃ st cause held good mismatch,
      (heldLogic s).beat = { s.beat with state := st, cause := cause, held := held, good := good, mismatch := mismatch } ∧
      (st = .locked ∨ st = .holdover) ∧
      (held ≤ max s.beat.held 1 ∨ held = s.beat.held + 1 ∧ s.beat.state = .holdover ∧ s.beat.accepted = false) := by
  unfold heldLogic
  dsimp only
  split
  next hst =>
    split
    · exact ⟨_, _, _, _, _, rfl, .inl hst, .inl (Nat.le_max_left ..)⟩
    · exact ⟨_, _, _, _, _, setEvent_beat .., .inr rfl, .inl (Nat.le_max_right ..)⟩
  next hst =>
    split
    next ha => exact ⟨_, _, _, _, _, rfl, .inr hst, .inr ⟨rfl, hst, by simpa using ha⟩⟩
    · split
      · exact ⟨_, _, _, _, _, rfl, .inr hst, .inl (Nat.le_max_left ..)⟩
      · exact ⟨_, _, _, _, _, setEvent_beat .., .inl rfl, .inl (Nat.zero_le _)⟩
  next hl hh =>
    have : s.beat.state = .locked ∨ s.beat.state = .holdover := by simpa [hasBeat] using h
    exact absurd this (not_or.mpr ⟨hl, hh⟩)

/-- R24, R25: with no cause of loss the next beat is within the range and a holdover without an edge is not spent. -/
theorem lostCause_eq_none {s : State} (h : lostCause s = none) :
    nextBeat s ≤ maxBeat ∧ (s.beat.state = .holdover → s.beat.accepted = false → s.beat.held < 256) := by
  unfold lostCause at h
  split at h
  · cases h
  next hn =>
    split at h
    · cases h
    · split at h
      · cases h
      next hs =>
        refine ⟨Nat.not_lt.mp hn, fun hst ha => ?_⟩
        simpa [hst, ha] using hs

theorem startBeat_ok {s : State} (h : s.beat.Ok) (hb : hasBeat s = true) (hc : lostCause s = none) : (startBeat s).beat.Ok := by
  obtain ⟨hnext, hheld⟩ := lostCause_eq_none hc
  obtain ⟨st, cause, held, good, mismatch, he, hst, hcount⟩ :=
    heldLogic_cases (s := { s with beat := { s.beat with mismatch := mismatchRun s } }) hb
  unfold startBeat
  dsimp only
  rw [he]
  refine ⟨?_, h.run, fun hl hh => absurd hst (not_or.mpr ⟨hl, hh⟩), hnext⟩
  have := h.held
  rcases hcount with hcount | ⟨hcount, h1, h2⟩
  · simp only at hcount ⊢; omega
  · have := hheld h1 h2
    simp only at hcount ⊢; omega

theorem lockBoundary_ok {s : State} (h : s.beat.Ok) : (lockBoundary s).beat.Ok := by
  have h' : ({ s.beat with periods := s.beat.periods + 1 } : BeatUnit).Ok := ⟨h.held, h.run, h.idle, h.bound⟩
  have hgo (t : State) (ht : t.beat.Ok) (hb : hasBeat t = true) :
      (match lostCause t with
        | some c => { enterLost t c with beat := { (enterLost t c).beat with accepted := false } }
        | none => startBeat t).beat.Ok := by
    split
    next c _ =>
      have hl := enterLost_ok ht c
      exact ⟨hl.held, hl.run, hl.idle, hl.bound⟩
    next hc => exact startBeat_ok ht hb hc
  unfold lockBoundary
  dsimp only
  split
  · split
    · exact h'.enterAcquiring
    · exact h'.enterUnlocked
  · split
    · exact h'.enterAcquiring
    · exact h'.enterUnlocked
  · exact h'.enterUnlocked
  next hst _ => exact hgo { s with beat := { s.beat with periods := s.beat.periods + 1 } } h' (by simp [hasBeat, hst])
  next hst _ => exact hgo { s with beat := { s.beat with periods := s.beat.periods + 1 } } h' (by simp [hasBeat, hst])
  · exact ⟨h'.held, h'.run, h'.idle, h'.bound⟩
  · exact h'

/-- R25: leaving LOST at the end of the job. -/
theorem leaveLost_ok {s : State} (h : s.beat.Ok) : (leaveLost s).beat.Ok := by
  unfold leaveLost
  split
  · exact h
  next hl =>
    have hst : s.beat.state = .lost := by simpa using hl
    have h0 : s.beat.count = 0 := h.idle (by simp [hst]) (by simp [hst])
    split
    · exact ⟨h.held, Nat.zero_le _, fun _ _ => h0, h.bound⟩
    · exact ⟨h.held, h.run, fun _ _ => h0, h.bound⟩

/-- R28: a boundary moves the unit in its first step, and at the end of a job that is stopped in LOST. -/
theorem beatBoundary_ok {s : State} (h : s.beat.Ok) (kat : KatEnd) : (beatBoundary s kat).beat.Ok := by
  have hl := lockBoundary_ok h
  have hkept (t : State) : (keepBeat (lockBoundary s) t).beat.Ok := by rwa [keepBeat_beat]
  unfold beatBoundary
  split
  · exact h
  dsimp only
  split
  · exact hkept _
  split
  · exact leaveLost_ok (hkept _)
  · exact hkept _

end Sys2Proof.Machine
end

section
/-!
PROOFS. Writes of BT_CTL and BT_COMMIT (R25, R29), and the statements about every command: the beat unit's invariant, the queue, what is
no event, what runs without power, and that every command has a next state.
-/

namespace Sys2Proof.Machine

/-! ## Writes of BT_CTL and BT_COMMIT -/

/-- No register of a function window is a block's commit register. -/
theorem commitBlockOf_window {off : Nat} (h : 0xb10000 ≤ off) (h' : off < 0xb50000) : commitBlockOf off = none := by
  have hnone : blockSpans.find? (fun b => b.2.2.2 == off && off != 0) = none := by
    simp only [List.find?_eq_none, Bool.and_eq_true, beq_iff_eq, not_and, bne_iff_ne]
    intro b hb he
    have : ∀ b ∈ blockSpans, b.2.2.2 < 0xb10000 ∨ 0xb50000 ≤ b.2.2.2 := by decide
    have := this b hb
    omega
  simp [commitBlockOf, hnone]

@[simp] theorem writePlain_beat (s : State) (r : RegRow) (off v : Nat) : (writePlain s r off v).beat = s.beat := rfl

/-- Of a function window only the commit register has an effect beside its own word. -/
theorem writeReg_window_beat (s : State) (p : Path) {off v : Nat} (h : 0xb10000 ≤ off) (h' : off < 0xb50000)
    (hc : off % 1024 ≠ 4) : (writeReg s p off v).beat = s.beat := by
  unfold writeReg
  split
  · rfl
  · have h1 : off ≠ rBtCtl := by unfold rBtCtl; omega
    have h2 : off ≠ rRlExpel := by unfold rRlExpel; omega
    have h3 : off ≠ rScGrantCtl := by unfold rScGrantCtl; omega
    have h4 : ¬ (rScGrantBuf 0 ≤ off ∧ off < rScGrantBuf 2048) := by unfold rScGrantBuf; omega
    have h5 : off ≠ rEgRouteSel := by unfold rEgRouteSel; omega
    have h6 : ¬ (rEgPortCtl 0 ≤ off ∧ off < rEgPortCtl 6 ∧ off % 64 = 0) := by unfold rEgPortCtl; omega
    have h7 : ¬ (rMgTmxk 0 ≤ off ∧ off < rMgTmxk 16) := by unfold rMgTmxk; omega
    simp [commitBlockOf_window h h', h1, h2, h3, h4, h5, h6, h7, hc]

/-- R25: a write of BT_CTL. -/
theorem writeBtCtl_ok {s : State} (h : s.beat.Ok) (v : Nat) : (writeBtCtl s v).beat.Ok := by
  unfold writeBtCtl
  dsimp only
  split
  · split
    · exact h.enterAcquiring
    · exact h
  split
  · exact h
  split
  · exact h
  · exact h.enterUnlocked
  · exact ⟨h.held, h.run, h.idle, h.bound⟩

/-- R29: an accepted commit of the beat block may make the unit leave at the next boundary. -/
theorem commitEffect_beatBlock_ok {s : State} (h : s.beat.Ok) (old : State) : (commitEffect old s 0).beat.Ok := by
  show (if cfld old rBtCfg 6 0 != cfld s rBtCfg 6 0 && hasBeat s && s.beat.leaving.isNone then
    { s with beat := { s.beat with leaving := some true } } else s).beat.Ok
  split
  · exact ⟨h.held, h.run, h.idle, h.bound⟩
  · exact h

theorem commitBlock_beat_ok {s : State} (h : s.beat.Ok) (base span : Nat) : (commitBlock s 0 base span).2.2.beat.Ok := by
  unfold commitBlock
  dsimp only
  split
  · exact commitEffect_beatBlock_ok (s := takeShadow s base (base + span)) h s
  · exact h

/-- The report of a commit is in registers alone. -/
theorem commitOn_beat (s : State) (p : Path) (block base span : Nat) :
    (commitOn s p block base span).beat = (commitBlock s block base span).2.2.beat := by
  rcases hc : commitBlock s block base span with ⟨st, reg, t⟩
  simp only [commitOn, hc]
  split <;> simp only [rset_beat]

theorem commitOn_beat_ok {s : State} (h : s.beat.Ok) (p : Path) (base span : Nat) : (commitOn s p 0 base span).beat.Ok :=
  commitOn_beat s p 0 base span ▸ commitBlock_beat_ok h base span

theorem writeReg_beatBlock_ok {s : State} (h : s.beat.Ok) (p : Path) {o : Nat} (ho : o = rBtCtl ∨ o = rBtCommit) (v : Nat) :
    (writeReg s p o v).beat.Ok := by
  unfold writeReg
  split
  · exact h
  obtain rfl | rfl := ho
  · exact writeBtCtl_ok h v
  · show (if bit v 0 = 1 then commitOn s p 0 0 0x100 else s).beat.Ok
    split
    · exact commitOn_beat_ok h ..
    · exact h

/-- Neither register may be written on a management path (R380). -/
theorem mgmtMayWrite_beatBlock {o : Nat} (ho : o = rBtCtl ∨ o = rBtCommit) : mgmtMayWrite o = false := by
  obtain rfl | rfl := ho <;> decide

theorem accessWrite_beatBlock_ok {s : State} (h : s.beat.Ok) (p : Path) {o : Nat} (ho : o = rBtCtl ∨ o = rBtCommit) (v : Nat) :
    (accessWrite s p o v).beat.Ok := by
  unfold accessWrite
  split
  · split
    · exact h
    dsimp only
    split
    · exact writeReg_beatBlock_ok (s := closeWindowOfBoot s) h _ ho v
    next hspan => obtain rfl | rfl := ho <;> exact absurd (by decide) hspan
  next f =>
    have hf := f.isLt
    split
    · exact h
    split
    · have hwin : 0xb10000 ≤ rHiFnCommitSt f.val + o ∧ rHiFnCommitSt f.val + o < 0xb50000 ∧ (rHiFnCommitSt f.val + o) % 1024 ≠ 4 := by
        obtain rfl | rfl := ho <;> simp only [rHiFnCommitSt, rBtCtl, rBtCommit] <;> omega
      obtain ⟨hlo, hhi, hcommit⟩ := hwin
      exact (writeReg_window_beat s _ hlo hhi hcommit).symm ▸ h
    next hlow => obtain rfl | rfl := ho <;> exact absurd (by decide) hlow
  · simp [mgmtMayWrite_beatBlock ho, h]

/-- R7: an access of several words, of which only those of BT_CTL and BT_COMMIT move the unit. -/
theorem writeWord_ok {s : State} (h : s.beat.Ok) (p : Path) (o : Nat) (v : Word) : (writeWord p o v s).beat.Ok := by
  unfold writeWord
  dsimp only
  split
  next ho => exact accessWrite_beatBlock_ok h p ho _
  · rwa [quiet_beat]

@[simp] theorem writeWord_pending (p : Path) (o : Nat) (v : Word) (s : State) : (writeWord p o v s).pending = s.pending := by
  unfold writeWord
  dsimp only
  split
  · rfl
  · exact quiet_pending ..

theorem writeAccess_ok {s : State} (h : s.beat.Ok) (p : Path) (o : Nat) (vs : List Word) : (writeAccess p o vs s).beat.Ok := by
  induction vs generalizing o s with
  | nil => exact h
  | cons v vs ih => exact ih (writeWord_ok h p o v) (o + 4)

@[simp] theorem writeAccess_pending (p : Path) (o : Nat) (vs : List Word) (s : State) :
    (writeAccess p o vs s).pending = s.pending := by
  induction vs generalizing o s with
  | nil => rfl
  | cons v vs ih => rw [writeAccess, ih, writeWord_pending]

/-! ## Resets and GO -/

theorem outOfReset_beat (s : State) : (outOfReset s).beat = s.beat := rfl

theorem powerOnReset_ok (s : State) (resetN : Bool) (w : BootWorld) : (powerOnReset s resetN w).beat.Ok := by
  unfold powerOnReset
  dsimp only
  split
  · exact beatUnit_ok_initial
  split
  · exact beatUnit_ok_initial
  · exact bootBeat_ok _

theorem resetNRise_ok {s : State} (h : s.beat.Ok) (w : BootWorld) : (resetNRise s w).beat.Ok := by
  unfold resetNRise
  split
  · dsimp only
    split
    · exact h
    · exact bootBeat_ok _
  · exact h

theorem perstBeforeReady_beat (s : State) : (perstBeforeReady s).beat = s.beat := by
  unfold perstBeforeReady
  split
  · rw [keepBeat_beat]
  · rfl

theorem warmResetBy_ok {s : State} (h : s.beat.Ok) (cause : WarmCause) (w : BootWorld) : (warmResetBy s cause w).beat.Ok := by
  unfold warmResetBy
  split
  · exact h
  split
  · rwa [perstBeforeReady_beat]
  · exact bootBeat_ok _

theorem testLogicReset_ok {s : State} (h : s.beat.Ok) (w : BootWorld) : (testLogicReset s w).beat.Ok := by
  unfold testLogicReset
  dsimp only
  split
  · exact warmResetBy_ok (s := { s with mgmt := { s.mgmt with tap := .idcode, scanned := false } }) h _ w
  · exact h

theorem pwrOkFall_ok (s : State) : (pwrOkFall s).beat.Ok := by
  unfold pwrOkFall
  dsimp only
  split <;> exact beatUnit_ok_initial

theorem go_ok {s : State} (h : s.beat.Ok) (w : BootWorld) : (go s w).beat.Ok := by
  unfold go
  split
  · exact h
  dsimp only
  split
  · rwa [keepBeat_beat]
  · generalize presentImage _ _ _ _ = p
    obtain ⟨t, ok⟩ := p
    cases ok with
    | true => exact bootBeat_ok _
    | false => simpa only [Bool.false_eq_true, if_false, keepBeat_beat] using h

/-! ## Every command -/

/-- The events of the beat unit keep its invariant. -/
theorem exec_beatEvent_ok {c : Instr} {s t : State} (hb : movesBeat c = true) (h : s.beat.Ok) (ht : exec c s = .next t) :
    t.beat.Ok := by
  cases c <;> cases hb
  case beatEdge offset => cases ht; exact beatEdge_ok h offset
  case acquireEdgeTimeout => cases ht; exact edgeTimeout_ok h
  case beatBoundary kat => cases ht; exact beatBoundary_ok h kat
  case holdoverExpiry kat =>
    cases ht
    rw [keepQueue_beat]
    split
    · exact beatBoundary_ok h kat
    · exact h
  case beatCountOverflow kat =>
    cases ht
    rw [keepQueue_beat]
    split
    · exact beatBoundary_ok h kat
    · exact h
  case marker p v ok => cases ht; exact marker_ok h _ _ ok
  case btCtlEnable p v => cases ht; exact accessWrite_beatBlock_ok h p (.inl rfl) _
  case btCommit p v => cases ht; exact accessWrite_beatBlock_ok h p (.inr rfl) _
  case registerWrite p off v =>
    cases ht
    split
    · exact writeAccess_ok h ..
    · exact h
  case testLogicReset w => cases ht; exact testLogicReset_ok h w
  case powerOnReset resetN w => cases ht; exact powerOnReset_ok s resetN w
  case go w => cases ht; exact go_ok h w
  case pwrOkFall => cases ht; exact pwrOkFall_ok s
  case warmReset cause w => cases ht; exact warmResetBy_ok h cause w
  case resetNRise w => cases ht; exact resetNRise_ok h w

/-- The events of the beat unit leave the queue. -/
theorem exec_beatEvent_pending {c : Instr} {s t : State} (hb : movesBeat c = true) (ht : exec c s = .next t) :
    t.pending = s.pending := by
  cases c <;> cases hb
  case registerWrite p off v =>
    cases ht
    split
    · exact writeAccess_pending ..
    · rfl
  all_goals cases ht; rfl

/-- Every other command leaves the beat unit and the queue, and without power all but PERST leave everything. -/
theorem exec_noBeatEvent {c : Instr} {s t : State} (hb : movesBeat c = false) (ht : exec c s = .next t) :
    t.beat = s.beat ∧ t.pending = s.pending ∧ (c ≠ .perstBeforeReady → s.boot.phase = 0 → t = s) := by
  cases hk : cellWord c with
  | some k =>
    obtain ⟨r, hr⟩ := insnRow_isSome_of_cellWord hk
    obtain ⟨u, hu, hbeat, hqueue, hoff⟩ | ⟨_, _, _, hf⟩ := exec_cell_cases hk hr s
    · cases hu.symm.trans ht
      exact ⟨hbeat, hqueue, fun _ => hoff⟩
    · cases hf.symm.trans ht
  | none =>
    by_cases hp : c = .perstBeforeReady
    · subst hp
      cases ht
      exact ⟨perstBeforeReady_beat s, rfl, fun h => absurd rfl h⟩
    · obtain ⟨u, hu⟩ := exec_quiet hk hb hp s
      cases hu.symm.trans ht
      exact ⟨quiet_beat .., quiet_pending .., fun _ => quiet_unpowered⟩

/-- A step is the command at the front of the queue on the state without it. -/
theorem step_cons {s : State} {c : Instr} {rest : List Instr} (h : s.pending = c :: rest) :
    step s = exec c { s with pending := rest } := by
  simp only [step, h]

theorem step_nil {s : State} (h : s.pending = []) : step s = .next s := by
  simp only [step, h]

/-- Settles O52: every command keeps the invariant of R23 to R25, whether it is an event of the beat unit or not. -/
theorem beatUnitKept : Obligations.BeatUnitKept := by
  intro s t h ht
  cases hq : s.pending with
  | nil => cases (step_nil hq).symm.trans ht; exact h
  | cons c rest =>
    have he : exec c { s with pending := rest } = .next t := (step_cons hq).symm.trans ht
    cases hb : movesBeat c with
    | true => exact exec_beatEvent_ok (s := { s with pending := rest }) hb h he
    | false => exact (exec_noBeatEvent hb he).1 ▸ h

/-- Settles O53. -/
theorem queueKept : Obligations.QueueKept := by
  intro c s t ht
  cases hb : movesBeat c with
  | true => exact exec_beatEvent_pending hb ht
  | false => exact (exec_noBeatEvent hb ht).2.1

/-- Settles O54. -/
theorem noUnlistedTransition : Obligations.NoUnlistedTransition :=
  fun _ _ _ hb ht => (exec_noBeatEvent hb ht).1

/-- Settles O55: without power `quiet` is the state itself, and a cell instruction stops where its word is of another row. -/
theorem nothingRunsUnpowered : Obligations.NothingRunsUnpowered := by
  intro c s hb hp hoff
  cases hk : cellWord c with
  | some k =>
    obtain ⟨r, hr⟩ := insnRow_isSome_of_cellWord hk
    obtain ⟨u, hu, _, _, hu'⟩ | ⟨_, _, _, hf⟩ := exec_cell_cases hk hr s
    · exact .inl (hu' hoff ▸ hu)
    · exact .inr hf
  | none =>
    obtain ⟨u, hu⟩ := exec_quiet hk hb hp s
    exact .inl (by rw [hu, quiet_unpowered hoff])

/-- Settles O50. -/
theorem stepTakesTheFront : Obligations.StepTakesTheFront :=
  fun _ => ⟨fun _ _ => step_cons, step_nil⟩

/-- Settles O51: no register of the reset state has a word of its own, and the unit is that of power-on. -/
theorem resetState : Obligations.ResetState :=
  ⟨fun _ => ⟨rfl, rfl⟩, rfl, rfl, rfl, rfl, rfl, rfl, rfl, rfl, rfl, beatUnit_ok_initial⟩

/-! ## Every command has a next state -/

/-- A cell instruction has a next state on a word of its row and on an illegal one. -/
theorem exec_cell_next {c : Instr} {k : Insn} {r : Row} (hk : cellWord c = some k) (hr : insnRow c = some r)
    (h : rowOf k = some r ∨ rowOf k = none) (s : State) : ∃ t, exec c s = .next t := by
  obtain ⟨t, ht, _⟩ | ⟨r', hr', hne, _⟩ := exec_cell_cases hk hr s
  · exact ⟨t, ht⟩
  · obtain h | h := h <;> rw [hr'] at h <;> cases h
    exact absurd rfl hne

/-- Commands without an instruction word, listed. -/
theorem exec_next_of_mem {l : List Instr} (h : l.all (fun c => (cellWord c).isNone) = true) (s : State) :
    ∀ c ∈ l, ∃ t, exec c s = .next t :=
  fun c hc => exec_next (by simpa using List.all_eq_true.mp h c hc) s

/-- Settles O56: each command by its name. -/
theorem everyCommandActs : Obligations.EveryCommandActs := by
  intro s
  refine ⟨fun c => ?_, fun c w i ecc x hx hw => ?_, ?_⟩
  · cases hk : cellWord c with
    | none => exact .inl (exec_next hk s)
    | some k =>
      obtain ⟨r, hr⟩ := insnRow_isSome_of_cellWord hk
      obtain ⟨t, ht, _⟩ | ⟨r', hr', _, hf⟩ := exec_cell_cases hk hr s
      · exact .inl ⟨t, ht⟩
      · exact .inr ⟨k, rfl, ⟨r', hr'⟩, hf⟩
  · have hrow : insnRow x.2 = some x.1 ∧ cellWord x.2 = some i := by
      revert x
      simp [insnRow, cellWord]
    exact exec_cell_next hrow.2 hrow.1 hw s
  · refine ⟨?_, ?_, ?_, ?_, ?_, ?_, ?_, ?_, ?_, ?_, ?_, ?_, ?_, ?_, ?_, ?_, ?_, ?_, ?_, ?_⟩ <;> intros <;>
      exact exec_next_of_mem rfl s _ ‹_›

end Sys2Proof.Machine
end

section
/-!
PROOFS. Commits of register blocks and of function windows (R8, R429, R430, R317): the commit of an access from PF0, the committed set
it leaves, and its report.
-/

namespace Sys2Proof.Machine

/-! ## Tables -/

theorem tget_append {α : Type} (t u : Tab α) (k : Nat) : tget (t ++ u) k = (tget t k).or (tget u k) := by
  induction t with
  | nil => rfl
  | cons e t ih =>
    obtain ⟨a, v⟩ := e
    simp only [List.cons_append, tget]
    split
    · rfl
    · exact ih

/-- A filter on the numbers keeps or drops all entries of one. -/
theorem tget_filter {α : Type} (t : Tab α) (p : Nat → Bool) (k : Nat) :
    tget (t.filter fun e => p e.1) k = if p k then tget t k else none := by
  induction t with
  | nil => simp [tget]
  | cons e t ih =>
    obtain ⟨a, v⟩ := e
    by_cases ha : a = k
    · subst ha
      by_cases hp : p a = true
      · simp [tget, hp]
      · simp [ih, hp]
    · by_cases hp : p a = true
      · simp [tget, hp, ih, ha]
      · simp [tget, ih, hp, ha]

/-- The lowest bit of a word, as the model reads it. -/
theorem bit_zero_eq {n : Nat} (v : BitVec n) : bit v.toNat 0 = if v.getLsbD 0 then 1 else 0 := by
  have : v.getLsbD 0 = decide (v.toNat % 2 = 1) := by simp [BitVec.getLsbD, Nat.testBit_zero]
  rw [this]
  simp only [bit, Nat.pow_zero, Nat.div_one, decide_eq_true_eq]
  split <;> omega

/-! ## The committed set -/

/-- R8: what the shadow holds of the SH registers in [lo, hi) is committed there, and every other committed word stands. -/
theorem tget_takeShadow (s : State) (lo hi off : Nat) :
    tget (takeShadow s lo hi).committed off =
      if lo ≤ off ∧ off < hi then (if ((regRow? off).map fun r => r.sh != 0).getD false then tget s.regs off else none)
      else tget s.committed off := by
  unfold takeShadow
  simp only [tget_append]
  rw [tget_filter _ (fun o => decide (o < lo)), tget_filter _ (fun o => decide (hi ≤ o)),
    tget_filter _ (fun o => decide (lo ≤ o ∧ o < hi) && ((regRow? o).map fun r => r.sh != 0).getD false)]
  by_cases h1 : off < lo <;> by_cases h2 : hi ≤ off
  · simp [h1, h2, Nat.not_le.mpr h1]
  · simp [h1, h2, Nat.not_le.mpr h1]
  · simp [h1, h2, Nat.not_lt.mpr h2]
  · simp [h1, h2, Nat.not_lt.mp h1, Nat.not_le.mp h2]

/-- The committed word of an SH register of the block is its shadow. -/
theorem cget_takeShadow_inside (s : State) {lo hi off : Nat} {r : RegRow} (hlo : lo ≤ off) (hhi : off < hi)
    (hr : regRow? off = some r) (hsh : r.sh ≠ 0) : cget (takeShadow s lo hi) off = rget s off := by
  simp only [cget, rget, tget_takeShadow, hlo, hhi, hr]
  simp [hsh]

/-- A commit leaves what lies outside the block. -/
theorem cget_takeShadow_outside (s : State) {lo hi off : Nat} (h : off < lo ∨ hi ≤ off) :
    cget (takeShadow s lo hi) off = cget s off := by
  have : ¬ (lo ≤ off ∧ off < hi) := by omega
  simp only [cget, tget_takeShadow, this, if_false]

/-! ## What an accepted commit does at once -/

/-- A register's word is what `regs` holds of it. -/
theorem rget_congr {s t : State} (h : t.regs = s.regs) (o : Nat) : rget t o = rget s o := by
  simp only [rget, h]

theorem cget_congr {s t : State} (h : t.committed = s.committed) (o : Nat) : cget t o = cget s o := by
  simp only [cget, h]

theorem rget_rput_other (s : State) {off o : Nat} (hi lo v : Nat) (h : o ≠ off) : rget (rput s off hi lo v) o = rget s o :=
  rget_rset_other s _ h

@[simp] theorem raiseVector_regs (s : State) (f v : Nat) : (raiseVector s f v).regs = s.regs := by
  unfold raiseVector
  split
  · dsimp only; split <;> rfl
  · rfl

@[simp] theorem raiseVector_committed (s : State) (f v : Nat) : (raiseVector s f v).committed = s.committed := by
  unfold raiseVector
  split
  · dsimp only; split <;> rfl
  · rfl

@[simp] theorem setEvent_committed (s : State) (off i : Nat) : (setEvent s off i).committed = s.committed := by
  unfold setEvent
  dsimp only
  split
  · rw [raiseVector_committed]; rfl
  · rfl

/-- An event register's flag is a bit of its word. -/
theorem setEvent_regs (s : State) (off i : Nat) : (setEvent s off i).regs = (rput s off i i 1).regs := by
  unfold setEvent
  dsimp only
  split
  · rw [raiseVector_regs]
  · rfl

theorem rget_setEvent_other (s : State) {off o : Nat} (i : Nat) (h : o ≠ off) : rget (setEvent s off i) o = rget s o := by
  rw [rget_congr (setEvent_regs s off i), rget_rput_other s i i 1 h]

theorem addMove_committed (s : State) (rank dest comb : Nat) (tiles : List Nat) (cmd : Nat) (client : Option Nat) :
    (addMove s rank dest comb tiles cmd client).committed = s.committed := by
  unfold addMove
  split
  · split
    · exact setEvent_committed ..
    · rfl
  · rfl

theorem rget_addMove (s : State) (rank dest comb : Nat) (tiles : List Nat) (cmd : Nat) (client : Option Nat) {o : Nat}
    (h : o ≠ rMtEvent) : rget (addMove s rank dest comb tiles cmd client) o = rget s o := by
  unfold addMove
  split
  · split
    · exact rget_setEvent_other s _ h
    · rfl
  · rfl

theorem addPin_committed (s : State) (first count tier : Nat) (o : PinOwner) :
    (addPin s first count tier o).committed = s.committed := by
  unfold addPin
  split
  · rfl
  · dsimp only
    split
    · rfl
    · rw [addMove_committed]

theorem rget_addPin (s : State) (first count tier : Nat) (p : PinOwner) {o : Nat} (h : o ≠ rMtEvent) :
    rget (addPin s first count tier p) o = rget s o := by
  unfold addPin
  split
  · rfl
  · dsimp only
    split
    · rfl
    · rw [rget_addMove _ _ _ _ _ _ _ h]; rfl

theorem raiseIbi_frame (s : State) : (raiseIbi s).committed = s.committed ∧ (raiseIbi s).regs = s.regs := by
  unfold raiseIbi
  split <;> exact ⟨rfl, rfl⟩

/-- R29, R230, R219, R383: the effects of an accepted commit touch no committed word, and of the registers only MT_EVENT. -/
theorem commitEffect_frame (old s : State) (block : Nat) :
    (commitEffect old s block).committed = s.committed ∧
      ∀ o, o ≠ rMtEvent → rget (commitEffect old s block) o = rget s o := by
  unfold commitEffect
  split
  · split <;> exact ⟨rfl, fun _ _ => rfl⟩
  · exact ⟨addPin_committed .., fun o ho => rget_addPin _ _ _ _ _ ho⟩
  · obtain ⟨hc, hr⟩ := raiseIbi_frame s
    exact ⟨hc, fun o _ => rget_congr hr o⟩
  · split <;> exact ⟨rfl, fun _ _ => rfl⟩
  · exact ⟨rfl, fun _ _ => rfl⟩

/-! ## The outcome of the checks -/

theorem commitOutcome_ok : commitOutcome ([], []) = (stOk, 0) := rfl

theorem commitOutcome_badField {l : List Nat × List Nat} {o : Nat} {os : List Nat} (h : l.1 = o :: os) :
    commitOutcome l = (stBadField, os.foldl min o) := by
  simp only [commitOutcome, h]

theorem commitOutcome_mismatch (o : Nat) (os : List Nat) : commitOutcome ([], o :: os) = (stCfgMismatch, os.foldl min o) := rfl

/-- A status other than ST_OK leaves the block as it is. -/
theorem commitBlock_refused {s : State} {block : Nat} {st : Half} {reg : Nat} (h : commitOutcome (commitFails s block) = (st, reg))
    (hst : st ≠ stOk) (base span : Nat) : commitBlock s block base span = (st, reg, s) := by
  simp [commitBlock, h, hst]

theorem commitBlock_ok {s : State} {block : Nat} (h : commitFails s block = ([], [])) (base span : Nat) :
    commitBlock s block base span = (stOk, 0, commitEffect s (takeShadow s base (base + span)) block) := by
  simp [commitBlock, h, commitOutcome_ok]

/-! ## The report -/

/-- A commit report as a word: SEQ, block, status. -/
theorem reportWord_lt {block : Nat} (s : State) (hb : block < 16) (st : Half) :
    (rfld s (rHiCommitSt 0) 31 24 + 1) % 256 * 2 ^ 24 + block * 2 ^ 20 + st.toNat < 2 ^ 32 := by
  have := st.isLt
  have := Nat.mod_lt (rfld s (rHiCommitSt 0) 31 24 + 1) (show 0 < 256 by decide)
  omega

/-- R430: the commit of a block on PF0's BAR0 is reported in HI_COMMIT_ST and HI_COMMIT_REG. -/
theorem commitOn_bar0 {s t : State} {block base span reg : Nat} {st : Half} (h : commitBlock s block base span = (st, reg, t)) :
    commitOn s .bar0 block base span =
      rset (rset t (rHiCommitSt 0) ((rfld t (rHiCommitSt 0) 31 24 + 1) % 256 * 2 ^ 24 + block * 2 ^ 20 + st.toNat))
        (rHiCommitReg 0) reg := by
  simp only [commitOn, h]
  rfl

theorem commitOn_bar0_report {s t : State} {block base span reg : Nat} {st : Half} (h : commitBlock s block base span = (st, reg, t))
    (hb : block < 16) (ht : rget t (rHiCommitSt 0) = rget s (rHiCommitSt 0)) :
    rget (commitOn s .bar0 block base span) (rHiCommitSt 0) =
        (rfld s (rHiCommitSt 0) 31 24 + 1) % 256 * 2 ^ 24 + block * 2 ^ 20 + st.toNat ∧
      rget (commitOn s .bar0 block base span) (rHiCommitReg 0) = reg % 2 ^ 32 := by
  have hfld : rfld t (rHiCommitSt 0) 31 24 = rfld s (rHiCommitSt 0) 31 24 := by simp only [rfld, ht]
  rw [commitOn_bar0 h, hfld]
  refine ⟨?_, rget_rset_same ..⟩
  rw [rget_rset_other _ _ (by decide), rget_rset_same, Nat.mod_eq_of_lt (reportWord_lt s hb st)]

/-! ## The access -/

/-- The block that a register commits. -/
structure CommitsBlock (off block base span : Nat) : Prop where
  row : (regRow? off).isSome = true
  commits : commitBlockOf off = some (block, base, span)
  inside : inSpan off = true
  number : block < 16

/-- A write of 1 from PF0 to a block's commit register. -/
theorem accessWrite_commit {s : State} {off block base span : Nat} (h : CommitsBlock off block base span) (hs : s.boot.phase = 7)
    {v : Word} (hv : v.getLsbD 0 = true) :
    accessWrite s .bar0 off v.toNat = commitOn (closeWindowOfBoot s) .bar0 block base span := by
  obtain ⟨r, hr⟩ := Option.isSome_iff_exists.mp h.row
  have hbit : bit v.toNat 0 = 1 := by rw [bit_zero_eq, hv]; rfl
  simp [accessWrite, hs, h.inside, writeReg, hr, h.commits, hbit]

/-- A command whose effect on registers and committed words is a write of 1 to a block's commit register. -/
def commitsFrom (c : Instr) (s : State) (v : Word) (block base span : Nat) : Prop :=
  ∃ off, CommitsBlock off block base span ∧ ∃ t, exec c s = .next t ∧ t.regs = (accessWrite s .bar0 off v.toNat).regs ∧
    t.committed = (accessWrite s .bar0 off v.toNat).committed

section
variable {s : State} {v : Word} {c : Instr} {block base span : Nat}

theorem commitsFrom_quiet {off : Nat} (hp : Powered s) (h : CommitsBlock off block base span)
    (hc : exec c s = .next (quiet s (accessWrite s .bar0 off v.toNat))) : commitsFrom c s v block base span :=
  ⟨off, h, _, hc, quiet_regs hp, quiet_committed hp⟩

/-- The three outcomes of a block's commit. -/
theorem commitsFrom_ok (h : commitsFrom c s v block base span) (hs : s.boot.phase = 7) (hv : v.getLsbD 0 = true)
    (hf : commitFails s block = ([], [])) :
    ∃ t, exec c s = .next t ∧
      (∀ off r, base ≤ off → off < base + span → regRow? off = some r → r.sh ≠ 0 → cget t off = rget s off) ∧
      (∀ off, off < base ∨ base + span ≤ off → cget t off = cget s off) ∧
      rget t (rHiCommitSt 0) = (rfld s (rHiCommitSt 0) 31 24 + 1) % 256 * 2 ^ 24 + block * 2 ^ 20 + stOk.toNat ∧
      rget t (rHiCommitReg 0) = 0 := by
  obtain ⟨off, hb, t, ht, hregs, hcommitted⟩ := h
  rw [accessWrite_commit hb hs hv] at hregs hcommitted
  have hfails : commitFails (closeWindowOfBoot s) block = ([], []) := hf
  have hblock := commitBlock_ok hfails base span
  obtain ⟨heffect, hother⟩ := commitEffect_frame (closeWindowOfBoot s) (takeShadow (closeWindowOfBoot s) base (base + span)) block
  have hset : t.committed = (takeShadow s base (base + span)).committed := by
    rw [hcommitted, commitOn_bar0 hblock, rset_committed, rset_committed, heffect]
    rfl
  obtain ⟨hst, hreg⟩ := commitOn_bar0_report hblock hb.number (hother _ (by decide))
  refine ⟨t, ht, fun o r h1 h2 hr hsh => ?_, fun o ho => ?_, ?_, ?_⟩
  · rw [← cget_takeShadow_inside s h1 h2 hr hsh, cget_congr hset]
  · rw [← cget_takeShadow_outside s ho, cget_congr hset]
  · rw [rget_congr hregs]; exact hst
  · rw [rget_congr hregs]; exact hreg

theorem commitsFrom_refused (h : commitsFrom c s v block base span) (hs : s.boot.phase = 7) (hv : v.getLsbD 0 = true) {st : Half}
    {reg : Nat} (hf : commitOutcome (commitFails s block) = (st, reg)) (hst : st ≠ stOk) :
    ∃ t, exec c s = .next t ∧ t.committed = s.committed ∧
      rget t (rHiCommitSt 0) = (rfld s (rHiCommitSt 0) 31 24 + 1) % 256 * 2 ^ 24 + block * 2 ^ 20 + st.toNat ∧
      rget t (rHiCommitReg 0) = reg % 2 ^ 32 := by
  obtain ⟨off, hb, t, ht, hregs, hcommitted⟩ := h
  rw [accessWrite_commit hb hs hv] at hregs hcommitted
  have hfails : commitOutcome (commitFails (closeWindowOfBoot s) block) = (st, reg) := hf
  have hblock := commitBlock_refused hfails hst base span
  obtain ⟨hst, hreg⟩ := commitOn_bar0_report hblock hb.number rfl
  refine ⟨t, ht, ?_, ?_, ?_⟩
  · rw [hcommitted, commitOn_bar0 hblock]; rfl
  · rw [rget_congr hregs]; exact hst
  · rw [rget_congr hregs]; exact hreg

end

/-- The commit commands of the thirteen blocks are such writes; BT_COMMIT is an event of the beat unit (R29), the others are not. -/
theorem commitsFrom_of_mem {s : State} {v : Word} (hp : Powered s) {x : Instr × Nat × Nat × Nat}
    (h : x ∈ [(Instr.btCommit .bar0 v, 0, 0, 0x100), (.clCommit .bar0 v, 1, 0x100000, 0x50000), (.mxCommit .bar0 v, 2, 0x200000, 0x20000),
      (.kvCommit .bar0 v, 4, 0x400000, 0x100), (.fgCommit .bar0 v, 5, 0x500000, 0x100), (.lnCommit .bar0 v, 6, 0x600000, 0x100),
      (.sqCommit .bar0 v, 7, 0x700000, 0x18000), (.mtCommit .bar0 v, 8, 0x800000, 0x1000), (.egCommit .bar0 v, 9, 0x900000, 0x400),
      (.raCommit .bar0 v, 10, 0xa00000, 0x100), (.pwCommit .bar0 v, 12, 0xc00000, 0x200), (.rlCommit .bar0 v, 13, 0xd00000, 0x8000),
      (.mgCommit .bar0 v, 15, 0xf00000, 0x100)]) : commitsFrom x.1 s v x.2.1 x.2.2.1 x.2.2.2 := by
  simp only [List.mem_cons, List.not_mem_nil, or_false] at h
  obtain rfl | h := h
  · exact ⟨rBtCommit, by dsimp only; constructor <;> decide +kernel, _, rfl, rfl, rfl⟩
  · rcases h with rfl | rfl | rfl | rfl | rfl | rfl | rfl | rfl | rfl | rfl | rfl | rfl <;> refine commitsFrom_quiet hp ?_ rfl
    all_goals dsimp only; constructor <;> decide +kernel

/-! ## A function window (R317, R430) -/

theorem regRow?_hiFnCommit (f : FnId) : (regRow? (rHiFnCommit f.val)).isSome = true := by
  revert f; decide +kernel

theorem inSpan_hiFnCommit (f : FnId) : inSpan (rHiFnCommit f.val) = true := by
  revert f; decide +kernel

/-- A write of 1 to HI_FN_COMMIT of a window. -/
theorem writeReg_hiFnCommit (s : State) (p : Path) (f : FnId) {v : Nat} (hv : bit v 0 = 1) :
    writeReg s p (rHiFnCommit f.val) v = commitWindow s f.val := by
  obtain ⟨r, hr⟩ := Option.isSome_iff_exists.mp (regRow?_hiFnCommit f)
  have hf := f.isLt
  have h0 : commitBlockOf (rHiFnCommit f.val) = none :=
    commitBlockOf_window (by unfold rHiFnCommit; omega) (by unfold rHiFnCommit; omega)
  have h1 : rHiFnCommit f.val ≠ rBtCtl := by unfold rHiFnCommit rBtCtl; omega
  have h2 : rHiFnCommit f.val ≠ rRlExpel := by unfold rHiFnCommit rRlExpel; omega
  have h3 : rHiFnCommit f.val ≠ rScGrantCtl := by unfold rHiFnCommit rScGrantCtl; omega
  have h4 : ¬ (rScGrantBuf 0 ≤ rHiFnCommit f.val ∧ rHiFnCommit f.val < rScGrantBuf 2048) := by unfold rHiFnCommit rScGrantBuf; omega
  have h5 : rHiFnCommit f.val ≠ rEgRouteSel := by unfold rHiFnCommit rEgRouteSel; omega
  have h6 : ¬ (rEgPortCtl 0 ≤ rHiFnCommit f.val ∧ rHiFnCommit f.val < rEgPortCtl 6 ∧ rHiFnCommit f.val % 64 = 0) := by
    unfold rHiFnCommit rEgPortCtl; omega
  have h7 : ¬ (rMgTmxk 0 ≤ rHiFnCommit f.val ∧ rHiFnCommit f.val < rMgTmxk 16) := by unfold rHiFnCommit rMgTmxk; omega
  have h8 : rHiFnCommitSt 0 ≤ rHiFnCommit f.val ∧ rHiFnCommit f.val < rHiFnCommitSt 256 ∧ rHiFnCommit f.val % 1024 = 4 := by
    unfold rHiFnCommit rHiFnCommitSt; omega
  have h9 : (rHiFnCommit f.val - rHiFnCommitSt 0) / 1024 = f.val := by unfold rHiFnCommit rHiFnCommitSt; omega
  simp only [writeReg, hr, h0, h1, h2, h3, h4, h5, h6, h7, h8, h9, hv, and_self, if_true, if_false]

/-- HI_FN_COMMIT of PF0 after READY commits the window. -/
theorem exec_hiFnCommit {s : State} (hs : s.boot.phase = 7) (f : FnId) {v : Word} (hv : v.getLsbD 0 = true) :
    exec (.hiFnCommit .bar0 f v) s = .next (quiet s (settle (commitWindow (closeWindowOfBoot s) f.val))) := by
  have hbit : bit v.toNat 0 = 1 := by rw [bit_zero_eq, hv]; rfl
  have : accessWrite s .bar0 (rHiFnCommit f.val) v.toNat = commitWindow (closeWindowOfBoot s) f.val := by
    simp only [accessWrite, hs, bne_self_eq_false, Bool.false_eq_true, if_false, inSpan_hiFnCommit, if_true,
      writeReg_hiFnCommit _ _ f hbit]
  rw [← this]
  rfl

/-- A window whose checks are met is committed, its rings follow, and ST_OK is reported. -/
theorem commitWindow_ok {s : State} {f : Nat} (h : windowFails s f = ([], [])) :
    let w := commitRings (takeShadow s (rHiFnCommitSt f) (rHiFnCommitSt f + 1024)) f
    commitWindow s f = rset w (rHiFnCommitSt f) ((rfld w (rHiFnCommitSt f) 31 24 + 1) % 256 * 2 ^ 24 + stOk.toNat) := by
  simp [commitWindow, h, commitOutcome_ok]

/-- A window with a field out of range keeps its committed set; the report names the deciding register. -/
theorem commitWindow_badField {s : State} {f o : Nat} {os : List Nat} (h : (windowFails s f).1 = o :: os) (h0 : os.foldl min o ≠ 0) :
    commitWindow s f = rset s (rHiFnCommitSt f) ((rfld s (rHiFnCommitSt f) 31 24 + 1) % 256 * 2 ^ 24 +
      (os.foldl min o - rHiFnCommitSt f) / 4 * 2 ^ 16 + stBadField.toNat) := by
  have hne : (stBadField == stOk) = false := by decide
  simp only [commitWindow, commitOutcome_badField h, hne, h0, Bool.false_eq_true, if_false]

/-- Settles O25. -/
theorem blockAndWindowCommits : Obligations.BlockAndWindowCommits := by
  refine ⟨fun s v hs hv x hx => ?_, fun s f v hs hv => ⟨fun h => ?_, fun o os h h0 => ?_⟩⟩
  · have hp : Powered s := by simp [Powered, hs]
    have hc := commitsFrom_of_mem hp hx
    exact ⟨commitsFrom_ok hc hs hv,
      fun o os h => commitsFrom_refused hc hs hv (commitOutcome_badField h) (by decide),
      fun o os h => commitsFrom_refused hc hs hv (h ▸ commitOutcome_mismatch o os) (by decide)⟩
  · rw [exec_hiFnCommit hs f hv, commitWindow_ok (s := closeWindowOfBoot s) h]
    rfl
  · rw [exec_hiFnCommit hs f hv, commitWindow_badField (s := closeWindowOfBoot s) h h0]
    rfl

end Sys2Proof.Machine
end

section
/-!
PROOFS. Home operations (R137, R145, R146): a message let in at a home queues its operation, and the first of a handle is served, refused,
applied, or sent to the mirror.
-/

namespace Sys2Proof.Machine

/-! ## Messages let in (R141, R143) -/

section
variable {s : State} {m : FHdr} {cacheType : Bool}

/-- A message that passes the checks of R141 and is due has its effect. -/
theorem receiveMsg_letIn (h : LetIn s m cacheType) (i : Instr) (type : Nat) (rt : ReplyTo) (k : State → State) :
    receiveMsg s i m type cacheType rt k = k s := by
  obtain ⟨_, _, hstatus, hbeat, hdue⟩ := h
  have hnow : (s.beat.state == .lost || (m.notBefore != 0 && decide (now s < m.notBefore.toNat))) = false := by
    simp only [Bool.or_eq_false_iff, beq_eq_false_iff_ne, ne_eq, hbeat, not_false_eq_true, Bool.and_eq_false_iff, true_and,
      bne_eq_false_iff_eq, decide_eq_false_iff_not, Nat.not_lt]
    exact hdue
  simp only [receiveMsg, hstatus, hnow, bne_self_eq_false, Bool.false_eq_true, if_false]

theorem msgIn_letIn (h : LetIn s m cacheType) (i : Instr) (type : Nat) (rt : ReplyTo) :
    msgIn s i m type cacheType rt = settle (applyMsg s i) := by
  simp only [msgIn, h.job, if_true, receiveMsg_letIn h]

/-- A message of a home's operations is queued behind those of its handle. -/
theorem exec_homeOp (h : LetIn s m true) (hs : servesHome s m.handle = true) {client : Byte} {plen maxlen first count b : Word}
    {parent hash : DWord} {ids : List Word} {hashes : List DWord} {target owner : Half} {epoch : Word} {status : Half}
    {ps : List PageData} {i : Instr}
    (hi : i ∈ [Instr.create m client plen maxlen parent ids hashes, .renew m, .propose m target, .claim m owner epoch,
      .tokens m first count ids, .end_ m status, .commit m b hash ps, .fetch m first count, .query m none]) :
    exec i s = .next (quiet s (settle (homeOp s i))) ∧ opHandle i = m.handle := by
  have hcommit : commitServed s m.handle = true := by simp [commitServed, hs]
  simp only [List.mem_cons, List.not_mem_nil, or_false] at hi
  rcases hi with rfl | rfl | rfl | rfl | rfl | rfl | rfl | rfl | rfl <;> refine ⟨?_, rfl⟩
  case inr.inr.inr.inr.inr.inr.inl =>
    show Host.Outcome.next (quiet s (msgIn s _ m _ true _)) = _
    rw [msgIn_letIn h, applyMsg]
    simp [hcommit, onCommit, hs]
  all_goals
    show Host.Outcome.next (quiet s (msgIn s _ m _ true _)) = _
    rw [msgIn_letIn h, applyMsg]
    simp only [atHome, hs, if_true]

end

/-! ## The first operation of a handle -/

/-- The record that the REPLICATEs of a change carry, where one carries a record that lives on. -/
def carriedRecord (rs : List ReplData) : Option RecordData :=
  rs.findSome? fun d => match d with
    | .record r _ _ false => some r
    | _ => none

section
variable {s t : State} {h : DWord} {o : HomeOp} {n : Nat}

/-- The operation at work waits for the mirror, and the others of its handle behind it. -/
theorem pumpOps_waits (ho : s.forager.homeOps.find? (fun o => o.handle == h) = some o) (hsent : o.sent = true) :
    pumpOps h n s = s := by
  cases n with
  | zero => rfl
  | succ n => simp only [pumpOps, ho, hsent, if_true]

section
variable (ho : s.forager.homeOps.find? (fun o => o.handle == h) = some o) (hsent : o.sent = false)
include ho hsent

theorem pumpOps_served (hv : serveOp s o.msg = (t, none)) : pumpOps h (n + 1) s = pumpOps h n (opDrop t o.msg) := by
  simp only [pumpOps, ho, hsent, hv, Bool.false_eq_true, if_false]

theorem pumpOps_refused {st : Half} (hv : serveOp s o.msg = (t, some (.refuse st))) :
    pumpOps h (n + 1) s = pumpOps h n (refuseOp (opDrop t o.msg) o.msg st) := by
  simp only [pumpOps, ho, hsent, hv, Bool.false_eq_true, if_false]

theorem pumpOps_same (hv : serveOp s o.msg = (t, some .same)) :
    pumpOps h (n + 1) s = pumpOps h n (sameOp (opDrop t o.msg) o.msg) := by
  simp only [pumpOps, ho, hsent, hv, Bool.false_eq_true, if_false]

/-- With no mirror UP a change is applied at once. -/
theorem pumpOps_change_alone (hv : serveOp s o.msg = (t, some .change)) (hp : otherCopy t = none) :
    pumpOps h (n + 1) s = pumpOps h n (applyOp (opDrop t o.msg) o.msg o.came) := by
  simp only [pumpOps, ho, hsent, hv, hp, Bool.false_eq_true, if_false]

/-- With the mirror UP a change is sent there and waits. -/
theorem pumpOps_change_mirrored {p : Nat} (hv : serveOp s o.msg = (t, some .change)) (hp : otherCopy t = some p) :
    let rs := replicates t o.msg o.came h
    pumpOps h (n + 1) s = rs.foldl (fun s d => ask s p h 0 (.replicate d) false true)
      (opSet t h fun x => { x with sent := true, acks := rs.length, carried := carriedRecord rs }) := by
  simp only [pumpOps, ho, hsent, hv, hp, Bool.false_eq_true, if_false] <;> rfl

end
end

/-! ## An operation that has just arrived -/

section
variable {s : State} {h : DWord} {i : Instr}

theorem homeOp_eq (hh : opHandle i = h) :
    homeOp s i = pumpOps h (s.forager.homeOps.length + 2) (queuedOp s h i) := by
  subst hh
  simp only [homeOp, pumpHome, queuedOp, List.length_append, List.length_singleton]

/-- With no other of its handle it is the first. -/
theorem queuedOp_first (hq : ∀ o ∈ s.forager.homeOps, o.handle ≠ h) :
    (queuedOp s h i).forager.homeOps.find? (fun o => o.handle == h) = some { handle := h, msg := i, came := now s } := by
  have : s.forager.homeOps.find? (fun o => o.handle == h) = none := by
    simpa [List.find?_eq_none] using hq
  simp [queuedOp, List.find?_append, this]

/-- Behind others of its handle it is not. -/
theorem queuedOp_behind {o : HomeOp} (ho : s.forager.homeOps.find? (fun o => o.handle == h) = some o) :
    (queuedOp s h i).forager.homeOps.find? (fun o => o.handle == h) = some o := by
  simp [queuedOp, List.find?_append, ho]

theorem removeFirst_append_of_not {α : Type} {p : α → Bool} {l : List α} (hl : ∀ x ∈ l, p x = false) {a : α} (ha : p a = true) :
    removeFirst p (l ++ [a]) = l := by
  induction l with
  | nil => simp [removeFirst, ha]
  | cons x l ih =>
    have hx := hl x (List.mem_cons_self ..)
    simp only [List.cons_append, removeFirst, hx, Bool.false_eq_true, if_false]
    rw [ih fun y hy => hl y (List.mem_cons_of_mem _ hy)]

/-- Taken out again it leaves the state as it was. -/
theorem opDrop_queuedOp (hq : ∀ o ∈ s.forager.homeOps, o.msg ≠ i) : opDrop (queuedOp s h i) i = s := by
  have hops : removeFirst (fun o => o.msg == i) (queuedOp s h i).forager.homeOps = s.forager.homeOps :=
    removeFirst_append_of_not (by simpa using hq) (by simp)
  unfold opDrop
  rw [hops]
  rfl

end

/-- The operations that change records are judged, not served. -/
theorem serveOp_judged {m : FHdr} {client : Byte} {plen maxlen first count : Word} {parent : DWord} {ids : List Word}
    {hashes : List DWord} {target owner : Half} {epoch : Word} {status : Half} {i : Instr}
    (hi : i ∈ [Instr.create m client plen maxlen parent ids hashes, .renew m, .propose m target, .claim m owner epoch,
      .tokens m first count ids, .end_ m status]) (s : State) : serveOp s i = (s, some (judge s i)) := by
  simp only [List.mem_cons, List.not_mem_nil, or_false] at hi
  rcases hi with rfl | rfl | rfl | rfl | rfl | rfl <;> rfl

/-- Settles O38. -/
theorem homeOperations : Obligations.HomeOperations := by
  intro s m client plen maxlen first count b parent hash ids hashes target owner epoch status ps hin hs
  refine ⟨fun i hi hq => ?_, fun i hi ho => ?_⟩
  · obtain ⟨hexec, hh⟩ := exec_homeOp (b := b) (hash := hash) (ps := ps) hin hs
      (List.mem_append_left [.commit m b hash ps, .fetch m first count, .query m none] hi)
    have hfirst := queuedOp_first (i := i) fun o ho => (hq o ho).1
    have hdrop : opDrop (queuedOp s m.handle i) i = s := opDrop_queuedOp fun o ho => (hq o ho).2
    have hserve := serveOp_judged hi (queuedOp s m.handle i)
    rw [hexec, homeOp_eq hh]
    refine ⟨fun hv hp => ?_, fun p hv hp => ?_, fun hv => ?_, fun st hv => ?_⟩ <;> rw [hv] at hserve
    · rw [pumpOps_change_alone hfirst rfl hserve hp, hdrop]
    · exact congrArg (fun t => Host.Outcome.next (quiet s (settle t))) (pumpOps_change_mirrored hfirst rfl hserve hp)
    · rw [pumpOps_same hfirst rfl hserve, hdrop]
    · rw [pumpOps_refused hfirst rfl hserve, hdrop]
  · obtain ⟨o, hfind, hsent⟩ := ho
    obtain ⟨hexec, hh⟩ := exec_homeOp hin hs hi
    rw [hexec, homeOp_eq hh, pumpOps_waits (queuedOp_behind hfind) hsent]

end Sys2Proof.Machine
end

section
/-!
PROOFS. Cell instructions (R51 to R55, R213 to R215): each issues on the issued state and has its row's effect there.
-/

namespace Sys2Proof.Machine

section
variable {s : State} {c : CellId} {w : WorkerId} {win : Win} {i : Insn}

/-- An instruction that issues leaves what its effect makes of the issued state. -/
theorem cellInsn_effect {r : Row} (h : Issues s c w win i r) {eff : State → Issue → State} {t : State}
    (he : eff (issued s c w win i) (issueOf s c w win i) = t) : cellInsn r eff s c.val w.val i = .next (quiet s t) :=
  he ▸ cellInsn_issues h eff

/-! ## Scalar instructions -/

/-- Settles O1. -/
theorem scalarInstructions : Obligations.ScalarInstructions :=
  fun _ _ _ _ _ => ⟨fun h => cellInsn_issues h scalarAluEffect, fun h => cellInsn_issues h branchEffect,
    fun h => cellInsn_issues h jalEffect, fun h => cellInsn_issues h jalrEffect⟩

/-! ## Local memory -/

/-- An access that passes the checks of R45 and R46, and for a load meets no poisoned line, is done. -/
theorem withAccess_load {s : State} {x : Issue} {a n : Nat} (store : Bool) {e : Ecc} (hf : accessFault x.win a n store = none)
    (hp : cellPoisoned (cellEcc s x.c (lineOf (x.win.base + a)) e) x.c (lineOf (x.win.base + a)) = false) (k : State → State) :
    withAccess s x a n true store e k = k (cellEcc s x.c (lineOf (x.win.base + a)) e) := by
  simp only [withAccess, hf, if_true, hp, Bool.and_false, Bool.false_eq_true, if_false]

theorem withAccess_store {s : State} {x : Issue} {a n : Nat} {e : Ecc} (hf : accessFault x.win a n true = none) (k : State → State) :
    withAccess s x a n false true e k = k s := by
  simp only [withAccess, hf, Bool.false_and, Bool.false_eq_true, if_false]

section
variable {u : State} {x : Issue} {e : Ecc}

/-- LD and LDS: the bytes at BASE + A + IMM, extended with zeros or with the sign. -/
theorem scalarLoadEffect_done (hf : accessFault x.win (x.addr u) (accessBytes (iOp x.i)) false = none)
    (hp : cellPoisoned (cellEcc u x.c (lineOf (x.win.base + x.addr u)) e) x.c (lineOf (x.win.base + x.addr u)) = false) :
    let m := cellEcc u x.c (lineOf (x.win.base + x.addr u)) e
    let v := leNat (cellRead m x.c (x.win.base + x.addr u) (accessBytes (iOp x.i)))
    scalarLoadEffect e u x =
      setG m x.c x.w (iD x.i) (if iOp x.i < 0x24 then v else ofInt 64 (sInt (8 * accessBytes (iOp x.i)) v)) := by
  rw [scalarLoadEffect, withAccess_load false hf hp]

theorem scalarStoreEffect_done (hf : accessFault x.win (x.addr u) (accessBytes (iOp x.i)) true = none) :
    scalarStoreEffect u x =
      cellWrite u x.c (x.win.base + x.addr u) (leBytes (accessBytes (iOp x.i)) (x.g u (iD x.i))) := by
  rw [scalarStoreEffect, withAccess_store hf]

theorem vldEffect_done (hf : accessFault x.win (x.addr u) 64 false = none)
    (hp : cellPoisoned (cellEcc u x.c (lineOf (x.win.base + x.addr u)) e) x.c (lineOf (x.win.base + x.addr u)) = false) :
    let m := cellEcc u x.c (lineOf (x.win.base + x.addr u)) e
    vldEffect e u x = setV m x.c x.w (iD x.i) (bytesVReg (cellRead m x.c (x.win.base + x.addr u) 64)) := by
  rw [vldEffect, withAccess_load false hf hp]

theorem vstEffect_done (hf : accessFault x.win (x.addr u) 64 true = none) :
    vstEffect u x = cellWrite u x.c (x.win.base + x.addr u) (vregBytes (x.v u (iD x.i))) := by
  rw [vstEffect, withAccess_store hf]

end

/-- Settles O2. -/
theorem localLoadsAndStores : Obligations.LocalLoadsAndStores :=
  fun _ _ _ _ _ _ => ⟨fun h hf hp => cellInsn_effect h (scalarLoadEffect_done hf hp),
    fun h hf => cellInsn_effect h (scalarStoreEffect_done hf), fun h hf hp => cellInsn_effect h (vldEffect_done hf hp),
    fun h hf => cellInsn_effect h (vstEffect_done hf)⟩

/-! ## Atomics -/

/-- Stores of local memory neither take free values nor depend on how many were taken. -/
theorem cellWriteF_freeCtr (n : Nat) (s : State) (k c a : Nat) (bs : List Byte) (p : Bool) :
    cellWriteF n { s with freeCtr := k } c a bs p = { cellWriteF n s c a bs p with freeCtr := k } ∧
      (cellWriteF n s c a bs p).freeCtr = s.freeCtr := by
  induction n generalizing s a bs with
  | zero => exact ⟨rfl, rfl⟩
  | succ n ih =>
    simp only [cellWriteF]
    split
    · exact ⟨rfl, rfl⟩
    · exact ih (cellWriteLine s c a (bs.take (64 - a % 64)) p) _ _

theorem cellWrite_freeCtr (s : State) (k c a : Nat) (bs : List Byte) :
    cellWrite { s with freeCtr := k } c a bs = { cellWrite s c a bs with freeCtr := k } :=
  (cellWriteF_freeCtr ..).1

@[simp] theorem freeCtr_cellWrite (s : State) (c a : Nat) (bs : List Byte) : (cellWrite s c a bs).freeCtr = s.freeCtr :=
  (cellWriteF_freeCtr _ s 0 c a bs false).2

section
variable {u : State} {x : Issue} {e : Ecc} (hf : accessFault x.win (x.addr u) 8 true = none)
  (hp : cellPoisoned (cellEcc u x.c (lineOf (x.win.base + x.addr u)) e) x.c (lineOf (x.win.base + x.addr u)) = false)
include hf hp

/-- An atomic that stores, and one that does not: D is free afterwards. -/
theorem atomicEffect_store {f : State → Nat → Option Nat × State} {t : State} {v : Nat}
    (hv : f (cellEcc u x.c (lineOf (x.win.base + x.addr u)) e)
      (leNat (cellRead (cellEcc u x.c (lineOf (x.win.base + x.addr u)) e) x.c (x.win.base + x.addr u) 8)) = (some v, t)) :
    ∃ d, atomicEffect e f u x =
      setG { cellWrite t x.c (x.win.base + x.addr u) (leBytes 8 v) with freeCtr := t.freeCtr + 1 } x.c x.w (iD x.i) d := by
  refine ⟨(takeFree (cellWrite t x.c (x.win.base + x.addr u) (leBytes 8 v)) 64).1, ?_⟩
  rw [atomicEffect, withAccess_load true hf hp]
  simp only [hv, takeFree, freeCtr_cellWrite]

theorem atomicEffect_keep {f : State → Nat → Option Nat × State} {t : State}
    (hv : f (cellEcc u x.c (lineOf (x.win.base + x.addr u)) e)
      (leNat (cellRead (cellEcc u x.c (lineOf (x.win.base + x.addr u)) e) x.c (x.win.base + x.addr u) 8)) = (none, t)) :
    ∃ d, atomicEffect e f u x = setG { t with freeCtr := t.freeCtr + 1 } x.c x.w (iD x.i) d := by
  refine ⟨(takeFree t 64).1, ?_⟩
  rw [atomicEffect, withAccess_load true hf hp]
  simp only [hv, takeFree]

/-- AMOADD stores the sum. -/
theorem amoaddEffect_done :
    let m := cellEcc u x.c (lineOf (x.win.base + x.addr u)) e
    let old := leNat (cellRead m x.c (x.win.base + x.addr u) 8)
    ∃ d, amoaddEffect e u x =
      setG { cellWrite m x.c (x.win.base + x.addr u) (leBytes 8 ((old + x.g m (iD x.i)) % 2 ^ 64)) with freeCtr := m.freeCtr + 1 }
        x.c x.w (iD x.i) d :=
  atomicEffect_store hf hp (f := fun s old => (some ((old + x.g s (iD x.i)) % 2 ^ 64), s)) rfl

/-- AMOCAS stores D where the word equals the comparand, a free value. -/
theorem amocasEffect_done :
    let m := cellEcc u x.c (lineOf (x.win.base + x.addr u)) e
    let old := leNat (cellRead m x.c (x.win.base + x.addr u) 8)
    ∃ k d, amocasEffect e u x =
      setG { (if old = k then cellWrite m x.c (x.win.base + x.addr u) (leBytes 8 (x.g m (iD x.i))) else m) with
        freeCtr := m.freeCtr + 2 } x.c x.w (iD x.i) d := by
  intro m old
  refine ⟨(takeFree m 64).1, ?_⟩
  by_cases hk : old = (takeFree m 64).1
  · obtain ⟨d, hd⟩ := atomicEffect_store hf hp (f := fun s old =>
        ((if old = (takeFree s 64).1 then some (x.g (takeFree s 64).2 (iD x.i)) else none), (takeFree s 64).2))
      (v := x.g m (iD x.i)) (t := (takeFree m 64).2) (by rw [if_pos hk]; rfl)
    refine ⟨d, hd.trans ?_⟩
    rw [if_pos hk]
    simp only [takeFree, cellWrite_freeCtr]
  · obtain ⟨d, hd⟩ := atomicEffect_keep hf hp (f := fun s old =>
        ((if old = (takeFree s 64).1 then some (x.g (takeFree s 64).2 (iD x.i)) else none), (takeFree s 64).2))
      (t := (takeFree m 64).2) (by rw [if_neg hk])
    refine ⟨d, hd.trans ?_⟩
    rw [if_neg hk]
    rfl

end

/-- Settles O3. -/
theorem atomicInstructions : Obligations.AtomicInstructions := by
  intro s c w win i e u x a m old hf hp
  refine ⟨fun h => ?_, fun h => ?_⟩
  · obtain ⟨d, hd⟩ := amoaddEffect_done (x := x) hf hp
    exact ⟨d, cellInsn_effect h hd⟩
  · obtain ⟨k, d, hd⟩ := amocasEffect_done (x := x) hf hp
    exact ⟨k, d, cellInsn_effect h hd⟩

end
end Sys2Proof.Machine
end

section
/-!
PROOFS. Cell instructions beside scalars and memory: vectors, messages, waits, semaphores, critical sections (R51 to R55, R213 to R215).
-/

namespace Sys2Proof.Machine

/-! ## Vectors -/

section
variable {u : State} {x : Issue}

/-- The conversions between f32 and bf16 leave lanes free. -/
theorem vectorAluEffect_narrow (h : iOpNum x.i = 0x12) :
    ∃ f, vectorAluEffect u x =
      setV { u with freeCtr := u.freeCtr + 1 } x.c x.w (iD x.i) (cvtF32Bf (x.v u (iA x.i)) f) :=
  ⟨(takeFree u 514).1, by simp only [vectorAluEffect, h, true_or, if_true, takeFree]⟩

theorem vectorAluEffect_widen (h : iOpNum x.i = 0x13) :
    ∃ f, vectorAluEffect u x =
      setV { u with freeCtr := u.freeCtr + 1 } x.c x.w (iD x.i) (cvtBf32 (x.v u (iA x.i)) f) := by
  have h' : ¬ (0x13 = 0x12) := by decide
  exact ⟨(takeFree u 514).1, by simp only [vectorAluEffect, h, or_true, if_true, h', if_false, takeFree]⟩

/-- The other operations go lane by lane. -/
theorem vectorAluEffect_lanes (h : iOpNum x.i ≠ 0x12) (h' : iOpNum x.i ≠ 0x13) :
    let n := laneBits (iW x.i)
    let r := resolveLanes u n ((List.range (512 / n)).map fun k =>
      vectorLane (iW x.i) (iOpNum x.i) (lane (x.v u (iA x.i)) n k) (x.bLane u k)
        (if iImmForm x.i then none else some (lane (x.v u (iC x.i)) n k)))
    vectorAluEffect u x = setV r.2 x.c x.w (iD x.i) r.1 := by
  simp only [vectorAluEffect, h, h', or_self, if_false]

/-- A lane of a vector by its index, and what stands for an index past the last. -/
theorem getElem?_match_eq_ite {β : Type} (ls : List Nat) (k : Nat) (f : Nat → β) (d : β) :
    (match ls[k]? with
      | some v => f v
      | none => d) = if k < ls.length then f (ls.getD k 0) else d := by
  by_cases hk : k < ls.length
  · simp [hk]
  · simp [hk]

theorem vpermEffect_eq :
    let ls := lanesOf (x.v u (iA x.i)) (iW x.i)
    let r := resolveLanes u (laneBits (iW x.i)) ((List.range ls.length).map fun k =>
      if x.bLane u k < ls.length then .is (ls.getD (x.bLane u k) 0) else .any)
    vpermEffect u x = setV r.2 x.c x.w (iD x.i) r.1 := by
  intro ls r
  have h (k : Nat) := getElem?_match_eq_ite ls (x.bLane u k) Res.is .any
  simp only [vpermEffect, r, ← h, ls] <;> rfl

theorem vextEffect_eq :
    let n := laneBits (iW x.i)
    let ls := lanesOf (x.v u (iA x.i)) (iW x.i)
    let k := if iImmForm x.i then iImm x.i else lane (x.v u (iB x.i)) n 0
    let r := resolve u 64 (if k < ls.length then Res.both (ls.getD k 0) (ofInt 64 (sInt n (ls.getD k 0))) else .any)
    vextEffect u x = setG r.2 x.c x.w (iD x.i) r.1 := by
  intro n ls k r
  have h := getElem?_match_eq_ite ls k (fun v => Res.both v (ofInt 64 (sInt n v))) .any
  simp only [vextEffect, r, ← h, ls, k, n] <;> rfl

end

/-- Settles O4. -/
theorem vectorInstructions : Obligations.VectorInstructions := by
  intro s c w win i u x n ls
  refine ⟨fun h hop => ?_, fun h hop => ?_, fun h hop hop' => ?_, fun h => ?_, fun h => ?_, fun h => ?_, fun h => ?_⟩
  · obtain ⟨f, hf⟩ := vectorAluEffect_narrow (u := u) (x := x) hop
    exact ⟨f, cellInsn_effect h hf⟩
  · obtain ⟨f, hf⟩ := vectorAluEffect_widen (u := u) (x := x) hop
    exact ⟨f, cellInsn_effect h hf⟩
  · exact cellInsn_effect h (vectorAluEffect_lanes hop hop')
  · exact cellInsn_issues h vbcastEffect
  · exact cellInsn_issues h vectorReduceEffect
  · exact cellInsn_effect h vpermEffect_eq
  · exact cellInsn_effect h vextEffect_eq

end Sys2Proof.Machine
end

section
/-!
PROOFS. Messages, barriers, counters and system values (R53 to R55), semaphores and critical sections (R213 to R215), and the faults of a
worker (R63).
-/

namespace Sys2Proof.Machine

/-- Two effects that are equal make one answer. -/
theorem next_quiet {s t t' : State} (h : t = t') :
    (Host.Outcome.next (quiet s t) : Host.Outcome State Fault Refusal) = .next (quiet s t') := h ▸ rfl

/-! ## Messages -/

section
variable {u : State} {x : Issue}

theorem sendEffect_bound {p : SendPort} (hp : tget (cellGet u x.c).ports (iImm x.i) = some p) (hc : p.ctx = x.win.ctx)
    (hon : cellOn u p.dstCell = true) :
    sendEffect u x = if 0 < p.credits ∧ p.waiters = [] then
      sendMsg (portSet u x.c (iImm x.i) { p with credits := p.credits - 1 }) x.c (iImm x.i) p (x.v u (iA x.i))
    else setWait (portSet u x.c (iImm x.i) { p with waiters := p.waiters ++ [(x.w, iA x.i)] }) x.c x.w (.send (iImm x.i) (iA x.i)) := by
  simp [sendEffect, hp, hc, hon]

theorem recvEffect_queued {ch : Channel} {m : VReg} {rest : List VReg} (h : tget (cellGet u x.c).chans (iImm x.i) = some ch)
    (hc : ch.ctx = x.win.ctx) (hq : ch.queue = m :: rest) :
    recvEffect u x =
      returnCredit (setV (chanSet u x.c (iImm x.i) { ch with queue := rest }) x.c x.w (iD x.i) m) ch.srcCell ch.srcPort := by
  simp [recvEffect, h, hc, hq]

theorem recvEffect_empty {ch : Channel} (h : tget (cellGet u x.c).chans (iImm x.i) = some ch) (hc : ch.ctx = x.win.ctx)
    (hq : ch.queue = []) :
    recvEffect u x =
      setWait (chanSet u x.c (iImm x.i) { ch with waiters := ch.waiters ++ [(x.w, iD x.i)] }) x.c x.w (.recv (iImm x.i) (iD x.i)) := by
  simp [recvEffect, h, hc, hq]

theorem probeEffect_bound {ch : Channel} (h : tget (cellGet u x.c).chans (iImm x.i) = some ch) (hc : ch.ctx = x.win.ctx) :
    probeEffect u x = setG u x.c x.w (iD x.i) ch.queue.length := by
  simp [probeEffect, h, hc]

end

section
variable {s : State} {c p : Nat}

/-- The state once the oldest message of a port has left its path. -/
def msgTaken (s : State) (c p : Nat) : State :=
  { s with grid := { s.grid with msgs := removeFirst (fun m => m.srcCell == c && m.port == p) s.grid.msgs } }

/-- The state once a credit of a port has come back. -/
def creditTaken (s : State) (c p : Nat) : State :=
  { s with grid := { s.grid with credits := removeFirst (· == (c, p)) s.grid.credits } }

theorem messageArrives_queued {m : Msg} {ch : Channel} (hm : nextOnPath s c p = some m)
    (h : tget (cellGet s m.dstCell).chans m.channel = some ch) (hc : ch.ctx = m.ctx) (hs : ch.srcCell = c) (hw : ch.waiters = []) :
    messageArrives s c p = chanSet (msgTaken s c p) m.dstCell m.channel { ch with queue := ch.queue ++ [m.data] } := by
  have h' : tget (cellGet (msgTaken s c p) m.dstCell).chans m.channel = some ch := h
  simp only [msgTaken] at h'
  simp [messageArrives, hm, h', hc, hs, hw, msgTaken]

theorem messageArrives_waiting {m : Msg} {ch : Channel} {w d : Nat} {rest : List (Nat × Nat)} (hm : nextOnPath s c p = some m)
    (h : tget (cellGet s m.dstCell).chans m.channel = some ch) (hc : ch.ctx = m.ctx) (hs : ch.srcCell = c)
    (hw : ch.waiters = (w, d) :: rest) :
    messageArrives s c p =
      returnCredit (wake (setV (chanSet (msgTaken s c p) m.dstCell m.channel { ch with waiters := rest }) m.dstCell w d m.data) m.dstCell w)
        ch.srcCell ch.srcPort := by
  have h' : tget (cellGet (msgTaken s c p) m.dstCell).chans m.channel = some ch := h
  simp only [msgTaken] at h'
  simp [messageArrives, hm, h', hc, hs, hw, msgTaken]

theorem creditArrives_counted {q : SendPort} (hc : s.grid.credits.contains (c, p) = true) (h : tget (cellGet s c).ports p = some q)
    (hw : q.waiters = []) : creditArrives s c p = portSet (creditTaken s c p) c p { q with credits := q.credits + 1 } := by
  have h' : tget (cellGet (creditTaken s c p) c).ports p = some q := h
  simp only [creditTaken] at h'
  simp only [creditArrives, hc, Bool.not_true, Bool.false_eq_true, if_false, h', hw, creditTaken]

theorem creditArrives_waiting {q : SendPort} {w v : Nat} {rest : List (Nat × Nat)} (hc : s.grid.credits.contains (c, p) = true)
    (h : tget (cellGet s c).ports p = some q) (hw : q.waiters = (w, v) :: rest) :
    let t := portSet (creditTaken s c p) c p { q with waiters := rest }
    creditArrives s c p = wake (sendMsg t c p q (vGet (workerGet t c w) v)) c w := by
  have h' : tget (cellGet (creditTaken s c p) c).ports p = some q := h
  simp only [creditTaken] at h'
  simp only [creditArrives, hc, Bool.not_true, Bool.false_eq_true, if_false, h', hw, creditTaken]

end

/-- Settles O5. -/
theorem messages : Obligations.Messages := by
  refine ⟨fun s c w win i => ⟨fun p h hp hc hon => ?_, fun ch m rest h hch hc hq => ?_, fun ch h hch hc hq => ?_, fun ch h hch hc => ?_⟩,
    fun s c p _ => ⟨fun m ch hm hch hc hs => ⟨fun hw => ?_, fun w d rest hw => ?_⟩, fun q hq hport => ⟨fun hw => ?_, fun w v rest hw => ?_⟩⟩⟩
  · exact cellInsn_effect h (sendEffect_bound hp hc hon)
  · exact cellInsn_effect h (recvEffect_queued hch hc hq)
  · exact cellInsn_effect h (recvEffect_empty hch hc hq)
  · exact cellInsn_effect h (probeEffect_bound hch hc)
  · exact next_quiet (messageArrives_queued hm hch hc hs hw)
  · exact next_quiet (messageArrives_waiting hm hch hc hs hw)
  · exact next_quiet (creditArrives_counted hq hport hw)
  · exact next_quiet (creditArrives_waiting hq hport hw)

/-! ## Barriers, counters and system values -/

theorem barEffect_bound {u : State} {x : Issue} {b : Barrier} (h : tget u.grid.barriers (iImm x.i) = some b) (hc : b.ctx = x.win.ctx) :
    let b' : Barrier := { b with arrivals := b.arrivals + 1, waiting := b.waiting ++ [(x.c, x.w)] }
    barEffect u x =
      setWait { u with grid := { u.grid with barriers := tset u.grid.barriers (iImm x.i) b' } } x.c x.w (.barrier (iImm x.i)) := by
  simp [barEffect, h, hc]

theorem releaseBarrier_met {s : State} {n : Nat} {b : Barrier} (h : tget s.grid.barriers n = some b) (hm : b.expected ≤ b.arrivals) :
    releaseBarrier s n = b.waiting.foldl (fun s q => wake s q.1 q.2)
      { s with grid := { s.grid with barriers := tset s.grid.barriers n { b with arrivals := 0, waiting := [] } } } := by
  simp [releaseBarrier, h, Nat.not_lt.mpr hm]

/-- PHASE and CYCLE depend on the time within the beat: a free value is taken. -/
theorem sysRdEffect_time {u : State} {x : Issue} (h : iImm x.i = 6 ∨ iImm x.i = 7) :
    ∃ v, sysRdEffect u x = setG { u with freeCtr := u.freeCtr + 1 } x.c x.w (iD x.i) v := by
  obtain h | h := h
  · exact ⟨(takeFree u 17).1, by simp only [sysRdEffect, h, takeFree]⟩
  · exact ⟨(takeFree u 64).1, by simp only [sysRdEffect, h, takeFree]⟩

/-- Settles O6. -/
theorem waitsAndSystemValues : Obligations.WaitsAndSystemValues := by
  refine ⟨fun s c w win i => ⟨fun b h hb hc => ?_, fun h => ?_, fun h => ?_, fun h => ?_, fun _ n b hb hm => ?_⟩, fun s c w win i h => ?_⟩
  · exact cellInsn_effect h (barEffect_bound hb hc)
  · exact cellInsn_issues h waitcEffect
  · exact cellInsn_issues h fun s _ => s
  · exact cellInsn_issues h haltEffect
  · exact next_quiet (releaseBarrier_met hb hm)
  · have value {v : Nat} (he : sysRdEffect (issued s c w win i) (issueOf s c w win i) = setG (issued s c w win i) c.val w.val (iD i) v) :=
      cellInsn_effect h he
    refine ⟨fun hi => value ?_, fun hi => value ?_, fun hi => value ?_, fun hi => value ?_, fun hi => value ?_, fun hi => value ?_,
      fun hi => value ?_, fun hi => value ?_, fun hi => ?_⟩
    case refine_9 =>
      obtain ⟨v, hv⟩ := sysRdEffect_time (x := issueOf s c w win i) hi
      exact ⟨v, cellInsn_effect h hv⟩
    all_goals simp only [sysRdEffect, issueOf, hi]

/-! ## Semaphores and critical sections -/

section
variable {u : State} {x : Issue} {m : Sem} (hm : semOf u (iImm x.i % 1024) = some m) (hc : m.client = ctxClient u x.win.ctx)
include hm hc

/-- A semaphore LIVE for the context's client is operated on. -/
theorem withSem_live (k : State → Sem → State) : withSem u x k = k u m := by
  simp [withSem, hm, hc]

theorem semacqEffect_live (hn : x.g u (iA x.i) ≤ 65535) :
    semacqEffect u x = if x.g u (iA x.i) = 0 then incCounter u x.c x.w (iD x.i % 4)
      else grantSem (semSet u (iImm x.i) { m with
        queue := m.queue ++ [{ cell := x.c, worker := x.w, ctx := x.win.ctx, units := x.g u (iA x.i), ctr := iD x.i % 4 }] }) (iImm x.i) := by
  rw [semacqEffect, withSem_live hm hc]
  exact if_neg (Nat.not_lt.mpr hn)

theorem semrelEffect_live (hn : x.g u (iA x.i) ≤ tgetD m.held x.win.ctx 0) :
    semrelEffect u x = grantSem (semSet u (iImm x.i) { m with
      count := m.count + x.g u (iA x.i)
      held := tsetD m.held x.win.ctx (tgetD m.held x.win.ctx 0 - x.g u (iA x.i)) 0 }) (iImm x.i) := by
  rw [semrelEffect, withSem_live hm hc]
  exact if_neg (Nat.not_lt.mpr hn)

theorem semtryEffect_live :
    semtryEffect u x = if m.queue = [] ∧ x.g u (iA x.i) ≤ m.count then
        setG (semSet u (iImm x.i) { m with
          count := m.count - x.g u (iA x.i)
          held := tsetD m.held x.win.ctx (tgetD m.held x.win.ctx 0 + x.g u (iA x.i)) 0 }) x.c x.w (iD x.i) 1
      else setG u x.c x.w (iD x.i) 0 := by
  rw [semtryEffect, withSem_live hm hc]
  simp

theorem semrdEffect_live : semrdEffect u x = setG u x.c x.w (iD x.i) m.count := withSem_live hm hc _

theorem semheldEffect_live : semheldEffect u x = setG u x.c x.w (iD x.i) (tgetD m.held x.win.ctx 0) := withSem_live hm hc _

theorem semcancelEffect_live :
    let mine := fun (q : SemReq) => q.cell == x.c && q.worker == x.w
    semcancelEffect u x = grantSem (setG (semSet u (iImm x.i) { m with queue := m.queue.filter fun q => !mine q }) x.c x.w (iD x.i)
      (m.queue.filter mine).length) (iImm x.i) := withSem_live hm hc _

end

theorem critEnterEffect_open {u : State} {x : Issue} (h : (workerGet u x.c x.w).crit < 255) :
    critEnterEffect u x = workerSet u x.c x.w { workerGet u x.c x.w with crit := (workerGet u x.c x.w).crit + 1 } :=
  if_neg (Nat.not_le.mpr h)

theorem critEnterEffect_full {u : State} {x : Issue} (h : 255 ≤ (workerGet u x.c x.w).crit) :
    critEnterEffect u x = takeFault u x.c x.w x.pc causeIllegal 0 := if_pos h

theorem critExitEffect_open {u : State} {x : Issue} (h : 0 < (workerGet u x.c x.w).crit) :
    critExitEffect u x = workerSet u x.c x.w { workerGet u x.c x.w with crit := (workerGet u x.c x.w).crit - 1 } :=
  if_neg (Nat.ne_of_gt h)

theorem critExitEffect_none {u : State} {x : Issue} (h : (workerGet u x.c x.w).crit = 0) :
    critExitEffect u x = takeFault u x.c x.w x.pc causeIllegal 0 := if_pos h

/-- Settles O7. -/
theorem semaphoresAndCriticalSections : Obligations.SemaphoresAndCriticalSections := by
  refine ⟨fun s c w win i m hm hc => ⟨fun h hn => ?_, fun h hn => ?_, fun h => ?_, fun h => ?_, fun h => ?_, fun h => ?_⟩,
    fun s c w win i => ⟨fun h => ⟨fun hk => ?_, fun hk => ?_⟩, fun h => ⟨fun hk => ?_, fun hk => ?_⟩⟩⟩
  · exact cellInsn_effect h (semacqEffect_live hm hc hn)
  · exact cellInsn_effect h (semrelEffect_live hm hc hn)
  · exact cellInsn_effect h (semtryEffect_live hm hc)
  · exact cellInsn_effect h (semrdEffect_live hm hc)
  · exact cellInsn_effect h (semheldEffect_live hm hc)
  · exact cellInsn_effect h (semcancelEffect_live hm hc)
  · exact cellInsn_effect h (critEnterEffect_open hk)
  · exact cellInsn_effect h (critEnterEffect_full hk)
  · exact cellInsn_effect h (critExitEffect_open hk)
  · exact cellInsn_effect h (critExitEffect_none hk)

/-! ## Faults of a worker -/

section
variable {s : State} {c : CellId} {w : WorkerId} {win : Win} {i : Insn} (hw : winOf s c.val w.val = some win)
  (hi : canIssue s c.val w.val = true)
include hw hi

/-- An instruction at or above CODE faults before its word is fetched. -/
theorem issueWith_beyondCode (eff : State → Issue → State) (h : win.code ≤ (workerGet s c.val w.val).pc.toNat) :
    issueWith s c.val w.val i eff = takeFault (charge (noteIssue s c.val w.val i) (ctxClient s win.ctx) 0 0 1) c.val w.val
      (workerGet s c.val w.val).pc.toNat causeFetchBounds (workerGet s c.val w.val).pc.toNat := by
  simp only [issueWith, hw, hi, Bool.not_true, Bool.false_eq_true, if_false, if_pos h]

/-- A word on a poisoned line faults. -/
theorem issueWith_poisoned (eff : State → Issue → State) (h : (workerGet s c.val w.val).pc.toNat < win.code)
    (hp : cellPoisoned (fetchedAt s c w win i) c.val (lineOf (win.base + (workerGet s c.val w.val).pc.toNat)) = true) :
    issueWith s c.val w.val i eff = takeFault (fetchedAt s c w win i) c.val w.val
      (workerGet s c.val w.val).pc.toNat causePoisoned (workerGet s c.val w.val).pc.toNat := by
  simp only [fetchedAt] at hp ⊢
  simp only [issueWith, hw, hi, Bool.not_true, Bool.false_eq_true, if_false, if_neg (Nat.not_le.mpr h), hp, if_true]

/-- A word that is no instruction faults. -/
theorem issueWith_illegal (eff : State → Issue → State) (h : (workerGet s c.val w.val).pc.toNat < win.code)
    (hp : cellPoisoned (fetchedAt s c w win i) c.val (lineOf (win.base + (workerGet s c.val w.val).pc.toNat)) = false)
    (hr : rowOf i = none) :
    issueWith s c.val w.val i eff =
      takeFault (fetchedAt s c w win i) c.val w.val (workerGet s c.val w.val).pc.toNat causeIllegal 0 := by
  simp only [fetchedAt] at hp ⊢
  simp only [issueWith, hw, hi, Bool.not_true, Bool.false_eq_true, if_false, if_neg (Nat.not_le.mpr h), hp, hr]

end

/-- A word of the row, and a word of none, runs through the issue. -/
theorem cellInsn_row {r : Row} {i : Insn} (h : rowOf i = some r ∨ rowOf i = none) (eff : State → Issue → State) (s : State) (c w : Nat) :
    cellInsn r eff s c w i = .next (quiet s (issueWith s c w i eff)) := by
  obtain h | h := h <;> simp [cellInsn, h]

section
variable {win : Win} {a n : Nat}

theorem accessFault_misaligned {store : Bool} (ha : a % n ≠ 0) (hc : store = true → win.code ≤ a) (hs : a + n ≤ win.size) :
    accessFault win a n store = some (.is causeMisaligned) := by
  have hb : (store && decide (a < win.code)) = false := by
    cases store
    · rfl
    · simpa using hc rfl
  have hm : (a % n != 0) = true := by simpa using ha
  simp [accessFault, hm, hb, Nat.not_lt.mpr hs]

theorem accessFault_beyond (ha : a % n = 0) (hs : win.size < a + n) : accessFault win a n false = some (.is causeBounds) := by
  simp [accessFault, ha, hs]

theorem accessFault_code (ha : a % n = 0) (hc : a < win.code) : accessFault win a n true = some (.is causeStoreCode) := by
  simp [accessFault, ha, hc]

/-- An access that a check of R45 or R46 refuses faults with the check's cause. -/
theorem withAccess_fault {u : State} {x : Issue} {load store : Bool} {e : Ecc} {k : State → State} {cause : Nat} (hk : cause < 256)
    (h : accessFault x.win a n store = some (.is cause)) : withAccess u x a n load store e k = takeFault u x.c x.w x.pc cause a := by
  have hr : resolve u 8 (.is cause) = (cause, u) := congrArg (·, u) (Nat.mod_eq_of_lt hk)
  simp only [withAccess, h, hr, Issue.fault]

end

section
variable {u : State} {x : Issue} {e : Ecc} {cause : Nat} (hk : cause < 256)
include hk

theorem scalarLoadEffect_fault (h : accessFault x.win (x.addr u) (accessBytes (iOp x.i)) false = some (.is cause)) :
    scalarLoadEffect e u x = takeFault u x.c x.w x.pc cause (x.addr u) := by
  rw [scalarLoadEffect, withAccess_fault hk h]

theorem scalarStoreEffect_fault (h : accessFault x.win (x.addr u) (accessBytes (iOp x.i)) true = some (.is cause)) :
    scalarStoreEffect u x = takeFault u x.c x.w x.pc cause (x.addr u) := by
  rw [scalarStoreEffect, withAccess_fault hk h]

theorem vldEffect_fault (h : accessFault x.win (x.addr u) 64 false = some (.is cause)) :
    vldEffect e u x = takeFault u x.c x.w x.pc cause (x.addr u) := by
  rw [vldEffect, withAccess_fault hk h]

theorem vstEffect_fault (h : accessFault x.win (x.addr u) 64 true = some (.is cause)) :
    vstEffect u x = takeFault u x.c x.w x.pc cause (x.addr u) := by
  rw [vstEffect, withAccess_fault hk h]

end

/-- Settles O59. -/
theorem workerFaults : Obligations.WorkerFaults := by
  intro s c w win i _ hw hi pc f bad u x a
  have causes : causeMisaligned < 256 ∧ causeBounds < 256 ∧ causeStoreCode < 256 := by decide
  obtain ⟨hm, hb, hsc⟩ := causes
  refine ⟨fun hr => ⟨fun hc => ?_, fun hc hp => ?_⟩, fun hc hp hr => ?_, fun e h ha hs => ?_, fun h ha hc hs => ?_, fun e h ha hs => ?_,
    fun h ha hc hs => ?_, fun e h ha hs => ?_, fun h ha hc => ?_⟩
  · exact (cellInsn_row (.inl hr) ..).trans (next_quiet (issueWith_beyondCode hw hi _ hc))
  · exact (cellInsn_row (.inl hr) ..).trans (next_quiet (issueWith_poisoned hw hi _ hc hp))
  · exact (cellInsn_row (.inr hr) ..).trans (next_quiet (issueWith_illegal hw hi _ hc hp hr))
  · exact cellInsn_effect h (scalarLoadEffect_fault hm (accessFault_misaligned ha Bool.false_ne_true.elim hs))
  · exact cellInsn_effect h (scalarStoreEffect_fault hm (accessFault_misaligned ha (fun _ => hc) hs))
  · exact cellInsn_effect h (vldEffect_fault hm (accessFault_misaligned ha Bool.false_ne_true.elim hs))
  · exact cellInsn_effect h (vstEffect_fault hm (accessFault_misaligned ha (fun _ => hc) hs))
  · exact cellInsn_effect h (scalarLoadEffect_fault hb (accessFault_beyond ha hs))
  · exact cellInsn_effect h (scalarStoreEffect_fault hsc (accessFault_code ha hc))

end Sys2Proof.Machine
end

section
/-!
PROOFS. What reports touch, edges and markers (R19, R23, R25), and register writes (R7, R25, R260, R349, R371, R385).
-/

namespace Sys2Proof.Machine

/-! ## Reports: counters, event flags and records -/

/-- `t` is `s` after reports alone: registers, messages sent, pending vectors, and the log with its score have moved (R346, R350, R351). -/
def Reports (s t : State) : Prop :=
  ∃ regs fns tx score seq log windows hold, t = { s with
    regs := regs, tx := tx
    host := { s.host with fns := fns }
    reliab := { s.reliab with score := score, seq := seq, log := log, windows := windows }
    mgmt := { s.mgmt with ibiHold := hold } }

theorem Reports.refl (s : State) : Reports s s := ⟨_, _, _, _, _, _, _, _, rfl⟩

theorem Reports.trans {s t u : State} (h : Reports s t) (h' : Reports t u) : Reports s u := by
  obtain ⟨_, _, _, _, _, _, _, _, rfl⟩ := h
  obtain ⟨_, _, _, _, _, _, _, _, rfl⟩ := h'
  exact ⟨_, _, _, _, _, _, _, _, rfl⟩

theorem reports_rset (s : State) (off v : Nat) : Reports s (rset s off v) := ⟨_, _, _, _, _, _, _, _, rfl⟩

theorem reports_rput (s : State) (off hi lo v : Nat) : Reports s (rput s off hi lo v) := reports_rset ..

theorem reports_satAdd (s : State) (off hi lo n : Nat) : Reports s (satAdd s off hi lo n) := reports_rput ..

theorem reports_raiseVector (s : State) (f v : Nat) : Reports s (raiseVector s f v) := by
  unfold raiseVector
  split
  · dsimp only
    split <;> exact ⟨_, _, _, _, _, _, _, _, rfl⟩
  · exact .refl s

theorem reports_setEvent (s : State) (off i : Nat) : Reports s (setEvent s off i) := by
  unfold setEvent
  dsimp only
  split
  · exact (reports_rput ..).trans (reports_raiseVector ..)
  · exact reports_rput ..

theorem reports_raiseIbi (s : State) : Reports s (raiseIbi s) := by
  unfold raiseIbi
  split
  · exact ⟨_, _, _, _, _, _, _, _, rfl⟩
  · exact .refl s

theorem reports_writeRecord (s : State) (e : Ev) : Reports s (writeRecord s e) := by
  unfold writeRecord
  dsimp only
  refine Reports.trans (t := if decide (256 < s.reliab.seq + 1) && decide (s.mgmt.sent < s.reliab.seq + 1 - 256) then
    setEvent (satAdd s rRlLogLost 31 0 1) rRlEvent 7 else s) ?_ (Reports.trans ?_ (reports_raiseIbi _))
  · split
    · exact (reports_satAdd ..).trans (reports_setEvent ..)
    · exact .refl s
  · exact ⟨_, _, _, _, _, _, _, _, rfl⟩

theorem reports_event (s : State) (e : Ev) (d : Nat) : Reports s (event s e d) := by
  have hscore : Reports s (addScore s d) := ⟨_, _, _, _, _, _, _, _, rfl⟩
  unfold event
  dsimp only
  split
  · split
    · exact hscore.trans ⟨_, _, _, _, _, _, _, _, rfl⟩
    · exact hscore.trans ((reports_writeRecord ..).trans ⟨_, _, _, _, _, _, _, _, rfl⟩)
  · exact hscore.trans (reports_writeRecord ..)

theorem Reports.beat {s t : State} (h : Reports s t) : t.beat = s.beat := by
  obtain ⟨_, _, _, _, _, _, _, _, rfl⟩ := h; rfl
theorem Reports.sched {s t : State} (h : Reports s t) : t.sched = s.sched := by
  obtain ⟨_, _, _, _, _, _, _, _, rfl⟩ := h; rfl
theorem Reports.sec {s t : State} (h : Reports s t) : t.sec = s.sec := by
  obtain ⟨_, _, _, _, _, _, _, _, rfl⟩ := h; rfl
theorem Reports.boot {s t : State} (h : Reports s t) : t.boot = s.boot := by
  obtain ⟨_, _, _, _, _, _, _, _, rfl⟩ := h; rfl
theorem Reports.health {s t : State} (h : Reports s t) : t.reliab.health = s.reliab.health ∧ t.reliab.cause = s.reliab.cause := by
  obtain ⟨_, _, _, _, _, _, _, _, rfl⟩ := h; exact ⟨rfl, rfl⟩
theorem Reports.jobStarted {s t : State} (h : Reports s t) : Machine.jobStarted t = Machine.jobStarted s := by
  obtain ⟨_, _, _, _, _, _, _, _, rfl⟩ := h; rfl

/-! ## Edges and markers -/

theorem reports_strayEdge (s : State) : Reports s (strayEdge s) := (reports_satAdd ..).trans (reports_setEvent ..)

theorem ofInt_lt (n : Nat) (i : Int) : ofInt n i < 2 ^ n := by
  have hpos : (0 : Int) < 2 ^ n := Int.pow_pos (by decide)
  have hcast : ((2 ^ n : Nat) : Int) = 2 ^ n := Int.natCast_pow 2 n
  have hnonneg : 0 ≤ i % 2 ^ n := Int.emod_nonneg i (Int.ne_of_gt hpos)
  exact (Int.toNat_lt hnonneg).mpr (hcast ▸ Int.emod_lt_of_pos i hpos)

theorem rget_acceptEdge (s : State) (offset : Int) : rget (acceptEdge s offset) rBtEdgeErr = ofInt 16 offset := by
  rw [acceptEdge, rget_rset_same, Nat.mod_eq_of_lt (Nat.lt_trans (ofInt_lt 16 offset) (by decide))]

section
variable {s : State} {offset : Int}

theorem beatEdge_scanned (h : scanOwnsPins s = true) : beatEdge s offset = s := by
  simp [beatEdge, h]

theorem beatEdge_unlocked (h : s.beat.state = .unlocked) : beatEdge s offset = s := by
  simp [beatEdge, h]

theorem beatEdge_acquiring (hs : scanOwnsPins s = false) (h : s.beat.state = .acquiring) : beatEdge s offset = edgeAcquiring s offset := by
  simp [beatEdge, hs, h]

theorem beatEdge_accepted (hs : scanOwnsPins s = false) (h : s.beat.state = .locked ∨ s.beat.state = .holdover)
    (hw : offset.natAbs ≤ windowNs s) (ha : s.beat.accepted = false) :
    beatEdge s offset = acceptEdge { s with beat := { s.beat with accepted := true } } offset := by
  obtain h | h := h <;> simp [beatEdge, hs, h, Nat.not_lt.mpr hw, ha]

theorem beatEdge_stray (hs : scanOwnsPins s = false) (h : s.beat.state = .locked ∨ s.beat.state = .holdover ∨ s.beat.state = .lost)
    (hw : windowNs s < offset.natAbs ∨ s.beat.accepted = true) : beatEdge s offset = strayEdge s := by
  obtain h | h | h := h <;> simp [beatEdge, hs, h, hw]

theorem edgeAcquiring_first (hp : s.beat.phased = false) :
    edgeAcquiring s offset =
      acceptEdge { s with beat := { s.beat with phased := true, acqEdges := s.beat.acqEdges + b2n s.beat.acqMarker.isSome } } 0 := by
  simp [edgeAcquiring, hp]

theorem edgeAcquiring_stray (hp : s.beat.phased = true) (hw : windowNs s < offset.natAbs) :
    edgeAcquiring s offset = strayEdge { s with beat := { s.beat with run := 0 } } := by
  simp [edgeAcquiring, hp, hw]

section
variable (hp : s.beat.phased = true) (hw : offset.natAbs ≤ windowNs s)
include hp hw

/-- An edge in time adds to the run; the run and the count of edges since the marker move, and nothing else of the unit. -/
theorem edgeAcquiring_run (hr : s.beat.run < 16) :
    ∃ e, edgeAcquiring s offset = { acceptEdge s offset with beat := { s.beat with run := s.beat.run + 1, acqEdges := e } } := by
  have h1 : s.beat.run ≠ 16 := by omega
  have h2 : min 16 (s.beat.run + 1) = s.beat.run + 1 := by omega
  cases hm : s.beat.acqMarker with
  | none => exact ⟨s.beat.acqEdges, by simp [edgeAcquiring, hp, Nat.not_lt.mpr hw, h1, h2, hm, acceptEdge, rset]⟩
  | some m => exact ⟨s.beat.acqEdges + 1, by simp [edgeAcquiring, hp, Nat.not_lt.mpr hw, h1, h2, hm, acceptEdge, rset]⟩

theorem edgeAcquiring_source (hr : s.beat.run = 16) (hs : isSource s = true) :
    edgeAcquiring s offset = lockAt (acceptEdge s offset) (seedOf s) := by
  have hs' : isSource (acceptEdge s offset) = true := hs
  simp [edgeAcquiring, hp, Nat.not_lt.mpr hw, hr, hs']
  rfl

theorem edgeAcquiring_marked (hr : s.beat.run = 16) (hs : isSource s = false) {m : Nat × Nat} (hm : s.beat.acqMarker = some m) :
    edgeAcquiring s offset = lockAt (acceptEdge s offset) (m.2 + s.beat.acqEdges) := by
  have hs' : isSource (acceptEdge s offset) = false := hs
  simp [edgeAcquiring, hp, Nat.not_lt.mpr hw, hr, hs', hm]

theorem edgeAcquiring_unmarked (hr : s.beat.run = 16) (hs : isSource s = false) (hm : s.beat.acqMarker = none) :
    edgeAcquiring s offset = acceptEdge s offset := by
  have hs' : isSource (acceptEdge s offset) = false := hs
  have hrun : min 16 (s.beat.run + 1) = s.beat.run := by omega
  unfold edgeAcquiring
  dsimp only
  rw [if_neg (by simp [hp]), if_neg (Nat.not_lt.mpr hw), if_neg (by simp [hs'])]
  split
  next m hm' => cases hm.symm.trans hm'
  next => rw [hrun]; rfl

end

/-- The unit as LOCKED is entered. -/
theorem lockAt_entered (s : State) (n : Nat) :
    (lockAt s n).beat.state = .locked ∧ (lockAt s n).beat.count = min n maxBeat ∧ (lockAt s n).beat.held = 0 := by
  simp [lockAt]

/-- R23: a marker of a port that is UP is kept if none of the port is. -/
theorem marker_kept {p v : Nat} (h : s.beat.state = .locked ∨ s.beat.state = .holdover) (hp : (portGet s p).state = .up) (hv : v ≠ 0) :
    (tget s.beat.markers p = none → (marker s p v true).beat = { s.beat with markers := tset s.beat.markers p v }) ∧
      (∀ m, tget s.beat.markers p = some m → (marker s p v true).beat = s.beat) := by
  let t := if v = nextBeat s then s else setEvent (satAdd s rBtErrCount 31 16 1) rBtEvent 4
  have ht : t.beat = s.beat := by
    simp only [t]
    split
    · rfl
    · simp
  have hm : marker s p v true = if (tget t.beat.markers p).isSome then t else { t with beat := { t.beat with markers := tset t.beat.markers p v } } := by
    obtain h | h := h <;> simp [marker, hp, hv, h, t]
  rw [hm, ht]
  exact ⟨fun h => by simp [h], fun m h => by simp [h, ht]⟩

end

/-- Settles O17. -/
theorem edgesAndMarkers : Obligations.EdgesAndMarkers := by
  intro s
  refine ⟨fun offset h => ?_, fun offset hs => ⟨fun h => ?_, fun h hw ha => ?_, fun h hw => ?_, fun h hp => ?_, fun h hp hw => ?_,
    fun h hp hw hr => ?_, fun h hp hw hr hsrc => ⟨fun hm => ?_, fun m hm => ?_⟩, fun h hp hw hr hsrc => ?_⟩, fun h => ?_, fun h => ?_,
    fun p v h hp hv => ?_⟩
  · exact congrArg (fun t => Host.Outcome.next (keepQueue s t)) (beatEdge_scanned h)
  · exact congrArg (fun t => Host.Outcome.next (keepQueue s t)) (beatEdge_unlocked h)
  · exact ⟨_, rfl, by rw [keepQueue_beat, beatEdge_accepted hs h hw ha]; rfl,
      by rw [rget_congr (keepQueue_regs ..), beatEdge_accepted hs h hw ha, rget_acceptEdge]⟩
  · exact congrArg (fun t => Host.Outcome.next (keepQueue s t)) (beatEdge_stray hs h hw)
  · have he := (beatEdge_acquiring (offset := offset) hs h).trans (edgeAcquiring_first hp)
    refine ⟨_, rfl, ?_, ?_, ?_, ?_⟩
    · rw [keepQueue_beat, he]; rfl
    · rw [keepQueue_beat, he]; rfl
    · rw [keepQueue_beat, he]; exact h
    · rw [rget_congr (keepQueue_regs ..), he, rget_acceptEdge]; rfl
  · exact congrArg (fun t => Host.Outcome.next (keepQueue s t)) ((beatEdge_acquiring hs h).trans (edgeAcquiring_stray hp hw))
  · obtain ⟨e, hrun⟩ := edgeAcquiring_run hp hw hr
    have he := (beatEdge_acquiring (offset := offset) hs h).trans hrun
    refine ⟨_, rfl, ?_, ?_, ?_⟩
    · rw [keepQueue_beat, he]
    · rw [keepQueue_beat, he]; exact h
    · rw [rget_congr (keepQueue_regs ..), he]; exact rget_acceptEdge ..
  · have he := (beatEdge_acquiring (offset := offset) hs h).trans (edgeAcquiring_unmarked hp hw hr hsrc hm)
    exact ⟨_, rfl, by rw [keepQueue_beat, he]; rfl, by rw [rget_congr (keepQueue_regs ..), he, rget_acceptEdge]⟩
  · have he := (beatEdge_acquiring (offset := offset) hs h).trans (edgeAcquiring_marked hp hw hr hsrc hm)
    exact ⟨_, rfl, by rw [keepQueue_beat, he]; exact lockAt_entered ..⟩
  · have he := (beatEdge_acquiring (offset := offset) hs h).trans (edgeAcquiring_source hp hw hr hsrc)
    exact ⟨_, rfl, by rw [keepQueue_beat, he]; exact lockAt_entered ..⟩
  · exact congrArg (fun t => Host.Outcome.next (keepQueue s t)) (if_pos (by simp [h]))
  · exact congrArg (fun t => Host.Outcome.next (keepQueue s t)) (if_neg (by simp [h]))
  · refine ⟨_, rfl, ?_⟩
    rw [keepQueue_beat]
    exact marker_kept h hp (by simpa [← BitVec.toNat_inj] using hv)

end Sys2Proof.Machine
end

section
/-!
PROOFS. Register writes from PF0 (R7, R9, R25, R260, R349, R371, R385, R426).
-/

namespace Sys2Proof.Machine

/-- An access from PF0 after READY, inside a block's span. -/
theorem accessWrite_bar0 {s : State} {off : Nat} (hs : s.boot.phase = 7) (hi : inSpan off = true) (v : Nat) :
    accessWrite s .bar0 off v = writeReg (closeWindowOfBoot s) .bar0 off v := by
  simp [accessWrite, hs, hi]

theorem accessWrite_bar0_outside {s : State} {off : Nat} (hs : s.boot.phase = 7) (hi : inSpan off = false) (v : Nat) :
    accessWrite s .bar0 off v = emit (aerLog (closeWindowOfBoot s) 0 aerUnsupported) (.unsupported 0) := by
  simp [accessWrite, hs, hi]

theorem bit_one_eq {n : Nat} (v : BitVec n) : bit v.toNat 1 = if v.getLsbD 1 then 1 else 0 := by
  simp only [bit, BitVec.getLsbD, Nat.testBit, Nat.shiftRight_eq_div_pow, Nat.one_and_eq_mod_two]
  split <;> simp_all

/-! ## BT_CTL -/

theorem accessWrite_btCtl {s : State} (hs : s.boot.phase = 7) (v : Nat) :
    accessWrite s .bar0 rBtCtl v = writeBtCtl (closeWindowOfBoot s) v := by
  rw [accessWrite_bar0 hs (by decide +kernel)]
  have h : (regRow? rBtCtl).isSome = true ∧ commitBlockOf rBtCtl = none := by decide +kernel
  obtain ⟨hr, hc⟩ := h
  obtain ⟨r, hr⟩ := Option.isSome_iff_exists.mp hr
  simp only [writeReg, hr, hc, if_true]

theorem exec_btCtlEnable {s : State} (hs : s.boot.phase = 7) (v : Word) :
    exec (.btCtlEnable .bar0 v) s = .next (keepQueue s (writeBtCtl (closeWindowOfBoot s) v.toNat)) :=
  congrArg (fun t => Host.Outcome.next (keepQueue s t)) (accessWrite_btCtl hs v.toNat)

section
variable {u : State} {v : Nat}

theorem writeBtCtl_start (h : bit v 0 = 1) (hu : u.beat.state = .unlocked) :
    writeBtCtl u v = { rset u rBtCtl 1 with beat := enterAcquiring u.beat } := by
  have hu' : (rset u rBtCtl 1).beat.state = .unlocked := hu
  simp only [writeBtCtl, h, if_true, hu', beq_self_eq_true]
  rfl

theorem writeBtCtl_on (h : bit v 0 = 1) (hu : u.beat.state ≠ .unlocked) : writeBtCtl u v = rset u rBtCtl 1 := by
  have hu' : ((rset u rBtCtl 1).beat.state == .unlocked) = false := beq_false_of_ne hu
  simp only [writeBtCtl, h, if_true, hu', Bool.false_eq_true, if_false]

theorem writeBtCtl_ignored (h : bit v 0 = 0) (hu : u.beat.state ≠ .unlocked) (hj : jobStarted u = true) : writeBtCtl u v = u := by
  simp [writeBtCtl, h, hu, hj]

theorem writeBtCtl_stop (h : bit v 0 = 0) (hu : u.beat.state = .acquiring) (hj : jobStarted u = false) :
    writeBtCtl u v = { rset u rBtCtl 0 with beat := enterUnlocked u.beat } := by
  have hu' : (rset u rBtCtl 0).beat.state = .acquiring := hu
  simp only [writeBtCtl, h, hj, hu', Bool.and_false, Bool.false_eq_true, if_false, Nat.zero_ne_one]
  rfl

theorem writeBtCtl_leave (h : bit v 0 = 0) (hu : u.beat.state = .locked ∨ u.beat.state = .holdover ∨ u.beat.state = .lost)
    (hj : jobStarted u = false) :
    writeBtCtl u v = { rset u rBtCtl 0 with beat := { u.beat with leaving := some false } } := by
  have hr : (rset u rBtCtl 0).beat = u.beat := rfl
  simp only [writeBtCtl, h, hj, hr, Bool.and_false, Bool.false_eq_true, if_false, Nat.zero_ne_one]
  obtain hu | hu | hu := hu <;> rw [hu]

end

/-- Settles O26. -/
theorem beatControl : Obligations.BeatControl := by
  intro s v hs
  rw [exec_btCtlEnable hs]
  have hbit := bit_zero_eq v
  refine ⟨fun h hu => ?_, fun h hu => ?_, fun h hj hu => ?_, fun h hj hu => ?_, fun h hj hu => ?_⟩ <;> rw [h] at hbit
  · rw [writeBtCtl_start (u := closeWindowOfBoot s) hbit hu]
    exact ⟨_, rfl, rfl, rfl, rfl, rget_rset_same ..⟩
  · rw [writeBtCtl_on (u := closeWindowOfBoot s) hbit hu]
    exact ⟨_, rfl, rfl, rget_rset_same ..⟩
  · rw [writeBtCtl_stop (u := closeWindowOfBoot s) hbit hu hj]
    exact ⟨_, rfl, rfl, rfl, rget_rset_same ..⟩
  · have hstate : s.beat.state = .locked ∨ s.beat.state = .holdover ∨ s.beat.state = .lost := by
      simpa [hasBeat, or_assoc] using hu
    rw [writeBtCtl_leave (u := closeWindowOfBoot s) hbit hstate hj]
    exact ⟨_, rfl, rfl, rget_rset_same ..⟩
  · rw [writeBtCtl_ignored (u := closeWindowOfBoot s) hbit hu hj]
    exact ⟨_, rfl, rfl, rfl⟩

/-! ## Registers without an effect of their own -/

/-- A register that no rule gives an effect of its own (R7). -/
structure PlainReg (o : Nat) (r : RegRow) : Prop where
  row : regRow? o = some r
  commit : commitBlockOf o = none
  special : o ∉ [rBtCtl, rBtCommit, rRlExpel, rScGrantCtl, rEgRouteSel]
  buffer : ¬ (rScGrantBuf 0 ≤ o ∧ o < rScGrantBuf 2048)
  port : ¬ (rEgPortCtl 0 ≤ o ∧ o < rEgPortCtl 6 ∧ o % 64 = 0)
  pin : ¬ (rMgTmxk 0 ≤ o ∧ o < rMgTmxk 16)
  window : ¬ (rHiFnCommitSt 0 ≤ o ∧ o < rHiFnCommitSt 256 ∧ o % 1024 = 4)

theorem PlainReg.writeReg {o : Nat} {r : RegRow} (h : PlainReg o r) (s : State) (p : Path) (v : Nat) :
    Machine.writeReg s p o v = writePlain s r o v := by
  obtain ⟨hr, hc, hs, hb, hp, hm, hw⟩ := h
  simp only [List.mem_cons, List.not_mem_nil, or_false, not_or] at hs
  obtain ⟨h1, _, h2, h3, h4⟩ := hs
  simp only [Machine.writeReg, hr, hc, h1, h2, h3, h4, hb, hp, hm, hw, if_false]

theorem PlainReg.ne_beat {o : Nat} {r : RegRow} (h : PlainReg o r) : ¬ (o = rBtCtl ∨ o = rBtCommit) :=
  fun ho => h.special (by obtain rfl | rfl := ho <;> simp)

/-- A word written where no beat register lies. -/
theorem writeWord_other {o : Nat} (h : ¬ (o = rBtCtl ∨ o = rBtCommit)) (p : Path) (v : Word) (s : State) :
    writeWord p o v s = quiet s (settle (accessWrite s p o v.toNat)) := if_neg h

/-- No register is at an offset, so none of the beat unit is. -/
theorem ne_beat_of_noReg {o : Nat} (h : regRow? o = none) : ¬ (o = rBtCtl ∨ o = rBtCommit) := by
  have hr : (regRow? rBtCtl).isSome = true ∧ (regRow? rBtCommit).isSome = true := by decide +kernel
  rintro (rfl | rfl)
  · simp [h] at hr
  · simp [h] at hr

theorem writeReg_noReg {o : Nat} (h : regRow? o = none) (s : State) (p : Path) (v : Nat) : writeReg s p o v = s := by
  simp [writeReg, h]

/-- A read inside a span at no register answers zeros. -/
theorem accessRead_noReg {s : State} {o : Nat} (hs : s.boot.phase = 7) (hi : inSpan o = true) (ha : o % 4 = 0) (h : regRow? o = none) :
    accessRead s .bar0 o 4 = emit s (.completion 0 (leBytes 4 0) false) := by
  have hr : readReg s .bar0 o = (0, s) := by simp [readReg, h]
  rw [accessRead_bar0_word hs hi ha, hr]

theorem accessRead_outside {s : State} {o : Nat} (hs : s.boot.phase = 7) (hi : inSpan o = false) (n : Nat) :
    accessRead s .bar0 o n = emit (aerLog s 0 aerUnsupported) (.unsupported 0) := by
  simp [accessRead, hs, hi]

/-- An access at no register of PF0's BAR0. -/
theorem exec_unmapped {s : State} {off : BitVec 26} (h : regRow? (off.toNat / 4 * 4) = none) (w : Bool) :
    exec (.bar0UnmappedAccess 0 w off) s =
      .next (quiet s (if w then accessWrite s .bar0 (off.toNat / 4 * 4) 0 else accessRead s .bar0 (off.toNat / 4 * 4) 4)) := by
  show Host.Outcome.next (quiet s (if (regRow? (off.toNat / 4 * 4)).isSome then s else _)) = _
  rw [h]
  rfl

/-- Settles O28. -/
theorem plainRegisters : Obligations.PlainRegisters := by
  intro s off v hs o s0 special
  have ha : o % 4 = 0 := Nat.mul_mod_left ..
  refine ⟨fun r hr hi hc hspec hb hp hm hw => ?_, fun p vs => rfl, fun hr hi => ⟨?_, ?_, ?_⟩, fun hr hi => ⟨?_, ?_⟩⟩
  · have hplain : PlainReg o r := ⟨hr, hc, hspec, hb, hp, hm, hw⟩
    have ht : writeWord .bar0 o v s = quiet s (settle (writePlain s0 r o v.toNat)) := by
      rw [writeWord_other hplain.ne_beat, accessWrite_bar0 hs hi, hplain.writeReg]
      rfl
    exact ⟨congrArg Host.Outcome.next ht, fun u => congrArg (fun t => Host.Outcome.next (writeWord .bar0 (o + 4) u t)) ht⟩
  · have ht : writeWord .bar0 o v s = quiet s (settle s0) := by
      rw [writeWord_other (ne_beat_of_noReg hr), accessWrite_bar0 hs hi, writeReg_noReg hr]
      rfl
    exact congrArg Host.Outcome.next ht
  · rw [exec_unmapped hr, if_pos rfl, accessWrite_bar0 hs hi, writeReg_noReg hr]
    rfl
  · rw [exec_unmapped hr, if_neg Bool.false_ne_true, accessRead_noReg hs hi ha hr]
  · rw [exec_unmapped hr, if_pos rfl, accessWrite_bar0_outside hs hi]
    rfl
  · rw [exec_unmapped hr, if_neg Bool.false_ne_true, accessRead_outside hs hi]

/-! ## Ports, expel, grants and pins -/

/-- A register of its own effect, written from PF0: the row it has and its place among the others. -/
theorem writeReg_portCtl (s : State) (p : PortId) (v : Nat) : writeReg s .bar0 (rEgPortCtl p.val) v = writePortCtl s p.val v := by
  have h : ∀ p : PortId, (regRow? (rEgPortCtl p.val)).isSome = true ∧ commitBlockOf (rEgPortCtl p.val) = none := by decide +kernel
  obtain ⟨hr, hc⟩ := h p
  obtain ⟨r, hr⟩ := Option.isSome_iff_exists.mp hr
  have hp := p.isLt
  have h1 : rEgPortCtl p.val ≠ rBtCtl := by unfold rEgPortCtl rBtCtl; omega
  have h2 : rEgPortCtl p.val ≠ rRlExpel := by unfold rEgPortCtl rRlExpel; omega
  have h3 : rEgPortCtl p.val ≠ rScGrantCtl := by unfold rEgPortCtl rScGrantCtl; omega
  have h4 : ¬ (rScGrantBuf 0 ≤ rEgPortCtl p.val ∧ rEgPortCtl p.val < rScGrantBuf 2048) := by unfold rEgPortCtl rScGrantBuf; omega
  have h5 : rEgPortCtl p.val ≠ rEgRouteSel := by unfold rEgPortCtl rEgRouteSel; omega
  have h6 : rEgPortCtl 0 ≤ rEgPortCtl p.val ∧ rEgPortCtl p.val < rEgPortCtl 6 ∧ rEgPortCtl p.val % 64 = 0 := by
    unfold rEgPortCtl; omega
  have h7 : (rEgPortCtl p.val - rEgPortCtl 0) / 64 = p.val := by unfold rEgPortCtl; omega
  simp only [writeReg, hr, hc, h1, h2, h3, h4, h5, h6, h7, and_self, if_true, if_false]

theorem writeReg_expel (s : State) (v : Nat) : writeReg s .bar0 rRlExpel v = writeExpel s v := by
  have h : (regRow? rRlExpel).isSome = true ∧ commitBlockOf rRlExpel = none ∧ rRlExpel ≠ rBtCtl := by decide +kernel
  obtain ⟨hr, hc, h1⟩ := h
  obtain ⟨r, hr⟩ := Option.isSome_iff_exists.mp hr
  simp only [writeReg, hr, hc, h1, if_true, if_false]

theorem writeReg_grantCtl (s : State) {r : RegRow} (hr : regRow? rScGrantCtl = some r) (v : Nat) :
    writeReg s .bar0 rScGrantCtl v = writeGrantCtl s r v := by
  have h : commitBlockOf rScGrantCtl = none ∧ rScGrantCtl ≠ rBtCtl ∧ rScGrantCtl ≠ rRlExpel := by decide +kernel
  obtain ⟨hc, h1, h2⟩ := h
  simp only [writeReg, hr, hc, h1, h2, if_true, if_false]

theorem writeReg_tmx (s : State) (k : Fin 16) {r : RegRow} (hr : regRow? (rMgTmxk k.val) = some r) (v : Nat) :
    writeReg s .bar0 (rMgTmxk k.val) v = if tmxOk (bits v 15 8) (bits v 7 0) then writePlain s r (rMgTmxk k.val) v else s := by
  have h : ∀ k : Fin 16, commitBlockOf (rMgTmxk k.val) = none := by decide +kernel
  have hc := h k
  have hk := k.isLt
  have h1 : rMgTmxk k.val ≠ rBtCtl := by unfold rMgTmxk rBtCtl; omega
  have h2 : rMgTmxk k.val ≠ rRlExpel := by unfold rMgTmxk rRlExpel; omega
  have h3 : rMgTmxk k.val ≠ rScGrantCtl := by unfold rMgTmxk rScGrantCtl; omega
  have h4 : ¬ (rScGrantBuf 0 ≤ rMgTmxk k.val ∧ rMgTmxk k.val < rScGrantBuf 2048) := by unfold rMgTmxk rScGrantBuf; omega
  have h5 : rMgTmxk k.val ≠ rEgRouteSel := by unfold rMgTmxk rEgRouteSel; omega
  have h6 : ¬ (rEgPortCtl 0 ≤ rMgTmxk k.val ∧ rMgTmxk k.val < rEgPortCtl 6 ∧ rMgTmxk k.val % 64 = 0) := by
    unfold rMgTmxk rEgPortCtl; omega
  have h7 : rMgTmxk 0 ≤ rMgTmxk k.val ∧ rMgTmxk k.val < rMgTmxk 16 := by unfold rMgTmxk; omega
  simp only [writeReg, hr, hc, h1, h2, h3, h4, h5, h6, h7, and_self, if_true, if_false]

section
variable {s : State} {p v : Nat}

theorem rfld_rput_one (s : State) (off : Nat) : rfld (rput s off 0 0 1) off 0 0 = 1 := by
  rw [rfld, rput, rget_rset_same]
  simp only [putBits, bits]
  omega

theorem writePortCtl_train (h0 : bit v 0 = 1) (h1 : bit v 1 = 0) (hd : (portGet s p).state = .disabled)
    (hr : s.power.ready.getLsbD (36 + p) = true) : writePortCtl s p v = trainPort (rput s (rEgPortCtl p) 0 0 1) p := by
  have he : enablePort (rput s (rEgPortCtl p) 0 0 1) p = trainPort (rput s (rEgPortCtl p) 0 0 1) p := by
    have hd' : (portGet (rput s (rEgPortCtl p) 0 0 1) p).state = .disabled := hd
    have hr' : (rput s (rEgPortCtl p) 0 0 1).power.ready.getLsbD (36 + p) = true := hr
    simp only [enablePort, hd', hr', rfld_rput_one, beq_self_eq_true, Bool.and_self, if_true]
  simp [writePortCtl, h0, h1, he]

theorem writePortCtl_disable (h0 : bit v 0 = 0) :
    writePortCtl s p v = leaveUp (rput s (rEgPortCtl p) 0 0 0) p .disabled 0 := by
  simp only [writePortCtl, h0, if_true, disablePort]

theorem writePortCtl_retrain (h0 : bit v 0 = 1) (h1 : bit v 1 = 1) (hu : (portGet s p).state = .up) :
    writePortCtl s p v = trainPort
      (satAdd (leaveUp (rput s (rEgPortCtl p) 0 0 1) p .down (downCause .retrain)) (rEgPortFlaps p) 31 16 1) p := by
  have hu' : (portGet (rput s (rEgPortCtl p) 0 0 1) p).state = .up := hu
  have he : enablePort (rput s (rEgPortCtl p) 0 0 1) p = rput s (rEgPortCtl p) 0 0 1 := by simp [enablePort, hu']
  have hup : portUp (rput s (rEgPortCtl p) 0 0 1) p = true := by simp [portUp, hu']
  simp only [writePortCtl, h0, h1, he, if_true, Nat.one_ne_zero, if_false, portGoesDown, hup]
  rfl

end

/-! ### Health moves -/

theorem reports_ite_setEvent (c : Prop) [Decidable c] (s : State) (off i : Nat) : Reports s (if c then setEvent s off i else s) := by
  split
  · exact reports_setEvent ..
  · exact .refl s

/-- A move of the health state changes the state and its cause, and what reports move. -/
theorem reports_healthMove (s : State) (h : Health) (soft : Bool) :
    Reports { s with reliab := { s.reliab with health := h, cause := if h == .healthy then 0 else s.reliab.cause } } (healthMove s h soft) := by
  unfold healthMove
  exact (((reports_ite_setEvent ..).trans (reports_ite_setEvent ..)).trans (reports_ite_setEvent ..)).trans (reports_event ..)

theorem healthMove_health (s : State) (h : Health) (soft : Bool) :
    (healthMove s h soft).reliab.health = h ∧
      (healthMove s h soft).reliab.cause = (if h == .healthy then 0 else s.reliab.cause) ∧
      jobStarted (healthMove s h soft) = jobStarted s :=
  have hr := reports_healthMove s h soft
  ⟨hr.health.1, hr.health.2, hr.jobStarted⟩

/-- GRANT ends in EXPELLING, and with no job started in EXPELLED, with the cause kept or set to 1. -/
theorem expel_health (s : State) :
    (expel s).reliab.health = (if jobStarted s then .expelling else .expelled) ∧ (expel s).reliab.cause = s.reliab.cause := by
  obtain ⟨h1, h2, h3⟩ := healthMove_health s .expelling false
  obtain ⟨k1, k2, _⟩ := healthMove_health (healthMove s .expelling) .expelled false
  unfold expel
  dsimp only
  rw [h3]
  split
  · exact ⟨h1, h2⟩
  · exact ⟨k1, k2.trans h2⟩

theorem writeExpel_grant {s : State} (h : s.reliab.health = .softPending ∨ s.reliab.health = .suspect) :
    writeExpel s 1 = expel { s with reliab := { s.reliab with cause := if s.reliab.cause = 0 then 1 else s.reliab.cause } } := by
  have hg : writeExpel s 1 = grantExpel s := by simp [writeExpel, bit]
  rw [hg]
  exact if_pos (by simpa using h)

theorem writeExpel_noSpare {s : State} (h : s.reliab.health = .softPending) : writeExpel s 2 = healthMove s .suspect := by
  have hg : writeExpel s 2 = noSpare s := by simp [writeExpel, bit]
  rw [hg]
  exact if_pos (by simpa using h)

/-- SUBMIT without END hands the buffer to the verification, where none is under way. -/
theorem writeGrantCtl_submit {s : State} {r : RegRow} {v : Nat} (h0 : bit v 0 = 1) (h1 : bit v 1 = 0) (hn : s.sec.grant = none) :
    let w := writePlain s r rScGrantCtl v
    writeGrantCtl s r v = { w with sec := { w.sec with grant := some (rfld w rScGrantCtl 29 16) } } := by
  have hn' : (writePlain s r rScGrantCtl v).sec.grant.isSome = false := by
    rw [show (writePlain s r rScGrantCtl v).sec = s.sec from rfl, hn]
    rfl
  simp only [writeGrantCtl, h0, h1, if_true, Nat.zero_ne_one, if_false, submitGrant, hn', Bool.false_eq_true]

/-- END alone ends debug. -/
theorem writeGrantCtl_end {s : State} {r : RegRow} {v : Nat} (h0 : bit v 0 = 0) (h1 : bit v 1 = 1) :
    writeGrantCtl s r v = setDebug (writePlain s r rScGrantCtl v) 0 := by
  simp only [writeGrantCtl, h0, h1, if_true, Nat.zero_ne_one, if_false]

/-- Settles O29. -/
theorem controlRegisters : Obligations.ControlRegisters := by
  intro s hs s0
  have hp : Powered s := by simp [Powered, hs]
  have bit0 (v : Word) := bit_zero_eq v
  have bit1 (v : Word) := bit_one_eq v
  have write {o : Nat} (hi : inSpan o = true) (v : Nat) : accessWrite s .bar0 o v = writeReg s0 .bar0 o v := accessWrite_bar0 hs hi v
  have hport : ∀ p : PortId, inSpan (rEgPortCtl p.val) = true := by decide +kernel
  have hpin : ∀ k : Fin 16, inSpan (rMgTmxk k.val) = true := by decide +kernel
  have hrest : inSpan rRlExpel = true ∧ inSpan rScGrantCtl = true := by decide +kernel
  obtain ⟨hexpel, hgrant⟩ := hrest
  refine ⟨fun p v => ⟨fun h0 h1 hd hr => ?_, fun h0 => ?_, fun h0 h1 hu => ?_⟩, fun hh => ?_, fun hh => ?_,
    fun v r hr h0 h1 hn => ?_, ?_, fun k v r hr => ⟨fun hok => ?_, fun hok => ?_⟩⟩
  · refine next_quiet (congrArg settle ?_)
    rw [write (hport p), writeReg_portCtl, writePortCtl_train (s := s0) (by rw [bit0, h0]; rfl) (by rw [bit1, h1]; rfl) hd hr]
  · refine next_quiet (congrArg settle ?_)
    rw [write (hport p), writeReg_portCtl, writePortCtl_disable (s := s0) (by rw [bit0, h0]; rfl)]
  · refine next_quiet (congrArg settle ?_)
    rw [write (hport p), writeReg_portCtl, writePortCtl_retrain (s := s0) (by rw [bit0, h0]; rfl) (by rw [bit1, h1]; rfl) hu]
  · refine ⟨_, rfl, ?_⟩
    rw [quiet_reliab hp, write hexpel, writeReg_expel, writeExpel_grant (s := s0) hh]
    exact expel_health _
  · refine ⟨_, rfl, ?_⟩
    rw [quiet_reliab hp, write hexpel, writeReg_expel, writeExpel_noSpare (s := s0) hh]
    obtain ⟨h1, h2, _⟩ := healthMove_health s0 .suspect false
    exact ⟨h1, h2⟩
  · refine next_quiet ?_
    rw [write hgrant, writeReg_grantCtl s0 hr, writeGrantCtl_submit (s := s0) (by rw [bit0, h0]; rfl) (by rw [bit1, h1]; rfl) hn]
  · have hrow : (regRow? rScGrantCtl).isSome = true := by decide +kernel
    obtain ⟨r, hr⟩ := Option.isSome_iff_exists.mp hrow
    refine ⟨_, rfl, ?_⟩
    rw [quiet_sec hp, quiet_mgmt hp, write hgrant, writeReg_grantCtl s0 hr,
      writeGrantCtl_end (s := s0) (by unfold bit; omega) (by unfold bit; omega)]
    exact ⟨rfl, rfl, rfl⟩
  · refine next_quiet ?_
    rw [write (hpin k), writeReg_tmx s0 k hr, if_pos hok]
  · refine next_quiet ?_
    rw [write (hpin k), writeReg_tmx s0 k hr, if_neg (by simp [hok])]

end Sys2Proof.Machine
end

section
/-!
PROOFS. Host commands at the parse (R303, R304), and the commands of the device and of the copy engine (R235, R311 to R313).
-/

namespace Sys2Proof.Machine

/-! ## At the parse -/

section
variable {s : State} {h : CmdHdr} {op : HostOp} {c : Instr}

theorem issueHostCommand_open (hf : fetchOpen s h.fn.val = true) : issueHostCommand s h op = settle (takeCommand s h op) := if_pos hf

theorem takeCommand_held (hc : parseCheck s h op = .hold) : takeCommand s h op = enterCmd s h op 1 := by
  simp only [takeCommand, hc]

/-- Row 2 of R303: an operation of PF0 alone. -/
theorem parseCheck_pf0 (hf : h.fn.val ≠ 0) (hp : opPf0 op = true) : parseCheck s h op = .refuse stRights := by
  simp [parseCheck, hf, hp]

/-- A command whose packet starts ends with what its operation makes of the state that has taken it in. -/
theorem exec_starts (hs : Starts s h op) {t : State} (ht : startOp (enterCmd s h op 2) (freshCmd s) false = t)
    (hc : exec c s = .next (quiet s (issueHostCommand s h op)) := by rfl) : exec c s = .next (quiet s (settle t)) := by
  rw [hc, issueHostCommand_starts hs, ht]

end

/-- Settles O37: each command issues its operation, and the parse decides. -/
theorem commandChecks : Obligations.CommandChecks := by
  intro s h page hd buf role slot mode client job first last n k target l count p tokens nonce im a hi ra pa sa mi pf ca da host x hx
  have hissue : exec x.1 s = .next (quiet s (issueHostCommand s h x.2.1)) ∧ foragerOp x.2.1 = x.2.2 := by
    revert x
    simp only [List.forall_mem_cons]
    exact ⟨⟨rfl, rfl⟩, ⟨rfl, rfl⟩, ⟨rfl, rfl⟩, ⟨rfl, rfl⟩, ⟨rfl, rfl⟩, ⟨rfl, rfl⟩, ⟨rfl, rfl⟩, ⟨rfl, rfl⟩, ⟨rfl, rfl⟩, ⟨rfl, rfl⟩,
      ⟨rfl, rfl⟩, ⟨rfl, rfl⟩, ⟨rfl, rfl⟩, ⟨rfl, rfl⟩, ⟨rfl, rfl⟩, ⟨rfl, rfl⟩, ⟨rfl, rfl⟩, ⟨rfl, rfl⟩, ⟨rfl, rfl⟩, ⟨rfl, rfl⟩,
      ⟨rfl, rfl⟩, ⟨rfl, rfl⟩, ⟨rfl, rfl⟩, ⟨rfl, rfl⟩, ⟨rfl, rfl⟩, ⟨rfl, rfl⟩, ⟨rfl, rfl⟩, ⟨rfl, rfl⟩, ⟨rfl, rfl⟩, ⟨rfl, rfl⟩,
      ⟨rfl, rfl⟩, ⟨rfl, rfl⟩, ⟨rfl, rfl⟩, ⟨rfl, rfl⟩, ⟨rfl, rfl⟩, List.forall_mem_nil _⟩
  obtain ⟨hexec, hforager⟩ := hissue
  refine ⟨fun st hf hc => ⟨fun hq => ?_, fun q hq => ?_⟩, fun hf hc => ?_, fun hf => ?_, fun hf hm => ?_⟩
  · rw [hexec, issueHostCommand_open hf, takeCommand_refused hc, refuseParsed_other (hforager.trans hq)]
  · rw [hexec, issueHostCommand_open hf, takeCommand_refused hc, refuseParsed_forager (hforager.trans hq)]
  · rw [hexec, issueHostCommand_open hf, takeCommand_held hc]
  · rw [hexec, issueHostCommand_closed hf]
  · refine parseCheck_pf0 hf ?_
    simp only [List.mem_cons, List.not_mem_nil, or_false] at hm
    obtain hm | hm | hm | hm | hm | hm | hm := hm <;> rw [hm] <;> rfl

/-! ## Commands of the device as a whole -/

/-- A command that starts is not held. -/
theorem heldStarts_enterCmd (s : State) (h : CmdHdr) (op : HostOp) : heldStarts (enterCmd s h op 2) = heldStarts s := by
  show (s.host.cmds ++ _).filter _ = _
  rw [List.filter_append]
  exact List.append_nil _

section
variable {t : State} {id fn : Nat}

theorem opIdentify_page {page : DWord} (ha : page.toNat % 64 = 0) (hp : page ≠ 0) :
    opIdentify t id fn page = finishCmd (emit t (.hostWrite fn page.toNat (identifyPage t fn))) id stOk (identityWord t fn) := by
  simp only [opIdentify, ha, bne_self_eq_false, Bool.false_eq_true, if_false, if_neg hp]

theorem opIdentify_word : opIdentify t id fn 0 = finishCmd t id stOk (identityWord t fn) := by
  simp [opIdentify]

theorem opReadAccounting_done {client : Nat} {buf : DWord} (hc : fn = 0 ∨ client = fn) (hb : buf ≠ 0) (ha : buf.toNat % 64 = 0) :
    opReadAccounting t id fn client buf = finishCmd (emit t (.hostWrite fn buf.toNat (accountBytes t client))) id stOk t.sched.pubBeat := by
  have hc' : (fn != 0 && client != fn) = false := by obtain h | h := hc <;> simp [h]
  have hb' : ¬ ((decide (buf = 0) || buf.toNat % 64 != 0) = true) := by simp [ha]; exact hb
  simp only [opReadAccounting, hc', Bool.false_eq_true, if_false, if_neg hb']

theorem opAttest_done {buf : DWord} {nonce : BitVec 256} {seed : BitVec 256} (hb : buf ≠ 0) (ha : buf.toNat % 64 = 0)
    (hs : t.sec.seed = some seed) :
    let r := reportBytes t fn nonce
    opAttest t id fn buf nonce = finishCmd (emit t (.hostWrite fn buf.toNat
      (r ++ fitBytes 64 (Config.ed25519Sign (edSeed seed) r) ++ fitBytes 3309 (Config.mldsaSign (mldsaSeed seed) r)))) id stOk 3885 := by
  have hb' : ¬ ((decide (buf = 0) || buf.toNat % 64 != 0) = true) := by simp [ha]; exact hb
  simp only [opAttest, if_neg hb', hs]

theorem opSetRole_done {role : Byte} (h1 : 0 < role.toNat) (h2 : role.toNat ≤ 4) (hj : t.sched.job = .none) (hh : heldStarts t = [])
    (hd : t.forager.descs = []) (hr : t.forager.recs = []) (hp : t.forager.pfx = []) :
    let e : Word := if t.boot.roleEpoch = 0xFFFFFFFF then 1 else t.boot.roleEpoch + 1
    opSetRole t id role = finishCmd { t with boot := { t.boot with role := role.toNat, roleEpoch := e } } id stOk e.toNat := by
  have hr' : ¬ (role.toNat = 0 ∨ 4 < role.toNat) := by omega
  simp only [opSetRole, if_neg hr', hj, hh, hd, hr, hp, List.isEmpty_nil, bne_self_eq_false, Bool.not_true, Bool.or_self, Bool.false_eq_true,
    if_false]

theorem opSetPowerLimit_done {m w l : Nat} (hm : m ≤ 1) (h1 : 0 < w) (h2 : w ≤ 50) (h3 : 0 < l) (h4 : l ≤ 2750) :
    opSetPowerLimit t id m w l = { t with power := { t.power with setting := t.power.setting ++ [(id, m, w, l)] } } :=
  if_neg (by omega)

theorem opSelfTest_kat (hj : jobStarted t = false) (ht : t.reliab.test = .none) :
    opSelfTest t id 0 = { t with reliab := { t.reliab with test := .kat id } } := by
  simp [opSelfTest, hj, ht]

theorem opSelfTest_stress (hj : jobStarted t = false) (ht : t.reliab.test = .none) :
    opSelfTest t id 1 = rput { t with reliab := { t.reliab with test := .stress id } } rRlStress 23 16 0 := by
  simp [opSelfTest, hj, ht]

end

/-- Settles O31. -/
theorem deviceCommands : Obligations.DeviceCommands := by
  intro s h id fn
  refine ⟨fun hs => ?_, fun page hs ha => ⟨fun hp => ?_, fun hp => ?_⟩, fun client buf hs hc hb ha => ?_, fun buf nonce seed hs hb ha hseed => ?_,
    fun role hs h1 h2 hj hh hd hr hp => ?_, fun m w l hs hm h1 h2 h3 h4 => ?_, fun hs hj ht => ?_, fun hs hj ht => ?_⟩
  all_goals refine exec_starts hs ?_; simp only [startOp, cmdGet_enterCmd, cmdMod_enterCmd]
  · rfl
  · exact opIdentify_page ha hp
  · exact hp ▸ opIdentify_word
  · exact opReadAccounting_done hc hb ha
  · exact opAttest_done hb ha hseed
  · exact opSetRole_done h1 h2 hj ((heldStarts_enterCmd ..).trans hh) hd hr hp
  · exact opSetPowerLimit_done hm h1 h2 h3 h4
  · exact opSelfTest_kat hj ht
  · exact opSelfTest_stress hj ht

/-! ## Copies -/

section
variable {t : State} {id fn : Nat}

theorem moveRange_none {rank dest comb first : Nat} : moveRange t id fn rank dest comb first 0 = finishCmd t id stOkNoop 0 := if_pos rfl

theorem moveRange_queued {rank dest comb first count : Nat} (hc : count ≠ 0) (hi : inRange t first (count * tileSize) = true)
    (hm : fnMay t fn first (count * tileSize) = true) :
    moveRange t id fn rank dest comb first count =
      queueTiles t id rank dest comb ((List.range count).map (tileOf first + ·)) := by
  simp [moveRange, hc, hi, hm]

theorem opMigrate_range {a : MigrateArg} (hd : a.dest.toNat ≤ 3) (hc : combOk a.comb = true) (ha : a.first.toNat % tileSize = 0) :
    opMigrate t id fn a = moveRange t id fn 5 a.dest.toNat a.comb.toNat a.first.toNat a.count.toNat := by
  simp [opMigrate, Nat.not_lt.mpr hd, hc, ha]

theorem opPrefetch_request {a : PrefetchArg} {d : Desc} (hc : combOk a.comb = true) (hb : a.byHandle = true) (hf : a.first ≠ 0)
    (hd : descOf t a.first = some d) (hs : d.state = .active) (hcl : d.client = fn) :
    opPrefetch t id fn a = queueTiles t id 4 0 a.comb.toNat (mapTiles t d) := by
  simp only [opPrefetch, hc, hb, hd, hs, hcl, Bool.not_true, Bool.false_eq_true, if_false, if_true, if_neg hf, bne_self_eq_false,
    Bool.false_and, beq_self_eq_true]

theorem opPrefetch_range {a : PrefetchArg} (hc : combOk a.comb = true) (hb : a.byHandle = false) (ha : a.first.toNat % tileSize = 0)
    (hf : a.first.toNat < 2 ^ 48) :
    opPrefetch t id fn a = moveRange t id fn 4 0 a.comb.toNat a.first.toNat a.count.toNat := by
  have hf' : decide (2 ^ 48 ≤ a.first.toNat) = false := by simpa using hf
  simp only [opPrefetch, hc, hb, ha, hf', Bool.not_true, Bool.false_eq_true, if_false, bne_self_eq_false, Bool.or_self]

/-- The rows of R235 from the pins on. -/
theorem queueTiles_queued {rank dest comb : Nat} {tiles : List Nat} (hp : ∀ x ∈ tiles, ∀ k, pinTier t x = some k → k = dest)
    (hr : rank = 5 → dest ≠ 0 → ∀ x ∈ tiles, inPool t x = false)
    (hs : dest = 3 → ∀ x ∈ tiles, sealedRange t (x * tileSize) tileSize = false) (hn : dest = 2 → nandOpen t = true)
    (hd : dest = 1 → (t.tiers.ddrState.any fun e => e.2 == 1) = true) (hq : t.tiers.reqs.length < 1024) :
    queueTiles t id rank dest comb tiles = settleMoves (addMove t rank dest comb tiles id (some (cmdFn t id))) := by
  have h1 : tiles.any (fun x => match pinTier t x with | some k => k != dest | none => false) = false := by
    simp only [List.any_eq_false]
    intro x hx
    cases hk : pinTier t x with
    | none => simp
    | some k => simp [hp x hx k hk]
  have h2 : (rank == 5 && dest != 0 && tiles.any (inPool t)) = false := by
    rw [Bool.eq_false_iff]
    intro h
    simp only [Bool.and_eq_true, beq_iff_eq, bne_iff_ne, List.any_eq_true] at h
    obtain ⟨⟨h5, h0⟩, x, hx, hin⟩ := h
    simp [hr h5 h0 x hx] at hin
  have h3 : (dest == 3 && tiles.any fun x => sealedRange t (x * tileSize) tileSize) = false := by
    rw [Bool.eq_false_iff]
    intro h
    simp only [Bool.and_eq_true, beq_iff_eq, List.any_eq_true] at h
    obtain ⟨h3, x, hx, hsl⟩ := h
    simp [hs h3 x hx] at hsl
  have h4 : ((dest == 2 && !nandOpen t) || (dest == 1 && !t.tiers.ddrState.any fun e => e.2 == 1)) = false := by
    rw [Bool.eq_false_iff]
    intro h
    simp only [Bool.or_eq_true, Bool.and_eq_true, beq_iff_eq, Bool.not_eq_true'] at h
    obtain ⟨h, h'⟩ | ⟨h, h'⟩ := h
    · simp [hn h] at h'
    · simp [hd h] at h'
  have no {b : Bool} (hb : b = false) : ¬ b = true := by simp [hb]
  calc queueTiles t id rank dest comb tiles
    _ = _ := if_neg (no h1)
    _ = _ := if_neg (no h2)
    _ = _ := if_neg (no h3)
    _ = _ := if_neg (no h4)
    _ = _ := if_neg (Nat.not_le.mpr hq)

/-- The spaces, addresses and length of an OP_DMA_COPY are in form (R313). -/
structure CopyForm (a : DmaCopyArg) : Prop where
  source : bits a.spaces.toNat 3 0 ≤ 1
  dest : bits a.spaces.toNat 7 4 ≤ 1
  src : a.src.toNat % 64 = 0
  dst : a.dst.toNat % 64 = 0
  lines : a.length.toNat % 64 = 0
  most : a.length.toNat ≤ 2 ^ 30

/-- The condition that the first row of OP_DMA_COPY refuses. -/
theorem CopyForm.row {a : DmaCopyArg} (h : CopyForm a) :
    ¬ ((decide (1 < bits a.spaces.toNat 3 0) || decide (1 < bits a.spaces.toNat 7 4) || a.src.toNat % 64 != 0 || a.dst.toNat % 64 != 0 ||
      a.length.toNat % 64 != 0 || decide (2 ^ 30 < a.length.toNat)) = true) := by
  obtain ⟨h1, h2, h3, h4, h5, h6⟩ := h
  simp only [h3, h4, h5, bne_self_eq_false, Bool.or_false, Bool.or_eq_true, decide_eq_true_eq]
  omega

theorem opDmaCopy_none {a : DmaCopyArg} {host : HostLines} (h : CopyForm a) (hl : a.length.toNat = 0) :
    opDmaCopy t id fn a host = finishCmd t id stOkNoop 0 := by
  unfold opDmaCopy
  dsimp only
  rw [if_neg h.row, if_pos hl]

theorem opDmaCopy_copied {a : DmaCopyArg} {host : HostLines} (h : CopyForm a) (hl : 0 < a.length.toNat)
    (hs : bits a.spaces.toNat 3 0 = 1 → inRange t a.src.toNat a.length.toNat = true ∧ fnMay t fn a.src.toNat a.length.toNat = true ∧
      protectedRange t a.src.toNat a.length.toNat = false)
    (hd : bits a.spaces.toNat 7 4 = 1 → inRange t a.dst.toNat a.length.toNat = true ∧ fnMay t fn a.dst.toNat a.length.toNat = true ∧
      protectedRange t a.dst.toNat a.length.toNat = false ∧ sealedRange t a.dst.toNat a.length.toNat = false) :
    let v := if bits a.spaces.toNat 3 0 = 1 then memoryFindings t a.src.toNat a.length.toNat host.tier else t
    let c := copyLines fn (bits a.spaces.toNat 3 0) (bits a.spaces.toNat 7 4) (a.length.toNat / 64) v a.src.toNat a.dst.toNat host.lines 0 stOk
    opDmaCopy t id fn a host = finishCmd c.1 id c.2.2 c.2.1 := by
  unfold opDmaCopy
  dsimp only
  rw [if_neg h.row, if_neg (Nat.ne_of_gt hl)]
  by_cases h1 : bits a.spaces.toNat 3 0 = 1 <;> by_cases h2 : bits a.spaces.toNat 7 4 = 1 <;> simp_all

end

/-- Settles O32. -/
theorem copyCommands : Obligations.CopyCommands := by
  intro s h id fn
  refine ⟨fun a hs hd hc ha => ⟨fun hn => ?_, fun hn hi hm => ?_⟩, fun a hs hc => ⟨fun d hb hf hd hst hcl => ?_, fun hb ha hf hn hi hm => ?_⟩,
    fun t rank dest comb tiles => queueTiles_queued, fun a host hs h1 h2 h3 h4 h5 h6 => ⟨fun hl => ?_, fun hl hsrc hdst => ?_⟩⟩
  all_goals refine exec_starts hs ?_; simp only [startOp, cmdGet_enterCmd, cmdMod_enterCmd]
  · rw [opMigrate_range hd hc ha, hn]
    exact moveRange_none
  · rw [opMigrate_range hd hc ha]
    exact moveRange_queued (by simpa [BitVec.toNat_eq] using hn) hi hm
  · exact opPrefetch_request hc hb hf hd hst hcl
  · rw [opPrefetch_range hc hb ha hf]
    exact moveRange_queued (by simpa [BitVec.toNat_eq] using hn) hi hm
  · exact opDmaCopy_none ⟨h1, h2, h3, h4, h5, h6⟩ hl
  · exact opDmaCopy_copied ⟨h1, h2, h3, h4, h5, h6⟩ hl hsrc hdst

end Sys2Proof.Machine
end

section
/-!
PROOFS. Host commands on images, the job, contexts and semaphores (R96, R97, R184, R187, R197 to R202, R212, R404, R406).
-/

namespace Sys2Proof.Machine

/-! ## Images -/

section
variable {t : State} {id fn : Nat}

/-- A load seals its range and starts the verification (R197, R360). -/
theorem startVerify_begun {a : ImageArg} {what : VerifyFor} (hl : 0 < a.length.toNat) (ha : a.image.toNat % 64 = 0)
    (hi : inRange t a.image.toNat a.length.toNat = true) :
    startVerify t id fn a what = { t with sec := { t.sec with
      seals := t.sec.seals ++ [{ lo := a.image.toNat, hi := a.image.toNat + a.length.toNat, cmd := id, what := what }]
      verifs := t.sec.verifs ++ [{ id := id, cmd := id, fn := fn, base := a.image.toNat, length := a.length.toNat, what := what }] } } := by
  simp only [startVerify, Nat.ne_of_gt hl, ha, hi, bne_self_eq_false, Bool.not_true, Bool.false_eq_true, if_false]

theorem opLoadModel_begun {a : ImageArg} (hj : jobStarted t = false) (ho : t.sched.model = none ∨ modelOwner t = some fn ∨ fn = 0) :
    opLoadModel t id fn a = startVerify t id fn a .model := by
  have ho' : (t.sched.model.isSome && modelOwner t != some fn && fn != 0) = false := by
    obtain h | h | h := ho <;> simp [h]
  simp only [opLoadModel, hj, ho', Bool.false_eq_true, if_false]

theorem opLoadSchedule_begun {a : ImageArg} (hj : jobStarted t = false) :
    opLoadSchedule t id fn a = startVerify t id fn a .schedule := by
  simp only [opLoadSchedule, hj, Bool.false_eq_true, if_false]

theorem opLoadCodebook_begun {a : ImageArg} {slot : Byte} {first last : Half} (ho : modelOwner t = some fn) :
    opLoadCodebook t id fn a slot first last = startVerify t id fn a (.codebook slot first last) := by
  simp only [opLoadCodebook, ho, bne_self_eq_false, Bool.false_eq_true, if_false]

theorem opLoadGrammar_begun {a : ImageArg} {slot : Byte} (hl : lensOn t = true) (ho : modelOwner t = some fn) :
    opLoadGrammar t id fn a slot = startVerify t id fn a (.grammar slot) := by
  simp only [opLoadGrammar, hl, ho, Bool.not_true, bne_self_eq_false, Bool.false_eq_true, if_false]

theorem retireCodebook_retiring {v first last : Nat} (ho : modelOwner t = some fn) (hv : v ≠ 0) (hf : first ≤ last) (hl : last ≤ 1023) :
    let named := (cellRange first last).flatMap fun c => (List.range 4).map fun j => (c, j)
    let held := fun st => named.filter fun q => (slotGet t q.1 q.2).version == v && (slotGet t q.1 q.2).state == st
    held .loading = [] → held .live ++ held .retiring ≠ [] →
    let u := (held .live).foldl (fun s q => slotSet s q.1 q.2 { slotGet s q.1 q.2 with state := .retiring }) t
    retireCodebook t id fn v first last =
      { u with grid := { u.grid with retires := u.grid.retires ++ [(id, v, held .live ++ held .retiring)] } } := by
  intro named held hload hboth u
  have hrow : ¬ (v = 0 ∨ last < first ∨ 1023 < last) := by omega
  have hload' : (!(held .loading).isEmpty) = false := by rw [hload]; rfl
  have hboth' : (held .live ++ held .retiring).isEmpty = false := List.isEmpty_eq_false_iff.mpr hboth
  unfold retireCodebook
  dsimp only
  rw [if_neg (by simp [ho]), if_neg hrow]
  exact (if_neg (by rw [hload']; exact Bool.false_ne_true)).trans (if_neg (by rw [hboth']; exact Bool.false_ne_true))

theorem opRetireGrammar_retiring {g j : Nat} {x : GSlot} (hl : lensOn t = true) (ho : modelOwner t = some fn) (hg : g ≠ 0)
    (hx : t.lens.slots.find? (fun e => e.2.id == g && e.2.state != .free) = some (j, x)) (hs : x.state = .live) :
    opRetireGrammar t id fn g = gslotSet t j { x with state := .retiring, retires := x.retires ++ [id] } := by
  simp only [opRetireGrammar, hl, ho, hg, hx, hs, Bool.not_true, bne_self_eq_false, Bool.false_eq_true, if_false]

end

/-- Settles O33. -/
theorem imageCommands : Obligations.ImageCommands := by
  intro s h id fn begun
  refine ⟨fun a hl ha hi => ⟨fun hs hj ho => ?_, fun hs hj => ?_, fun slot first last hs ho => ?_, fun slot hs hlens ho => ?_⟩,
    fun v first last hs ho hv hf hl hload hboth => ?_, fun g j x hs hlens ho hg hx hlive => ?_⟩
  all_goals refine exec_starts hs ?_; simp only [startOp, cmdGet_enterCmd, cmdMod_enterCmd]
  · exact (opLoadModel_begun (t := enterCmd s h (.loadModel a) 2) hj ho).trans (startVerify_begun hl ha hi)
  · exact (opLoadSchedule_begun (t := enterCmd s h (.loadSchedule a) 2) hj).trans (startVerify_begun hl ha hi)
  · exact (opLoadCodebook_begun (t := enterCmd s h (.loadCodebook a slot first last) 2) ho).trans (startVerify_begun hl ha hi)
  · exact (opLoadGrammar_begun (t := enterCmd s h (.loadGrammar a slot) 2) hlens ho).trans (startVerify_begun hl ha hi)
  · exact retireCodebook_retiring ho (by simpa [BitVec.toNat_eq] using hv) hf hl hload hboth
  · exact opRetireGrammar_retiring hlens ho (by simpa [BitVec.toNat_eq] using hg) hx hlive

/-! ## The job, contexts and semaphores -/

section
variable {t : State} {id fn : Nat}

theorem startJob_held {released : Bool} (h : startJobStatus t id released = stOk) :
    startJob t id released = { t with sched := { t.sched with job := .held id (now t) } } := by
  simp only [startJob, h, bne_self_eq_false, Bool.false_eq_true, if_false]

theorem opStopJob_started {job : Half} (hs : t.sched.job ≠ .none) (hj : job.toNat = imageJob t) (hh : heldStarts t = []) :
    opStopJob t id job = { t with sched := { t.sched with stops := t.sched.stops ++ [id] } } := by
  have hs' : (t.sched.job != .none) = true := by simpa using hs
  simp only [opStopJob, hh, hs', hj, List.isEmpty_nil, Bool.not_true, Bool.false_and, bne_self_eq_false, Bool.false_eq_true, if_false,
    List.foldl_nil, if_true]

/-- A started job is one that is held or runs. -/
theorem job_ne_none_of_started (h : jobStarted t = true) : t.sched.job ≠ .none := by
  intro hn
  simp [jobStarted, jobOrigin, hn] at h

/-- The conditions under which OP_CONTEXT_CREATE takes a context number (R201). -/
theorem contextCreate_created {a : ContextArg} {im : ScheduleImage × BitVec 384} {runs : List (Nat × Nat)} (hj : jobStarted t = true) (hi : t.sched.image = some im)
    (hc : a.cls.toNat < im.1.classes.length) (hpr : a.priority.toNat ≤ 7) (hs : a.size.toNat ≠ 0) (hb : a.base.toNat % tileSize = 0)
    (ha : a.size.toNat % tileSize = 0) (hr : inRange t a.base.toNat a.size.toNat = true)
    (hp : a.prot = true → im.1.prot.isSome = true ∧ instrumentOpen t = false ∧ t.sec.xtsFrom.isSome = true)
    (hn : a.prot = false → (t.remote.regions.any fun e => e.2.prot && overlaps a.base.toNat a.size.toNat e.2.base e.2.length) = false)
    (hrun : reserveSwap t a.cls.toNat = some runs) (hf : freeCtxNumber t < 4128) :
    let u := if a.prot then runs.foldl (fun s r => zeroRange s (r.1 * tileSize) (r.2 * tileSize)) t else t
    contextCreate t id fn a = finishCmd (ctxSet u (freeCtxNumber t) {
      client := fn, cls := a.cls.toNat, prio := a.priority.toNat, prot := a.prot, base := a.base.toNat
      size := a.size.toNat, swapRuns := runs }) id stOk (freeCtxNumber t) := by
  unfold contextCreate
  dsimp only
  rw [if_neg, if_neg hs, if_neg (by simp [hb, ha, hr]), if_neg, hrun]
  · refine if_neg ?_
    cases h : a.prot
    · simp [Nat.not_le.mpr hf]
    · obtain ⟨_, _, hx⟩ := hp h
      simp [Nat.not_le.mpr hf, Option.isSome_iff_ne_none.mp hx]
  · cases h : a.prot
    · simp [hn h]
    · obtain ⟨_, hx, _⟩ := hp h
      simp [hx]
  · cases h : a.prot
    · simp [hj, hi, Nat.not_le.mpr hc, Nat.not_lt.mpr hpr]
    · obtain ⟨hx, _, _⟩ := hp h
      simp [hj, hi, Nat.not_le.mpr hc, Nat.not_lt.mpr hpr, Option.isSome_iff_ne_none.mp hx]

section
variable {n : Nat} {x : Ctx} (hx : ctxOf t n = some x) (hc : x.client = fn)
include hx hc

theorem contextDestroy_swapped (hs : x.state = .swapped) :
    contextDestroy t id fn n = finishCmd (freeCtx (leaveSlot (endRequests t n stContextAborted) n) n) id stOk 0 := by
  simp only [contextDestroy, hx, hc, hs, bne_self_eq_false, Bool.false_eq_true, if_false]

theorem contextDestroy_aborted (hs : x.state = .aborted) : contextDestroy t id fn n = finishCmd (freeCtx t n) id stOk 0 := by
  simp only [contextDestroy, hx, hc, hs, bne_self_eq_false, Bool.false_eq_true, if_false]

theorem contextDestroy_asked (h1 : x.state ≠ .swapped) (h2 : x.state ≠ .aborted) (hd : x.destroy = none) :
    contextDestroy t id fn n = ctxMod t n fun x => { x with destroy := some id } := by
  simp only [contextDestroy, hx, hc, bne_self_eq_false, Bool.false_eq_true, if_false]
  cases hs : x.state
  case swapped => exact absurd hs h1
  case aborted => exact absurd hs h2
  all_goals simp only [hd]

end

theorem semInit_set {n count : Nat} (hn : n ≤ 1023)
    (hm : ∀ m, semOf t n = some m → m.client = fn ∧ (m.held.any fun e => 0 < e.2) = false ∧ m.queue = []) :
    semInit t id fn n count = finishCmd (semSet t n { client := fn, count := count }) id stOk 0 := by
  unfold semInit
  rw [if_neg (Nat.not_lt.mpr hn)]
  cases h : semOf t n with
  | none => rfl
  | some m =>
    obtain ⟨hc, hh, hq⟩ := hm m h
    simp only [hc, hh, hq, bne_self_eq_false, List.isEmpty_nil, Bool.not_true, Bool.or_self, Bool.false_eq_true, if_false]

end

/-- Settles O34. -/
theorem jobCommands : Obligations.JobCommands := by
  intro s h id fn
  refine ⟨fun hf hc => ?_, fun n c hg hop hst => ?_, fun job hs hj himg hh => ?_,
    fun a im runs hs hj hi hc hpr hsz hb ha hr hp hn hrun hf => ?_,
    fun n x hs hx hc => ⟨fun hst => ?_, fun hst => ?_, fun h1 h2 hd => ?_⟩, fun n count hs hn hm => ?_⟩
  · exact next_quiet ((issueHostCommand_open hf).trans (congrArg settle (takeCommand_held hc)))
  · simp only [startOp, hg, hop]
    exact startJob_held (t := cmdMod s n fun c => { c with phase := 2 }) hst
  all_goals refine exec_starts hs ?_; simp only [startOp, cmdGet_enterCmd, cmdMod_enterCmd]
  · exact opStopJob_started (job_ne_none_of_started hj) himg ((heldStarts_enterCmd ..).trans hh)
  · exact contextCreate_created hj hi hc hpr hsz hb ha hr hp hn hrun hf
  · exact contextDestroy_swapped hx hc hst
  · exact contextDestroy_aborted hx hc hst
  · exact contextDestroy_asked hx hc h1 h2 hd
  · exact semInit_set hn hm

end Sys2Proof.Machine
end

section
/-!
PROOFS. Host commands on regions, sends and flushes (R278 to R291), and on requests, prefixes and pages (R154, R157, R159, R161, R311).
-/

namespace Sys2Proof.Machine

/-! ## Regions -/

/-- The attributes and the range of an OP_REGISTER_REGION are in form and may be had (R278, R279). -/
structure RegionForm (t : State) (fn : Nat) (a : RegionArg) : Prop where
  kind : a.kind.toNat ≤ 1
  bit2 : bit a.attr.toNat 2 = 0
  high : bits a.attr.toNat 7 5 = 0
  base : a.base.toNat % 128 = 0
  size : 0 < a.size.toNat
  queue : (a.kind == 1) = true → bits a.attr.toNat 1 0 = 0 ∧ a.size.toNat ≤ 1024
  memory : (a.kind == 1) = false → bits a.attr.toNat 1 0 ≠ 0 ∧ a.size.toNat % 128 = 0 ∧ fnMay t fn a.base.toNat a.size.toNat = true ∧
    inRange t a.base.toNat a.size.toNat = true ∧
    ((bit a.attr.toNat 3 == 1) = false → (t.remote.regions.any fun e => e.2.prot == true && !e.2.revoking &&
      overlaps a.base.toNat a.size.toNat e.2.base e.2.length) = false) ∧
    ((bit a.attr.toNat 3 == 1) = true → (t.sched.ctxs.any fun e => !e.2.prot && overlaps a.base.toNat a.size.toNat e.2.base e.2.size) = false)
  closed : (bit a.attr.toNat 3 == 1) = true → instrumentOpen t = false

section
variable {t : State} {id fn : Nat}

theorem registerRegion_live {a : RegionArg} {n slot0 : Nat} (h : RegionForm t fn a) (hr : t.sec.rngOk = true)
    (hn : freeRegionNumber t = some n) (hs : (if a.kind == 1 then freeSlots t a.size.toNat else some 0) = some slot0) :
    let at_ := a.attr.toNat
    let queue := a.kind == 1
    let prot := bit at_ 3 == 1
    let v := takeRandom t 44
    let secret : BitVec 44 := if v.1 = 0 then 1 else BitVec.ofNat 44 v.1
    let u := if prot && !queue then zeroRange v.2 a.base.toNat a.size.toNat else v.2
    registerRegion t id fn a = finishCmd (regionSet u n {
      base := if queue then 0 else a.base.toNat, length := if queue then 0 else a.size.toNat, secret := secret, rd := bit at_ 0 == 1
      wr := bit at_ 1 == 1, queue := queue, prot := prot, from_ := if bit at_ 4 = 1 then some (BitVec.ofNat 14 a.from_.toNat) else none
      client := fn, slot0 := slot0, slots := if queue then a.size.toNat else 0 }) id stOk (keyOf n secret).toNat := by
  obtain ⟨hk, h2, h7, hb, hsz, hq, hm, hc⟩ := h
  unfold registerRegion
  dsimp only
  generalize (a.kind == 1) = queue at *
  generalize (bit a.attr.toNat 3 == 1) = prot at *
  have hkind := Nat.not_lt.mpr hk
  rw [if_neg, if_neg (Nat.ne_of_gt hsz), if_neg, if_neg, if_neg, if_neg (by simp [hr]), hn, hs]
  · cases prot
    · simp
    · simp [hc]
  · cases queue
    · obtain ⟨_, _, _, _, hno, hyes⟩ := hm rfl
      cases prot
      · simpa using hno rfl
      · simpa using hyes rfl
    · simp
  · cases queue
    · obtain ⟨_, _, hmay, hin, _, _⟩ := hm rfl
      simp [hmay, hin]
    · simp
  · cases queue
    · obtain ⟨hrw, hal, _⟩ := hm rfl
      simp [hrw, hal, hkind, h2, h7, hb]
    · obtain ⟨hrw, hmax⟩ := hq rfl
      simp [hrw, Nat.not_lt.mpr hmax, hkind, h2, h7, hb]

theorem opRevoke_free {key : DWord} {r : Region} (hk : keySecret key ≠ 0) (hn : keyRegion key ≠ 0)
    (hr : regionOf t (keyRegion key) = some r) (hs : r.secret.toNat = keySecret key) (hc : r.client = fn) (hv : r.revoking = false)
    (ha : r.admitted = 0) :
    opRevoke t id fn key = freeRegion
      (regionSet t (keyRegion key) { r with revoking := true, revokeCmd := if id = 0 then r.revokeCmd else id }) (keyRegion key) := by
  simp only [opRevoke, hk, hn, hr, hs, hc, hv, bne_self_eq_false, Bool.false_eq_true, if_false, revokeRegion, ha, if_true]

/-- A slot that is posted or filling for a command is taken from it. -/
theorem replaces {x : RecvSlot} (h : x.state = .posted ∨ x.state = .filling) (hp : x.post ≠ 0) :
    ((x.state == .posted || x.state == .filling) && x.post != 0) = true := by
  simp [h, hp]

theorem not_replaces {x : RecvSlot} (h : (x.state ≠ .posted ∧ x.state ≠ .filling) ∨ x.post = 0) :
    ¬ ((x.state == .posted || x.state == .filling) && x.post != 0) = true := by
  obtain ⟨h1, h2⟩ | h := h
  · simp [h1, h2]
  · simp [h]

/-- A receive is posted under the slot's next generation, and the command of one that it takes the place of is refused. -/
theorem postRecv_posted {a : PostArg} {r : Region} (hk : keySecret a.key ≠ 0) (hn : keyRegion a.key ≠ 0)
    (hr : regionOf t (keyRegion a.key) = some r) (hs : r.secret.toNat = keySecret a.key) (hv : r.revoking = false) (hq : r.queue = true)
    (hc : r.client = fn) (hslot : a.slot.toNat < r.slots) (h0 : 0 < a.size.toNat) (hmax : a.size.toNat ≤ 1048576) (h8 : a.size.toNat % 8 = 0)
    (hb : a.buf.toNat % 256 = 0) (hm : fnMay t fn a.buf.toNat a.size.toNat = true)
    (hp : r.prot = (t.remote.regions.any fun e => e.2.prot && !e.2.queue && within a.buf.toNat a.size.toNat e.2.base e.2.length)) :
    let i := r.slot0 + a.slot.toNat
    let x := slotOf t i
    let u := slotPut t i { buf := a.buf.toNat, size := a.size.toNat, gen := if x.gen + 1 < 2 ^ 32 then x.gen + 1 else 1
                           state := .posted, post := id }
    postRecv t id fn a = if (x.state == .posted || x.state == .filling) && x.post != 0 then refuseCmd u x.post stStaleGeneration else u := by
  unfold postRecv
  dsimp only
  rw [if_neg hk, if_neg hn, hr]
  dsimp only
  rw [if_neg (by simp [hs]), if_neg (by simp [hv]), if_neg (by simp [hq]), if_neg (by simp [hc]), if_neg (Nat.ne_of_gt h0),
    if_neg (by simp [Nat.not_le.mpr hslot, Nat.not_lt.mpr hmax, h8, hb]), if_neg (by simp [hm]), if_neg (by simp [hp])]

theorem opSend_sent {a : SendArg} {deadline : Nat} (h0 : 0 < a.length.toNat) (hmax : a.length.toNat ≤ 1048576) (h8 : a.length.toNat % 8 = 0)
    (hslot : a.slot.toNat ≤ 1023) (hg : a.gen ≠ 0) (hn : a.node.toNat < 2 ^ 14) (hk : keySecret a.key ≠ 0)
    (hm : fnMay t fn a.src.toNat a.length.toNat = true) (hi : inRange t a.src.toNat a.length.toNat = true)
    (hd : nodeDown t a.node.toNat = false)
    (hp : (t.remote.regions.any fun e => e.2.prot && overlaps a.src.toNat a.length.toNat e.2.base e.2.length) = true →
      t.remote.kfab.isSome = true) :
    opSend t id fn a deadline = addFlush
      { t with remote := { t.remote with
        nextTag := t.remote.nextTag + 1
        sends := t.remote.sends ++ [{ tag := t.remote.nextTag, fn := fn, cmd := id, node := a.node.toNat, slot := a.slot.toNat, key := a.key
                                      gen := a.gen.toNat, src := a.src.toNat, len := a.length.toNat
                                      prot := t.remote.regions.any fun e => e.2.prot && overlaps a.src.toNat a.length.toNat e.2.base e.2.length
                                      deadline := deadline }] } } t.remote.nextTag true fn a.node.toNat := by
  have hform : ¬ ((decide (1048576 < a.length.toNat) || a.length.toNat % 8 != 0 || decide (1023 < a.slot.toNat) || a.gen == 0 ||
      decide (2 ^ 14 ≤ a.node.toNat)) = true) := by
    rw [beq_false_of_ne hg, decide_eq_false (Nat.not_le.mpr hn)]
    simp [Nat.not_lt.mpr hmax, h8, Nat.not_lt.mpr hslot]
  have hp' : ((t.remote.regions.any fun e => e.2.prot && overlaps a.src.toNat a.length.toNat e.2.base e.2.length) &&
      t.remote.kfab.isNone) = false := by
    cases h : t.remote.regions.any fun e => e.2.prot && overlaps a.src.toNat a.length.toNat e.2.base e.2.length
    · rfl
    · simpa using hp h
  unfold opSend
  dsimp only
  rw [Nat.mod_eq_of_lt hn, if_neg (Nat.ne_of_gt h0), if_neg hform,
    if_neg (by simp [hm, hi]), if_neg hk, if_neg (by simp [hd]), hp']
  rfl

theorem finishFlush_waits {w : FlushWait} (h : (t.remote.flushes.filter (flushCovers w)).any (fun f => f.outcome.isNone) = true) :
    finishFlush t w = t := if_pos h

theorem finishFlush_none {w : FlushWait} (h : t.remote.flushes.filter (flushCovers w) = []) :
    finishFlush t w = finishCmd { t with remote := { t.remote with
      waits := t.remote.waits.filter fun x => x.cmd != w.cmd
      flushes := t.remote.flushes.filter fun f => !flushCovers w f } } w.cmd stOk 0 := by
  simp only [finishFlush, h, List.any_nil, Bool.false_eq_true, if_false, List.head?_nil]

end

/-- Settles O35. -/
theorem remoteCommands : Obligations.RemoteCommands := by
  intro s h id fn
  refine ⟨fun a n slot0 hs hk h2 h7 hb h0 hq hm hc hr hn hslot => ?_, fun key r hs hk hn hr hsec hc hv ha => ?_,
    fun a r hs hk hn hr hsec hv hq hc hslot h0 hmax h8 hb hm hp => ⟨fun hx => ?_, fun hx hpost => ?_⟩,
    fun a hs h0 hmax h8 hslot hg hn hk hm hi hd hp => ?_, fun node hs => ⟨fun hw => ?_, fun hw => ?_⟩⟩
  all_goals refine exec_starts hs ?_; simp only [startOp, cmdGet_enterCmd, cmdMod_enterCmd]
  · exact registerRegion_live ⟨hk, h2, h7, hb, h0, hq, hm, hc⟩ hr hn hslot
  · exact opRevoke_free hk hn hr hsec hc hv ha
  · exact (postRecv_posted (t := enterCmd s h (.postRecv a) 2) hk hn hr hsec hv hq hc hslot h0 hmax h8 hb hm hp).trans (if_neg (not_replaces hx))
  · exact (postRecv_posted (t := enterCmd s h (.postRecv a) 2) hk hn hr hsec hv hq hc hslot h0 hmax h8 hb hm hp).trans
      (if_pos (replaces hx hpost))
  · exact opSend_sent h0 hmax h8 hslot hg hn hk hm hi hd hp
  · exact finishFlush_waits hw
  · exact finishFlush_none hw

/-! ## Requests -/

section
variable {t : State} {id : Nat}

/-- The descriptor of a request without a parent, as OP_SUBMIT enters it (R154): `m` is the state whose map is cleared. -/
def submitted (m : State) (id : Nat) (hdr : CmdHdr) (a : SubmitArg) (idx home : Nat) : Desc :=
  { idx := idx, handle := mkHandle (imageJob m) home (nodeNum m) (nextSeq m), state := .admitting, client := hdr.fn.val, ctx := a.context.toNat
    prot := ctxProt m a.context.toNat, plen := a.plen.toNat, maxlen := a.maxlen.toNat, map := a.map.toNat, tbuf := a.tbuf.toNat, home := home
    partner := (partnerOf m home).getD 0, tip := BitVec.ofNat 64 hdr.fn.val, parent := 0, sample := a.sample.toNat, created := now m
    lead := isLead m, cmd := id, ring := hdr.ring.val, cid := hdr.cid, order := m.forager.nextOrder
    hashes := promptHashes m hdr.fn.val a.tbuf.toNat a.plen.toNat }

theorem opSubmit_admitting {hdr : CmdHdr} {a : SubmitArg} {home idx : Nat} {l : Layout}
    (hst : contextStatus t hdr.fn.val a.context.toNat = stOk) (h0 : 0 < a.plen.toNat) (h1 : a.plen.toNat < a.maxlen.toNat)
    (hl : layoutOf t a.context.toNat = some l) (hmax : a.maxlen.toNat ≤ l.maxpos)
    (hal : inAlloc t a.context.toNat a.tbuf.toNat (4 * a.maxlen.toNat) = true)
    (hb : buffersOk t a.context.toNat a.sample.toNat a.map.toNat = true) (hp : a.parent = 0)
    (hh : chooseHome t hdr.fn.val a none = .inr home) (hi : freeDescIdx t = some idx) :
    let m := clearMap t l a.map.toNat
    opSubmit t id hdr a = sendCreate
      (addDesc { m with forager := { m.forager with seq := nextSeq m, nextOrder := m.forager.nextOrder + 1 } } (submitted m id hdr a idx home))
      (mkHandle (imageJob m) home (nodeNum m) (nextSeq m)) := by
  have hmaxlen : ¬ ((decide (a.maxlen.toNat = 0) || decide (a.maxlen.toNat ≤ a.plen.toNat) || decide (l.maxpos < a.maxlen.toNat)) = true) := by
    simp only [Bool.or_eq_true, decide_eq_true_eq]
    omega
  have hpar : (a.parent != 0) = false := by simp [hp]
  unfold opSubmit
  dsimp only
  rw [if_neg (by simp [hst]), if_neg (Nat.ne_of_gt h0), hl]
  refine (if_neg hmaxlen).trans ((if_neg (by simp [hal, hb])).trans ?_)
  rw [if_pos hp, hpar, Bool.false_and, if_neg Bool.false_ne_true, hh, hi]
  simp only [submitted, hp]

section
variable {hd : DWord} {d : Desc} (h0 : hd ≠ 0) (hd' : descOf t hd = some d) (hl : d.lead = true)
  (hs : d.state = .active ∨ d.state = .adopted)
include h0 hd' hl hs

theorem opCancel_ended (he : d.epoch ≠ 0) : opCancel t id hd = endRequest t hd stOk id := by
  simp only [opCancel, if_neg h0, hd']
  exact if_pos (by simp [he, hl, hs])

theorem opHandoffOut_out {target : Half} (ht : target.toNat ≠ nodeNum t) :
    opHandoffOut t id hd target = descMod t hd fun d => { d with
      state := .handingOut, wasAdopted := d.wasAdopted || d.state == .adopted, peer := some target.toNat, cmd := id, proposed := false } := by
  simp only [opHandoffOut, if_neg h0, hd']
  have hmay : (!(d.state == .active || d.state == .adopted) || !d.lead) = false := by
    obtain hs | hs := hs <;> simp [hs, hl]
  exact (if_neg (Bool.eq_false_iff.mp hmay)).trans (if_neg ht)

end

/-- The descriptor of a request that comes by a handoff (R157). -/
def received (t : State) (id : Nat) (hdr : CmdHdr) (a : HandoffInArg) (idx : Nat) : Desc :=
  { idx := idx, handle := a.handle, state := .receiving, client := hdr.fn.val, ctx := a.context.toNat, prot := ctxProt t a.context.toNat
    map := a.map.toNat, tbuf := a.tbuf.toNat, sample := a.sample.toNat, home := hHome a.handle
    partner := (partnerOf t (hHome a.handle)).getD 0
    peer := if a.source.getLsbD 15 then some (a.source.toNat % 2 ^ 14) else none
    created := now t, cmd := id, ring := hdr.ring.val, cid := hdr.cid, order := t.forager.nextOrder, lead := isLead t
    tip := BitVec.ofNat 64 hdr.fn.val }

theorem opHandoffIn_receiving {hdr : CmdHdr} {a : HandoffInArg} {idx : Nat} (h0 : a.handle ≠ 0) (hd : descOf t a.handle = none)
    (hst : contextStatus t hdr.fn.val a.context.toNat = stOk) (hb : buffersOk t a.context.toNat a.sample.toNat a.map.toNat = true)
    (hi : freeDescIdx t = some idx) :
    opHandoffIn t id hdr a = askHome (relay
      (addDesc { t with forager := { t.forager with nextOrder := t.forager.nextOrder + 1 } } (received t id hdr a idx))
      a.handle noticeJoin 0 0 none) a.handle 0 (.claim (if a.source.getLsbD 15 then some (a.source.toNat % 2 ^ 14) else none) 0) := by
  simp only [opHandoffIn, if_neg h0, hd, hst, hb, hi, bne_self_eq_false, Bool.not_true, Bool.or_self, Bool.false_eq_true, if_false]
  rfl

theorem opQuery_home {hd buf : DWord} (h0 : hd ≠ 0) (ha : buf.toNat % 64 = 0) (hr : t.boot.role = roleCache) (hs : servesHome t hd = true) :
    opQuery t id hd buf = finishQuery t id hd buf.toNat ((recOf t hd).map fun r => r.data) := by
  unfold opQuery
  rw [if_neg (by simp only [ha, bne_self_eq_false, Bool.or_false, decide_eq_true_eq]; exact h0), if_pos (by simp [hr, hs])]

theorem finishQuery_word {hd : DWord} (d : RecordData) : finishQuery t id hd 0 (some d) = finishCmd t id stOk (queryWord d) := by
  simp [finishQuery]

theorem finishQuery_page {hd : DWord} {buf : Nat} (d : RecordData) (hb : buf ≠ 0) :
    finishQuery t id hd buf (some d) = finishCmd (emit t (.hostWrite (cmdFn t id) buf (queryBytes d))) id stOk (queryWord d) := by
  simp [finishQuery, hb]

/-- The function of a command that has been taken in. -/
theorem cmdFn_enterCmd (s : State) (h : CmdHdr) (op : HostOp) (phase : Nat) : cmdFn (enterCmd s h op phase) (freshCmd s) = h.fn.val := by
  simp only [cmdFn, cmdGet_enterCmd, Option.map_some, Option.getD_some]

theorem recData_enterCmd {s : State} {hd : DWord} {r : HomeRec} (hr : recOf s hd = some r) {h : CmdHdr} {op : HostOp} {phase : Nat} :
    ((recOf (enterCmd s h op phase) hd).map fun r => r.data) = some r.data := congrArg (Option.map fun r => r.data) hr

theorem opPrefixLookup_home {fn : Nat} {home : Half} {count : Word} {tokens : BitVec 48} (hc : count ≠ 0) (hi : t.sched.image.isSome = true)
    (hr : inRange t tokens.toNat (4 * count.toNat) = true) (hh : home.toNat = nodeNum t) (hrole : t.boot.role = roleCache) :
    opPrefixLookup t id fn home count tokens = finishCmd t id stOk (lookupM t fn (chainHashes (hashKey t) (count.toNat / 64)
      (BitVec.ofNat 64 fn) (tokensAt t tokens.toNat (64 * (count.toNat / 64))))) := by
  unfold opPrefixLookup
  dsimp only
  rw [if_neg hc, if_neg (by simpa using Option.isSome_iff_ne_none.mp hi), if_neg (by simp [hr]), if_pos (by simp [hh, hrole])]

section
variable {fn page : Nat} {p : Page} (hp : pageCheck t fn page = .inr p)
include hp

theorem opPagePin_pinned (hm : p.pins < 0xFFFF) :
    let u := pageSet t page { p with pins := p.pins + 1, cmdPins := tset p.cmdPins fn (tgetD p.cmdPins fn 0 + 1) }
    pageInHbm u p = true → opPagePin t id fn page = finishCmd u id stOk (p.pins + 1) := by
  intro u hu
  simp only [opPagePin, hp, if_neg (Nat.not_le.mpr hm)]
  exact if_pos hu

theorem opPageUnpin_own (hm : 0 < tgetD p.cmdPins fn 0) :
    opPageUnpin t id fn page = finishCmd (reclaim (pageSet t page
      { p with pins := p.pins - 1, cmdPins := tsetD p.cmdPins fn (tgetD p.cmdPins fn 0 - 1) 0 }) page) id stOk (p.pins - 1) := by
  simp only [opPageUnpin, hp, if_pos hm]

end

end

/-- Settles O36. -/
theorem requestCommands : Obligations.RequestCommands := by
  intro s h id fn
  refine ⟨fun a home idx l hs hst h0 h1 hl hmax hal hb hp hh hi => ?_,
    fun hd d h0 hd' he hl => ⟨fun hs hst => ?_, fun target hs hst ht => ?_⟩,
    fun a idx hs h0 hd hst hb hi => ?_, fun hd buf r hs h0 ha hrole hserve hrec => ⟨fun hb => ?_, fun hb => ?_⟩,
    fun home count tokens hs hc hi hr hh hrole => ?_, fun page p => ⟨fun hs hp hm hin => ?_, fun hs hp hm => ?_⟩⟩
  have hrec' (op : HostOp) {hd : DWord} {r : HomeRec} (hrec : recOf s hd = some r) :
      ((recOf (enterCmd s h op 2) hd).map fun r => r.data) = some r.data := congrArg (Option.map fun r => r.data) hrec
  all_goals refine exec_starts hs ?_; simp only [startOp, cmdGet_enterCmd, cmdMod_enterCmd]
  · exact opSubmit_admitting hst h0 h1 hl hmax hal hb hp hh hi
  · exact opCancel_ended (t := enterCmd s h (.cancel hd) 2) h0 hd' hl hst he
  · exact opHandoffOut_out (t := enterCmd s h (.handoffOut hd target) 2) h0 hd' hl hst ht
  · exact opHandoffIn_receiving h0 hd hst hb hi
  · rw [opQuery_home (t := enterCmd s h (.query hd buf) 2) h0 ha hrole hserve, recData_enterCmd hrec, hb]
    exact finishQuery_word r.data
  · rw [opQuery_home (t := enterCmd s h (.query hd buf) 2) h0 ha hrole hserve, recData_enterCmd hrec,
      finishQuery_page r.data (by simpa [BitVec.toNat_eq] using hb), cmdFn_enterCmd]
  · exact opPrefixLookup_home hc hi hr hh hrole
  · exact opPagePin_pinned hp hm hin
  · exact opPageUnpin_own hp hm

end Sys2Proof.Machine
end

section
/-!
PROOFS. Messages that a home answers from its records (R144, R145, R158, R160), messages at the device that holds the request (R144, R155 to
R163), and replies, leases and resilvering (R141, R146, R153, R162, R164).
-/

namespace Sys2Proof.Machine

/-! ## Reads at a home -/

section
variable {s : State} {m : FHdr}

theorem answerQuery_found {r : HomeRec} (hr : recOf s m.handle = some r) :
    answerQuery s m = reply s m.src.toNat m.handle stOk (.query (some r.data)) := by
  simp only [answerQuery, hr]

theorem answerQuery_missing (hr : recOf s m.handle = none) : answerQuery s m = reply s m.src.toNat m.handle stBadField (.query none) := by
  simp only [answerQuery, hr]

/-- A FETCH from a first block at or after the last committed, and of no token, has nothing to send. -/
theorem onFetch_nothing {first count : Nat} {r : HomeRec} {l : Layout} {im : ScheduleImage × BitVec 384} (h146 : r146 s m true = none)
    (hr : recOf s m.handle = some r) (hl : mainLayout s = some l) (hi : s.sched.image = some im) (hb : r.data.cb ≤ first)
    (ht : max r.data.clenh r.data.plen ≤ min r.data.plen (64 * r.data.cb)) :
    onFetch s m first count = reply s m.src.toNat m.handle stOk .fetch := by
  have hn : min count (r.data.cb - first) = 0 := by omega
  simp only [onFetch, h146, hr, hl, hi, hn, List.range_zero, List.map_nil, List.flatMap_nil, List.isEmpty_nil, if_true,
    decide_eq_false (Nat.not_lt.mpr ht), Bool.and_false, Bool.false_eq_true, if_false]

/-- The pages of a member's COMMIT are placed (R160). -/
theorem placeCommit_placed {b : Nat} {hash : DWord} {ps : List PageData} {pages : List (Nat × Nat × Nat)} {t : State} {r : HomeRec}
    (h146 : r146 s m true = none) (hr : recOf s m.handle = some r) (hb : r.data.cb ≤ b) (hd : r.done.contains b = false)
    (hf : r.from_.contains (b, m.src.toNat) = false) (hp : cget s rFgPfxCount ≠ 0) (hpl : placePages s r.data.client ps = some (pages, t)) :
    placeCommit s m b hash ps = (recMod t m.handle fun r => { r with
      placed := tset r.placed b (tgetD r.placed b [] ++ pages), from_ := r.from_ ++ [(b, m.src.toNat)]
      hashes := if m.hashv then tset r.hashes b hash else r.hashes }, true) := by
  simp only [placeCommit, h146, hr, decide_eq_false (Nat.not_lt.mpr hb), hd, hf, Bool.or_self, Bool.false_eq_true, if_false, if_neg hp, hpl]

theorem serveOp_commit {u : State} {b : Word} {hash : DWord} {ps : List PageData} {r : HomeRec}
    (hp : placeCommit s m b.toNat hash ps = (u, true)) (hr : recOf u m.handle = some r) :
    serveOp s (.commit m b hash ps) = (u, if blockPlaced u r b.toNat then some .change else none) := by
  simp only [serveOp, hp, hr, Option.map_some, Option.getD_some]

/-- A QUERY, FETCH or COMMIT that is let in at the home takes its turn for the handle. -/
theorem exec_homeRead (h : LetIn s m true) (hs : servesHome s m.handle = true) {i : Instr}
    (hi : i = .query m none ∨ (∃ first count, i = .fetch m first count) ∨ ∃ b hash ps, i = .commit m b hash ps) :
    exec i s = .next (quiet s (settle (pumpOps m.handle (s.forager.homeOps.length + 2) (queuedOp s m.handle i)))) := by
  have listed {first count b : Word} {hash : DWord} {ps : List PageData}
      (hi : i ∈ [Instr.commit m b hash ps, .fetch m first count, .query m none]) :
      exec i s = .next (quiet s (settle (pumpOps m.handle (s.forager.homeOps.length + 2) (queuedOp s m.handle i)))) := by
    obtain ⟨hexec, hh⟩ := exec_homeOp (i := i) (client := 0) (plen := 0) (maxlen := 0) (parent := 0) (ids := []) (hashes := []) (target := 0)
      (owner := 0) (epoch := 0) (status := 0) h hs (List.mem_append_right [_, _, _, _, _, _] hi)
    rw [hexec, homeOp_eq hh]
  obtain hi | ⟨first, count, hi⟩ | ⟨b, hash, ps, hi⟩ := hi
  · exact listed (first := 0) (count := 0) (b := 0) (hash := 0) (ps := []) (by simp [hi])
  · exact listed (first := first) (count := count) (b := 0) (hash := 0) (ps := []) (by simp [hi])
  · exact listed (first := 0) (count := 0) (b := b) (hash := hash) (ps := ps) (by simp [hi])

/-- A mirrored message that is let in has its effect at once. -/
theorem exec_replicate (h : LetIn s m true) (d : ReplData) : exec (.replicate m d) s = .next (quiet s (settle (onReplicate s m d))) :=
  next_quiet (msgIn_letIn h (.replicate m d) 11 .replicate)

theorem onReplicate_record {d : RecordData} {hashes : List DWord} {parent : DWord} {x : HomeRec} (hx : recOf s m.handle = some x) :
    onReplicate s m (.record d hashes parent false) = reply (recPut s { x with data := d }) m.src.toNat m.handle stOk .replicate := by
  simp only [onReplicate, hx, Bool.false_eq_true, if_false]

/-- A mirrored COMMIT without pages takes the block in, or waits for its pages (R160). -/
theorem onReplicate_pages {b : Nat} {x : HomeRec} (hx : recOf s m.handle = some x) :
    onReplicate s m (.pages [] b none) =
      if blockPlaced s x b then reply (commitLocal s m.handle b) m.src.toNat m.handle stOk .replicate
      else { s with forager := { s.forager with ackWaits := s.forager.ackWaits ++ [(m.handle, b, m.src.toNat)] } } := by
  simp only [onReplicate, hx, List.isEmpty_nil, if_true]

end

/-- Settles O40. -/
theorem homeReads : Obligations.HomeReads := by
  intro s m hin src left
  refine ⟨fun i hs hq => ?_, fun client hashes => next_quiet (msgIn_letIn hin (.query m (some (client, hashes))) 10 (.lookup 0)),
    fun x d hashes parent hx => ⟨?_, ?_⟩, fun first ids => (exec_replicate hin (.tokens first ids)).trans (by rfl), fun x b hx => ⟨fun hp => ?_, fun hp => ?_⟩⟩
  · let q := queuedOp s m.handle i
    let done := fun (v : State) => quiet s (settle (pumpOps m.handle left (opDrop v i)))
    have first_ := queuedOp_first (i := i) hq
    have served {t : State} (hv : serveOp q i = (t, none))
        (hi : i = .query m none ∨ (∃ first count, i = .fetch m first count) ∨ ∃ b hash ps, i = .commit m b hash ps) :
        exec i s = .next (done t) := by
      rw [exec_homeRead hin hs hi, pumpOps_served first_ rfl hv]
    refine ⟨fun r hi hr => ?_, fun hi hr => ?_, fun first count r l im hi hr h146 hl himg hb ht => ?_,
      fun b hash ps pages t r hi h146 hr hb hd hf hp hpl r' hr' => ⟨fun hw => ?_, fun hw hm => ?_⟩⟩
    · have hv : serveOp q i = (answerQuery q m, none) := by rw [hi]; rfl
      rw [answerQuery_found (s := q) hr] at hv
      exact served hv (.inl hi)
    · have hv : serveOp q i = (answerQuery q m, none) := by rw [hi]; rfl
      rw [answerQuery_missing (s := q) hr] at hv
      exact served hv (.inl hi)
    · have hv : serveOp q i = (onFetch q m first.toNat count.toNat, none) := by rw [hi]; rfl
      rw [onFetch_nothing (s := q) h146 hr hl himg hb ht] at hv
      exact served hv (.inr (.inl ⟨_, _, hi⟩))
    · let u := recMod t m.handle fun r => { r with
        placed := tset r.placed b.toNat (tgetD r.placed b.toNat [] ++ pages), from_ := r.from_ ++ [(b.toNat, src)]
        hashes := if m.hashv then tset r.hashes b.toNat hash else r.hashes }
      have hv : serveOp q i = (u, none) := by
        rw [hi, serveOp_commit (placeCommit_placed (s := q) h146 hr hb hd hf hp hpl) hr', hw]
        rfl
      exact served hv (.inr (.inr ⟨_, _, _, hi⟩))
    · let u := recMod t m.handle fun r => { r with
        placed := tset r.placed b.toNat (tgetD r.placed b.toNat [] ++ pages), from_ := r.from_ ++ [(b.toNat, src)]
        hashes := if m.hashv then tset r.hashes b.toNat hash else r.hashes }
      have hv : serveOp q i = (u, some .change) := by
        rw [hi, serveOp_commit (placeCommit_placed (s := q) h146 hr hb hd hf hp hpl) hr', hw]
        rfl
      rw [exec_homeRead hin hs (.inr (.inr ⟨_, _, _, hi⟩)), pumpOps_change_alone first_ rfl hv hm]
  · rw [exec_replicate hin, onReplicate_record hx]
  · rw [exec_replicate hin]; rfl
  · rw [exec_replicate hin, onReplicate_pages hx, hp, if_pos rfl]
  · rw [exec_replicate hin, onReplicate_pages hx, hp]
    rfl

/-! ## Messages at the device that holds the request -/

section
variable {s : State} {m : FHdr} {d : Desc}

theorem onPagesData_placed {h : DWord} {l : Layout} {ps : List PageData} {t : State} {n : Nat} (hd : descOf s h = some d)
    (hf : d.state = .fetching) (hl : descLayout s d = some l) (hp : placeFetched s l d ps = some (t, n)) :
    onPagesData s h ps = tryActive (descMod t h fun d => { d with pagesLeft := d.pagesLeft - n }) h := by
  simp [onPagesData, hd, hf, hl, hp]

theorem onPagesTokens_fetching {h : DWord} {first : Nat} {ids : List Word} (hd : descOf s h = some d) (hf : d.state = .fetching) :
    onPagesTokens s h first ids = tryActive
      (descMod ((ids.mapIdx fun i t => (first + i, t)).foldl (fun s p => putToken s d p.1 p.2.toNat) s) h
        fun d => { d with tokensLeft := false }) h := by
  simp [onPagesTokens, hd, hf]

/-- A notice of an earlier epoch than the request's is refused (R16). -/
theorem notice_stale {r : ReqSummary} (hd : descOf s m.handle = some d) (he : m.epoch.toNat < d.epoch) :
    onGrant s m r = staleNotice s m ∧ onReleased s m = staleNotice s m ∧ onExpired s m = staleNotice s m ∧
      onAdopt s m r = staleNotice s m ∧ onCleared s m = staleNotice s m := by
  simp [onGrant, onReleased, onExpired, onAdopt, onCleared, hd, he]

theorem endedUnowned_receiving (hs : d.state = .receiving) : endedUnowned d = false := by
  simp [endedUnowned, hs]

theorem onGrant_receiving {r : ReqSummary} (hd : descOf s m.handle = some d) (he : d.epoch ≤ m.epoch.toNat) (hs : d.state = .receiving)
    (hl : d.lead = true)
    (ha : inAlloc (judgeDirect (applySummary s m.handle m.epoch.toNat r) m.handle) d.ctx d.tbuf (4 * r.maxlen.toNat) = true) :
    onGrant s m r = startFetch
      (relay (judgeDirect (applySummary s m.handle m.epoch.toNat r) m.handle) m.handle noticeGrant m.epoch.toNat 0 (some r)) m.handle := by
  simp [onGrant, hd, Nat.not_lt.mpr he, endedUnowned_receiving hs, hs, hl, ha]

theorem onReleased_handingOut (hd : descOf s m.handle = some d) (he : d.epoch ≤ m.epoch.toNat) (hl : d.lead = true)
    (hs : d.state = .handingOut) (hc : d.cmd ≠ 0) :
    onReleased s m = finishCmd (freeDesc
      (descMod (relay s m.handle noticeReleased m.epoch.toNat 0 none) m.handle fun d => { d with state := .passed, cmd := 0 }) m.handle)
      d.cmd stOk m.epoch.toNat := by
  simp [onReleased, hd, Nat.not_lt.mpr he, hl, hs, hc]

theorem onExpired_owning (hd : descOf s m.handle = some d) (he : d.epoch ≤ m.epoch.toNat) (hp : m.status ≠ stPoisoned)
    (hs : d.state = .active ∨ d.state = .fetching ∨ d.state = .handingOut ∨ d.state = .adopted)
    (hl : d.lead = false ∨ d.epoch < m.epoch.toNat) : onExpired s m = fenceDesc s m.handle stLeaseExpired := by
  have ho : (d.state == .fetching || d.state == .active || d.state == .handingOut || d.state == .adopted) = true := by
    rcases hs with hs | hs | hs | hs <;> simp [hs]
  have hq : (!d.lead || decide (d.epoch < m.epoch.toNat)) = true := by simpa using hl
  simp only [onExpired, hd, if_neg (Nat.not_lt.mpr he), beq_false_of_ne hp, Bool.false_eq_true, if_false, ho, hq, Bool.and_self, if_true]

theorem onAdopt_new {r : ReqSummary} {idx : Nat} (hd : descOf s m.handle = none) (hi : freeDescIdx s = some idx) :
    onAdopt s m r = adoptDesc (addDesc s {
      idx := idx, handle := m.handle, state := .adopted, client := r.client.toNat, created := now s, lead := isLead s
      order := s.forager.nextOrder }) m r 0 := by
  simp only [onAdopt, hd, hi]

theorem onJoin_new {idx : Nat} (hd : descOf s m.handle = none) (hi : freeDescIdx s = some idx) :
    onJoin s m = addDesc s (memberPlace s {
      idx := idx, handle := m.handle, state := .receiving, client := 0, home := hHome m.handle
      partner := (partnerOf s (hHome m.handle)).getD 0, created := now s, lead := false, order := s.forager.nextOrder }) := by
  simp only [onJoin, hd, hi]

theorem onCleared_handingOut (hd : descOf s m.handle = some d) (he : d.epoch ≤ m.epoch.toNat) (hs : d.state = .handingOut) :
    onCleared s m = callOff s m.handle stTargetLost := by
  simp [onCleared, hd, Nat.not_lt.mpr he, hs]

section
variable {first : Nat} {ps : List PageData} (hd : descOf s m.handle = some d) (hs : d.state = .receiving ∨ d.state = .fetching)
  (hp : d.peer = some m.src.toNat)
include hd hs hp

theorem onDirect_fits (hf : directFits d m.epoch.toNat = true) (hn : d.direct = none) :
    onDirect s m first ps = descMod s m.handle fun d => { d with direct := some (m.epoch.toNat, first, ps) } := by
  rcases hs with hs | hs <;> simp [onDirect, hd, hs, hp, hf, hn]

theorem onDirect_unfit (hf : directFits d m.epoch.toNat = false) : onDirect s m first ps = refuseDirect s m.src.toNat m.handle := by
  rcases hs with hs | hs <;> simp [onDirect, hd, hs, hp, hf]

end

end

/-- Settles O41. -/
theorem ownerMessages : Obligations.OwnerMessages := by
  intro s m hin hd e
  have stale {i : Instr} {t : State} (h : exec i s = .next (quiet s (settle t))) (ht : t = staleNotice s m) :
      exec i s = .next (quiet s (settle (noteRefusal s 12 stNotOwner hd))) := by
    rw [h, ht]; rfl
  have grant r : exec (.grant m r) s = .next (quiet s (settle (onGrant s m r))) := next_quiet (msgIn_letIn hin (.grant m r) 12 .other)
  have released : exec (.released m) s = .next (quiet s (settle (onReleased s m))) := next_quiet (msgIn_letIn hin (.released m) 12 .other)
  have expired : exec (.expired m) s = .next (quiet s (settle (onExpired s m))) := next_quiet (msgIn_letIn hin (.expired m) 12 .other)
  have adopt r : exec (.adopt m r) s = .next (quiet s (settle (onAdopt s m r))) := next_quiet (msgIn_letIn hin (.adopt m r) 12 .other)
  have join : exec (.join m) s = .next (quiet s (settle (onJoin s m))) := next_quiet (msgIn_letIn hin (.join m) 12 .other)
  have cleared : exec (.pendingCleared m) s = .next (quiet s (settle (onCleared s m))) :=
    next_quiet (msgIn_letIn hin (.pendingCleared m) 12 .other)
  have direct first ps : exec (.direct m first ps) s = .next (quiet s (settle (onDirect s m first.toNat ps))) :=
    next_quiet (msgIn_letIn hin (.direct m first ps) 13 .other)
  refine ⟨fun d l ps t n hq hf hl hp first ids => ?_, fun d first ids ps hq hf => ?_, fun d r hq he i hi => ?_,
    fun d r hq he hf hl ha => ?_, fun d hq he hl hf hc => ?_, fun d hq he hp hf hl => ?_, fun r idx hq hi => ?_, fun idx hq hi => ?_,
    fun d hq he hf => ?_, fun d first ps hq hf hp => ⟨fun hfit hn => ?_, fun hfit => ?_⟩⟩
  · rw [← onPagesData_placed hq hf hl hp]
    exact next_quiet (msgIn_letIn hin (.pages m 0 first ids ps) 8 .other)
  · rw [← onPagesTokens_fetching hq hf]
    exact next_quiet (msgIn_letIn hin (.pages m 1 first ids ps) 8 .other)
  · obtain ⟨hg, hr, hx, ha, hc⟩ := notice_stale (r := r) hq he
    simp only [List.mem_cons, List.not_mem_nil, or_false] at hi
    rcases hi with rfl | rfl | rfl | rfl | rfl
    · exact stale (grant r) hg
    · exact stale released hr
    · exact stale expired hx
    · exact stale (adopt r) ha
    · exact stale cleared hc
  · rw [grant, onGrant_receiving hq he hf hl ha]
  · rw [released, onReleased_handingOut hq he hl hf hc]
  · rw [expired, onExpired_owning hq he hp hf hl]
  · rw [adopt, onAdopt_new hq hi]
  · rw [join, onJoin_new hq hi]
  · rw [cleared, onCleared_handingOut hq he hf]
  · rw [direct, onDirect_fits hq hf hp hfit hn]
  · rw [direct, onDirect_unfit hq hf hp hfit]
    rfl

/-! ## Replies, proposals, leases and resilvering -/

section
variable {s : State} {m : FHdr}

/-- A REPLY that is let in advances what was asked; no role is asked of its node (R144). -/
theorem exec_reply_letIn (hp : jobStarted s = true) (hr : m.resv = false) (he : m.roleEpoch = s.boot.roleEpoch) (hl : s.beat.state ≠ .lost)
    (hn : m.notBefore = 0 ∨ m.notBefore.toNat ≤ now s) (r : ReplyTo) :
    exec (.reply m r) s = .next (quiet s (settle (onReply s m r))) := by
  have hlate : (m.notBefore != 0 && decide (now s < m.notBefore.toNat)) = false := by
    rcases hn with hn | hn
    · simp [hn]
    · simp [decide_eq_false (Nat.not_lt.mpr hn)]
  have h : replyIn s (.reply m r) m = settle (applyMsg s (.reply m r)) := by
    simp only [replyIn, hp, he, hr, beq_false_of_ne hl, hlate, bne_self_eq_false, Bool.not_true, Bool.or_self, Bool.false_eq_true, if_false]
  exact next_quiet h

theorem exec_reply_otherEpoch (hp : jobStarted s = true) (he : m.roleEpoch ≠ s.boot.roleEpoch) (r : ReplyTo) :
    exec (.reply m r) s = .next (quiet s (noteRefusal s 14 stRoleStale m.handle)) := by
  have h : replyIn s (.reply m r) m = noteRefusal s 14 stRoleStale m.handle := by
    simp only [replyIn, hp, Bool.not_true, Bool.false_eq_true, if_false, bne_iff_ne.mpr he, if_true]
  exact next_quiet h

theorem onReply_unasked {r : ReplyTo} (hs : m.status ≠ stRoleStale) (hf : r ≠ .other ∨ fencedBy s m.handle m.status = false)
    (ha : s.forager.asked.find? (answers m r) = none) : onReply s m r = s := by
  have hq : (r == .other && fencedBy s m.handle m.status) = false := by
    rcases hf with hf | hf
    · rw [beq_false_of_ne hf, Bool.false_and]
    · rw [hf, Bool.and_false]
  simp only [onReply, beq_false_of_ne hs, Bool.false_eq_true, if_false, hq, ha]

theorem onReply_fenced (hs : m.status ≠ stRoleStale) (hf : fencedBy s m.handle m.status = true) :
    onReply s m .other = fenceDesc s m.handle m.status := by
  simp only [onReply, beq_false_of_ne hs, Bool.false_eq_true, if_false, hf, beq_self_eq_true, Bool.and_self, if_true]

section
variable {a : Asked} (hs : m.status = stOk)
include hs

theorem onReply_renewed {lease : Nat} (ha : s.forager.asked.find? (answers m (.renew lease)) = some a) :
    onReply s m (.renew lease) =
      let u := descMod (takeAsked s (answers m (.renew lease))) m.handle fun d => { d with lease := max d.lease lease }
      { u with forager := { u.forager with asked := u.forager.asked.filter fun a => !(a.handle == m.handle && bodyType a.body == 2) } } := by
  simp [onReply, hs, ha, stOk, stRoleStale, stNotHome, stRequestLost]

theorem onReply_proposed (ha : s.forager.asked.find? (answers m .propose) = some a) :
    onReply s m .propose = takeAsked s (answers m .propose) := by
  simp [onReply, hs, ha, stOk, stRoleStale, stNotHome, stRequestLost]

theorem onReply_claimed (ha : s.forager.asked.find? (answers m .claim) = some a) :
    onReply s m .claim = takeAsked s (answers m .claim) := by
  cases hd : descOf (takeAsked s (answers m .claim)) m.handle <;> simp [onReply, hs, ha, hd, stOk, stRoleStale, stNotHome, stRequestLost]

theorem onReply_replicated (ha : s.forager.asked.find? (answers m .replicate) = some a) :
    onReply s m .replicate =
      if a.follow then takeAsked s (answers m .replicate) else ackOp (takeAsked s (answers m .replicate)) m.handle stOk := by
  simp [onReply, hs, ha, stOk, stRoleStale, stNotHome, stRequestLost]

end

variable {hd : DWord} {d : Desc}

theorem proposeSend_sends (hq : descOf s hd = some d) (hs : d.state = .handingOut) (hp : d.proposed = false) (hx : stepOf s hd = none)
    (ht : d.tokensOut = []) (hb : d.wasAdopted = true ∨ d.clen / 64 ≤ d.cb) (hr : directRows s d = []) :
    proposeSend s hd = askHome (descMod s hd fun d => { d with proposed := true }) hd d.epoch (.propose (d.peer.getD 0)) := by
  have hc : (!d.wasAdopted && decide (d.cb < d.clen / 64)) = false := by
    rcases hb with hb | hb
    · simp [hb]
    · simp [Nat.not_lt.mpr hb]
  simp [proposeSend, hq, hs, hp, hx, ht, hc, hr]

theorem leaseFence_passed (hq : descOf s hd = some d) (hl : d.lead = true) (hb : hasBeat s = true) (hn : d.lease ≤ now s)
    (hs : d.state = .fetching ∨ d.state = .active ∨ d.state = .handingOut ∨ d.state = .adopted) :
    leaseFence s hd = fenceDesc s hd stLeaseExpired := by
  rcases hs with hs | hs | hs | hs <;> simp [leaseFence, hq, hl, hb, hn, hs]

theorem leaseReassign_passed {r : HomeRec} (hs : servesHome s hd = true) (hb : hasBeat s = true) (hr : recOf s hd = some r)
    (hl : r.data.lease ≤ now s) (ho : r.data.state = recOwned ∨ r.data.state = recPending)
    (hm : ∀ o ∈ s.forager.homeOps, o.msg ≠ .leaseReassign hd) : leaseReassign s hd = homeOp s (.leaseReassign hd) := by
  have hany : (s.forager.homeOps.any fun o => o.handle == hd && o.msg == .leaseReassign hd) = false := by
    rw [List.any_eq_false]
    intro o ho
    rw [beq_false_of_ne (hm o ho), Bool.and_false]
    exact Bool.false_ne_true
  rcases ho with ho | ho <;> simp [leaseReassign, hs, hb, hr, hl, ho, hany]

/-- The reassignment of an owned or pending record whose lease has passed is a change (R154). -/
theorem judge_leaseReassign {r : HomeRec} (hr : recOf s hd = some r) (hl : r.data.lease ≤ now s)
    (ho : r.data.state = recOwned ∨ r.data.state = recPending) : judge s (.leaseReassign hd) = .change := by
  rcases ho with ho | ho <;> simp [judge, hr, hl, ho]

theorem resilverDone_listed {n : Nat} (hn : s.forager.resilver.contains n = true) :
    resilverDone s n = setEvent { s with forager := { s.forager with
      resilver := s.forager.resilver.filter (· != n), resilvered := insertNat n s.forager.resilvered } } rFgEvent 5 := by
  simp only [resilverDone, hn, Bool.true_or, if_true]

end

/-- Settles O42. -/
theorem repliesAndLeases : Obligations.RepliesAndLeases := by
  refine ⟨fun s m hp hj hv => ⟨fun he hl hn => ?_, fun he r => exec_reply_otherEpoch hj he r⟩, fun s hp => ⟨?_, ?_, ?_, ?_⟩⟩
  · have hexec := exec_reply_letIn hj hv he hl hn
    refine ⟨fun r ha hs hf => ?_, fun hs hf => ?_, fun a lease ha hs => ?_, fun a ha hs => ?_, fun a ha hs => ?_, fun a ha hs => ?_⟩
    · rw [hexec, onReply_unasked hs hf ha]
    · rw [hexec, onReply_fenced hs hf]
    · rw [hexec, onReply_renewed hs ha]
    · rw [hexec, onReply_proposed hs ha]
    · rw [hexec, onReply_claimed hs ha]
    · rw [hexec, onReply_replicated hs ha]
  · intro hd d hq hs hpr hx ht hb hr
    exact next_quiet (congrArg settle (proposeSend_sends hq hs hpr hx ht hb hr))
  · intro hd d hq hl hb hn hs
    exact next_quiet (congrArg settle (leaseFence_passed hq hl hb hn hs))
  · intro hd r hs hb hr hl ho hm hc
    have hq := queuedOp_first (s := s) (h := hd) (i := .leaseReassign hd) fun o ho => (hm o ho).1
    have hv : serveOp (queuedOp s hd (.leaseReassign hd)) (.leaseReassign hd) = (queuedOp s hd (.leaseReassign hd), some .change) := by
      rw [← judge_leaseReassign (s := queuedOp s hd (.leaseReassign hd)) hr hl ho]
      rfl
    have h : leaseReassign s hd = pumpOps hd (s.forager.homeOps.length + 1) (applyOp s (.leaseReassign hd) (now s)) := by
      rw [leaseReassign_passed hs hb hr hl ho fun o ho => (hm o ho).2, homeOp_eq (h := hd) rfl,
        pumpOps_change_alone hq rfl hv hc, opDrop_queuedOp fun o ho => (hm o ho).2]
    exact next_quiet (congrArg settle h)
  · intro n hn
    exact next_quiet (congrArg settle (resilverDone_listed hn))

end Sys2Proof.Machine
end

section
/-!
PROOFS. The matrix engine: issue of MMA, MLDA, MST and MSTAT (R71 to R74, R100) and the engine's own events (R74 to R88, R104, R326).
-/

namespace Sys2Proof.Machine

/-! ## Issue -/

/-- The checks of R73 on the mode word of an MMA and the tile it accumulates into, for either form of B. -/
structure MmaLegal (m : Nat) (f : Bool × Nat) : Prop where
  reserved : mResvOk m = true
  afmt : mAfmt m < 7
  bfmt : mBfmt m < 7
  pair : pairOk (mAfmt m) (mBfmt m) = true
  some_block : 0 < mNk m
  blocks : mKoff m + mNk m ≤ 8
  tile : mZero m = true ∨ f = (fmtInt (mAfmt m), mRows m)
  coded : mBcomp m = true → mBfmt m = 0 ∨ mBfmt m = 1 ∨ mBfmt m = 3

/-- The tests of a legal mode word pass. -/
theorem MmaLegal.mode {m : Nat} {f : Bool × Nat} (h : MmaLegal m f) :
    (!mResvOk m || 7 ≤ mAfmt m || 7 ≤ mBfmt m || !pairOk (mAfmt m) (mBfmt m) ||
      (mBcomp m && !(mBfmt m == 0 || mBfmt m == 1 || mBfmt m == 3)) || mNk m == 0 || 8 < mNk m || 8 < mKoff m + mNk m) = false := by
  obtain ⟨hr, ha, hf, hp, hn, hk, -, hc⟩ := h
  have hcoded : (mBcomp m && !(mBfmt m == 0 || mBfmt m == 1 || mBfmt m == 3)) = false := by
    cases hm : mBcomp m with
    | false => rfl
    | true => rcases hc hm with hc | hc | hc <;> simp [hc]
  have hnk : ¬ 8 < mNk m := by omega
  rw [hcoded]
  simp only [hr, hp, decide_eq_false (Nat.not_le.mpr ha), decide_eq_false (Nat.not_le.mpr hf), beq_false_of_ne (Nat.pos_iff_ne_zero.mp hn),
    decide_eq_false hnk, decide_eq_false (Nat.not_lt.mpr hk), Bool.not_true, Bool.or_self]

theorem MmaLegal.fits {m : Nat} {f : Bool × Nat} (h : MmaLegal m f) :
    (!mZero m && (f.1 != fmtInt (mAfmt m) || f.2 != mRows m)) = false := by
  rcases h.tile with ht | ht <;> simp [ht]

/-- What the check of the descriptor of a compressed MMA comes to (R100), in the state `v` that its line's finding leaves. -/
def mmaDescCheck (v : State) (x : Issue) (a m : Nat) : Half ⊕ Nat :=
  checkCbDesc v x.c x.win (ctxProt v x.win.ctx) (cellPoisoned v x.c (lineOf (x.win.base + a))) (mBfmt m) (mNk m)
    (parseCbDesc (cellRead v x.c (x.win.base + a) 64))

section
variable {u : State} {x : Issue}

section
variable {ecc : Ecc} (he : x.win.engine = true) (ha : x.g u (iA x.i) % 64 = 0)
  (h : MmaLegal (x.g u (iB x.i)) (futureTile (engGet u x.c) (bits (iD x.i) 1 0)))
include he ha h

/-- A plain MMA joins the queue. -/
theorem mmaEffect_plain (hb : mBcomp (x.g u (iB x.i)) = false)
    (hw : x.g u (iA x.i) + mNk (x.g u (iB x.i)) * bBlockBytes (mBfmt (x.g u (iB x.i))) ≤ x.win.size) :
    mmaEffect ecc u x = x.enqueue u (.mma (bits (iD x.i) 1 0) (bit (iD x.i) 2) (x.g u (iA x.i))
      (BitVec.ofNat 64 (x.g u (iB x.i))) none none []) := by
  simp only [mmaEffect, h.mode, h.fits, he, ha, bne_self_eq_false, Bool.not_true, Bool.false_eq_true, if_false]
  simp only [hb, Bool.not_false, Bool.false_eq_true, if_false, if_true, if_neg (Nat.not_lt.mpr hw)]

section
variable (hb : mBcomp (x.g u (iB x.i)) = true) (hw : x.g u (iA x.i) + 64 ≤ x.win.size)
include hb hw

theorem mmaEffect_refused {st : Half} {v : State} (hv : v = cellEcc u x.c (lineOf (x.win.base + x.g u (iA x.i))) ecc)
    (hst : mmaDescCheck v x (x.g u (iA x.i)) (x.g u (iB x.i)) = .inl st) :
    mmaEffect ecc u x =
      x.enqueue (prismFail v x.c (x.g u (iA x.i)) (parseCbDesc (cellRead v x.c (x.win.base + x.g u (iA x.i)) 64)).version 0 st)
        (.mma (bits (iD x.i) 1 0) (bit (iD x.i) 2) (x.g u (iA x.i)) (BitVec.ofNat 64 (x.g u (iB x.i))) none (some st)
          (cellRead v x.c (x.win.base + x.g u (iA x.i)) 64)) := by
  subst hv
  unfold mmaDescCheck at hst
  simp only [mmaEffect, h.mode, h.fits, he, ha, bne_self_eq_false, Bool.not_true, Bool.false_eq_true, if_false]
  simp only [hb, Bool.not_true, Bool.false_eq_true, if_false, if_true, if_neg (Nat.not_lt.mpr hw), hst]

theorem mmaEffect_admitted {j : Nat} {v : State} (hv : v = cellEcc u x.c (lineOf (x.win.base + x.g u (iA x.i))) ecc)
    (hj : mmaDescCheck v x (x.g u (iA x.i)) (x.g u (iB x.i)) = .inr j) :
    mmaEffect ecc u x =
      x.enqueue (slotSet v x.c j { slotGet v x.c j with refs := (slotGet v x.c j).refs + 1 })
        (.mma (bits (iD x.i) 1 0) (bit (iD x.i) 2) (x.g u (iA x.i)) (BitVec.ofNat 64 (x.g u (iB x.i))) (some j) none
          (cellRead v x.c (x.win.base + x.g u (iA x.i)) 64)) := by
  subst hv
  unfold mmaDescCheck at hj
  simp only [mmaEffect, h.mode, h.fits, he, ha, bne_self_eq_false, Bool.not_true, Bool.false_eq_true, if_false]
  simp only [hb, Bool.not_true, Bool.false_eq_true, if_false, if_true, if_neg (Nat.not_lt.mpr hw), hj]

end

end

theorem mldaEffect_queued (he : x.win.engine = true) (ha : x.g u (iA x.i) % 64 = 0)
    (hs : bits (iImm x.i) 31 16 * 64 ≠ 0 ∨ bits (iImm x.i) 5 0 + 1 ≤ 1)
    (hw : x.g u (iA x.i) + rowsSpan (bits (iImm x.i) 5 0 + 1) (bits (iImm x.i) 31 16 * 64)
      (32 * (bits (iImm x.i) 8 6 + 1) + (if bit (iImm x.i) 9 == 1 then 2 * (bits (iImm x.i) 8 6 + 1) else 0)) ≤ x.win.size) :
    mldaEffect u x = x.enqueue u (.mlda (bit (iD x.i) 0) (x.g u (iA x.i)) (bits (iImm x.i) 5 0 + 1) (bits (iImm x.i) 8 6 + 1)
      (bit (iImm x.i) 9 == 1) (bits (iImm x.i) 31 16 * 64)) := by
  have hz : (bits (iImm x.i) 31 16 * 64 == 0 && decide (1 < bits (iImm x.i) 5 0 + 1)) = false := by
    rcases hs with hs | hs
    · rw [beq_false_of_ne hs, Bool.false_and]
    · rw [decide_eq_false (Nat.not_lt.mpr hs), Bool.and_false]
  simp only [mldaEffect, he, hz, ha, bne_self_eq_false, Bool.not_true, Bool.or_self, Bool.false_eq_true, if_false, if_neg (Nat.not_lt.mpr hw)]

theorem mstEffect_queued (he : x.win.engine = true) (ha : x.g u (iA x.i) % 64 = 0)
    (hs : bits (iImm x.i) 31 16 * 64 ≠ 0 ∨ (futureTile (engGet u x.c) (bits (iD x.i) 1 0)).2 ≤ 1) (hf : bits (iImm x.i) 3 0 < 7)
    (ht : (futureTile (engGet u x.c) (bits (iD x.i) 1 0)).1 = decide (5 ≤ bits (iImm x.i) 3 0))
    (hr : 0 < (futureTile (engGet u x.c) (bits (iD x.i) 1 0)).2) (hc : x.win.code ≤ x.g u (iA x.i))
    (hw : x.g u (iA x.i) + rowsSpan (futureTile (engGet u x.c) (bits (iD x.i) 1 0)).2 (bits (iImm x.i) 31 16 * 64)
      (64 * outBytes (bits (iImm x.i) 3 0)) ≤ x.win.size) :
    mstEffect u x = x.enqueue u (.mst (bits (iD x.i) 1 0) (x.g u (iA x.i)) (bits (iImm x.i) 3 0) (bits (iImm x.i) 31 16 * 64)
      (futureTile (engGet u x.c) (bits (iD x.i) 1 0)).2) := by
  have hz : (bits (iImm x.i) 31 16 * 64 == 0 && decide (1 < (futureTile (engGet u x.c) (bits (iD x.i) 1 0)).2)) = false := by
    rcases hs with hs | hs
    · rw [beq_false_of_ne hs, Bool.false_and]
    · rw [decide_eq_false (Nat.not_lt.mpr hs), Bool.and_false]
  have hfmt : (7 ≤ bits (iImm x.i) 3 0 || (bits (iImm x.i) 3 0 < 5 && (futureTile (engGet u x.c) (bits (iD x.i) 1 0)).1) ||
      (5 ≤ bits (iImm x.i) 3 0 && !(futureTile (engGet u x.c) (bits (iD x.i) 1 0)).1) ||
      (futureTile (engGet u x.c) (bits (iD x.i) 1 0)).2 == 0) = false := by
    rw [ht, beq_false_of_ne (Nat.pos_iff_ne_zero.mp hr)]
    by_cases h5 : 5 ≤ bits (iImm x.i) 3 0
    · simp [h5, hf]
    · simp [h5, hf]
  have hin : (decide (x.g u (iA x.i) < x.win.code) || decide (x.win.size < x.g u (iA x.i) +
      rowsSpan (futureTile (engGet u x.c) (bits (iD x.i) 1 0)).2 (bits (iImm x.i) 31 16 * 64) (64 * outBytes (bits (iImm x.i) 3 0)))) = false := by
    rw [decide_eq_false (Nat.not_lt.mpr hc), decide_eq_false (Nat.not_lt.mpr hw), Bool.or_self]
  simp only [mstEffect, he, hz, hfmt, ha, hin, bne_self_eq_false, Bool.not_true, Bool.or_self, Bool.false_eq_true, if_false]

theorem mstatEffect_owned (he : x.win.engine = true) :
    mstatEffect u x = setG u x.c x.w (iD x.i)
      (tileBits (engGet u x.c) (fun t => !t.poison.isEmpty) + 16 * tileBits (engGet u x.c) (fun t => t.isInt && !t.sat.isEmpty) +
        256 * (engGet u x.c).queue.length + 8192 * b2n (engGet u x.c).failed) := by
  simp only [mstatEffect, he, Bool.not_true, Bool.false_eq_true, if_false]

end

/-- While 16 instructions are queued none joins: the state stands (R74). -/
theorem matrixInsn_queueFull {s : State} {c : CellId} {w : WorkerId} {win : Win} {i : Insn} {r : Row} (h : Issues s c w win i r)
    (hq : queueFull s c.val = true) (eff : State → Issue → State) : matrixInsn r eff s c.val w.val i = .next s := by
  simp only [matrixInsn, hq, h.word, beq_self_eq_true, Bool.and_self, if_true]

/-- Settles O8. -/
theorem matrixInstructions : Obligations.MatrixInstructions := by
  intro s c w win i ecc u x a m f imm stride
  refine ⟨fun hq => ⟨fun h => matrixInsn_queueFull h hq _, fun h => matrixInsn_queueFull h hq _, fun h => matrixInsn_queueFull h hq _⟩,
    fun he hq ha => ⟨fun h hr hafmt hbfmt hp hn hk ht => ⟨fun hb hw => ?_, fun hb hf hw => ⟨fun st hst => ?_, fun j hj => ?_⟩⟩,
      fun h hs hw => ?_, fun h hs hfmt ht hr hc hw => ?_⟩, fun he h => cellInsn_effect h (mstatEffect_owned he)⟩
  · have legal : MmaLegal m f := ⟨hr, hafmt, hbfmt, hp, hn, hk, ht, fun hc => absurd (hb.symm.trans hc) Bool.false_ne_true⟩
    exact (matrixInsn_issues h hq _).trans (next_quiet (mmaEffect_plain (u := u) (x := x) he ha legal hb hw))
  · have legal : MmaLegal m f := ⟨hr, hafmt, hbfmt, hp, hn, hk, ht, fun _ => hf⟩
    exact (matrixInsn_issues h hq _).trans (next_quiet (mmaEffect_refused (u := u) (x := x) he ha legal hb hw rfl hst))
  · have legal : MmaLegal m f := ⟨hr, hafmt, hbfmt, hp, hn, hk, ht, fun _ => hf⟩
    exact (matrixInsn_issues h hq _).trans (next_quiet (mmaEffect_admitted (u := u) (x := x) he ha legal hb hw rfl hj))
  · exact (matrixInsn_issues h hq _).trans (next_quiet (mldaEffect_queued he ha hs hw))
  · exact (matrixInsn_issues h hq _).trans (next_quiet (mstEffect_queued he ha hs hfmt ht hr hc hw))

/-! ## The engine's completions -/

section
variable {s : State} {c : Nat} {op : MatOp} {rest : List MatOp} {win : Win}

theorem mmaCompletes_takes {mism : List Mismatch} {found : EngineFound} {t b addr : Nat} {mode : DWord} {slot : Option Nat}
    {fail : Option Half} {desc : List Byte} (hq : takeMat isMma [] (engGet s c).queue = some (op, rest))
    (hi : op.insn = .mma t b addr mode slot fail desc) (hw : winOfCtx s c op.ctx = some win)
    (hs : (!((engGet s c).failed || fail.isSome)) = true → engineHeld s c = false ∧ (engGet s c).cold = false) :
    mmaCompletes s c mism found =
      let m := mode.toNat
      let streams := !((engGet s c).failed || fail.isSome)
      let v := if streams then engineFindings s c win op.insn found else found.own.foldl (fun s x => engineEcc s c x) s
      let l := if streams then settledPart (settledOrder m op.skip mism) else []
      let v := match l.find? (fun x => !x.repeatPasses) with
        | some x => countCodes v c win op.insn (x.block.val - mKoff m + 1) op.skip
        | none => v
      let r := mmaTile (l.foldl (fun s x => applyMismatch t s c x) v) c win op.insn (mNk m) op.skip
      let dual := dualRun r c
      let r := if streams then streamed r c op.ctx m dual (streamCycles m op.skip dual l) else r
      finishMat (engSet r c { engGet r c with queue := rest }) c op := by
  have hheld : ((!((engGet s c).failed || fail.isSome)) && (engineHeld s c || (engGet s c).cold)) = false := by
    cases hst : !((engGet s c).failed || fail.isSome) with
    | false => rfl
    | true =>
      obtain ⟨hh, hc⟩ := hs hst
      rw [hh, hc]
      rfl
  simp only [mmaCompletes, hq, hi, hw, hheld, Bool.false_eq_true, if_false] <;> rfl

theorem mldaCompletes_takes {found : EngineFound} {b addr rows kb : Nat} {fp4 : Bool} {stride : Nat}
    (hq : takeMat isMlda [] (engGet s c).queue = some (op, rest)) (hi : op.insn = .mlda b addr rows kb fp4 stride)
    (hw : winOfCtx s c op.ctx = some win) :
    mldaCompletes s c found =
      let v := engineFindings s c win op.insn found
      let len := 32 * kb + (if fp4 then 2 * kb else 0)
      let bad := (List.range rows).filter fun r => cellRangePoisoned v c (win.base + addr + r * stride) len
      let buf := (List.range rows).foldl (fun (x : ABuf) r =>
        let row := cellRead v c (win.base + addr + r * stride) len
        { data := mwrite x.data (r * 256) (row.take (32 * kb))
          scale := if fp4 then mwrite x.scale (r * 16) (row.drop (32 * kb)) else x.scale
          poison := if bad.contains r then insertNat r x.poison else if kb = 8 then x.poison.filter (· != r) else x.poison })
        (bufOfEng (engGet v c) b)
      let r := engSet v c { engGet v c with bufs := tset (engGet v c).bufs b buf, queue := rest }
      finishMat (if bad = [] then r else setEvent r (rMxEvent c) 2) c op := by
  simp only [mldaCompletes, hq, hi, hw, List.isEmpty_iff]

theorem mstCompletes_takes {ecc : List EngineEcc} {t addr fmt stride rows : Nat}
    (hq : takeMat isMst [] (engGet s c).queue = some (op, rest)) (hi : op.insn = .mst t addr fmt stride rows)
    (hw : winOfCtx s c op.ctx = some win) :
    mstCompletes s c ecc =
      let v := ecc.foldl (fun s x => engineEcc s c x) s
      let x := tileOfEng (engGet v c) t
      let r := (List.range rows).foldl (fun s r =>
        cellWrite s c (win.base + addr + r * stride)
          ((List.range 64).flatMap fun n => leBytes (outBytes fmt) (storeElem fmt (tgetD x.vals (r * 64 + n) 0))) (x.poison.contains r)) v
      finishMat (engSet r c { engGet r c with queue := rest }) c op := by
  simp only [mstCompletes, hq, hi, hw]

/-- A cold engine with an MMA queued starts in its own slot of the stagger (R87). -/
theorem staggerStart_slot {count : Nat} (hc : (engGet s c).cold = true) (hq : ((engGet s c).queue.any fun op => isMma op.insn) = true)
    (hn : count % 128 = 4 * (c % 32)) :
    staggerStart s c count = engSet s c { engGet s c with cold := false, streaming := true } := by
  simp only [staggerStart, hc, hq, hn, beq_self_eq_true, Bool.and_self, if_true]

theorem holdRelease_eq (fits : Bool) :
    holdRelease s c fits = if (engGet s c).held = fits then engSet s c { engGet s c with held := !fits } else s := by
  simp only [holdRelease, beq_iff_eq]

end

/-- Settles O9. -/
theorem engineEvents : Obligations.EngineEvents :=
  ⟨fun _ _ _ _ => ⟨fun _ _ _ _ _ _ _ _ _ _ _ hq hi hw hs => next_quiet (mmaCompletes_takes hq hi hw hs),
      fun _ _ _ _ _ _ _ _ _ hq hi hw => next_quiet (mldaCompletes_takes hq hi hw),
      fun _ _ _ _ _ _ _ _ hq hi hw => next_quiet (mstCompletes_takes hq hi hw)⟩,
    fun _ _ _ => ⟨fun _ hc hq hn => next_quiet (staggerStart_slot hc hq hn), fun fits => next_quiet (holdRelease_eq fits)⟩⟩

end Sys2Proof.Machine
end

section
/-!
PROOFS. DMA descriptors (R56 to R58, R360), and events of the cells, the stages, the collectives and the codebooks (R48, R94, R122, R127).
-/

namespace Sys2Proof.Machine

/-! ## DMA -/

section
variable {u : State} {x : Issue} {e : Ecc} {m : State} (hm : m = cellEcc u x.c (lineOf (x.win.base + x.addr u)) e)
  (hf : accessFault x.win (x.addr u) 64 false = none) (hp : cellPoisoned m x.c (lineOf (x.win.base + x.addr u)) = false)
include hm hf hp

theorem dmaEffect_taken (hr : (takeDma m x.c x.w x.win (x.addr u)).2 = none) :
    dmaEffect e u x = (takeDma m x.c x.w x.win (x.addr u)).1 := by
  subst hm
  simp only [dmaEffect, withAccess_load false hf hp]
  generalize takeDma _ x.c x.w x.win (x.addr u) = r at hr ⊢
  obtain ⟨t, o⟩ := r
  cases hr
  rfl

/-- Beyond 32 in flight the worker waits (R56). -/
theorem dmaEffect_waits {id : Nat} (hr : (takeDma m x.c x.w x.win (x.addr u)).2 = some id) :
    dmaEffect e u x = setWait (takeDma m x.c x.w x.win (x.addr u)).1 x.c x.w (.dmaSlot id) := by
  subst hm
  simp only [dmaEffect, withAccess_load false hf hp]
  generalize takeDma _ x.c x.w x.win (x.addr u) = r at hr ⊢
  obtain ⟨t, o⟩ := r
  cases hr
  rfl

end

section
variable {s : State} {c n : Nat} {d : DmaOp} (hd : dmaOf s c n = some d)
include hd

section
variable (hm : dmaMayStart s c d = true)
include hm

theorem startDma_refused {st : Half} (hst : checkDma s c d = .inl st) :
    startDma s c n =
      finishDma (if d.dstSpace = 2 ∧ sealedRange s d.dst d.len = true ∧ st = stRights then sealRefused s else s) c n st := by
  simp only [startDma, hd, hm, hst, Bool.not_true, Bool.false_eq_true, if_false, Bool.and_eq_true, decide_eq_true_eq, beq_iff_eq, and_assoc]

variable {a b : Nat × Nat} (hab : checkDma s c d = .inr (a, b))
include hab

theorem startDma_local (hs : d.srcSpace ≠ 3) (ht : d.dstSpace ≠ 3) :
    startDma s c n = dmaMod s c n fun d => { d with started := true, srcAt := a, dstAt := b } := by
  simp only [startDma, hd, hm, hab, Bool.not_true, Bool.false_eq_true, if_false, decide_eq_false hs, decide_eq_false ht, Bool.or_self]

section
variable (hr : d.srcSpace = 3 ∨ d.dstSpace = 3) {v : State} (hv : v = dmaMod s c n fun d => { d with started := true, srcAt := a, dstAt := b })
include hr hv

/-- A descriptor on the device's own node that a check of R283 refuses ends with its status (R285). -/
theorem startDma_ownNode {st : Half} (hst : ownNodeStatus v d = some st) : startDma s c n = finishDma v c n st := by
  subst hv
  simp only [startDma, hd, hm, hab, Bool.not_true, Bool.false_eq_true, if_false, Bool.or_eq_true, decide_eq_true_eq, if_pos hr, hst]

theorem startDma_remote (hst : ownNodeStatus v d = none) :
    startDma s c n = dmaMod v c n fun d => { d with linesToIssue := d.len / 128 } := by
  subst hv
  simp only [startDma, hd, hm, hab, Bool.not_true, Bool.false_eq_true, if_false, Bool.or_eq_true, decide_eq_true_eq, if_pos hr, hst]

end

end

theorem completeDma_moved {found : Findings} (hst : d.started = true) (hs : d.srcSpace ≠ 3) (ht : d.dstSpace ≠ 3)
    (hl : dmaToLens s d = false) :
    completeDma s c n found =
      let v := sourceEcc s d.srcSpace d.srcAt d.len found
      let r := moveLines (ctxClient v d.ctx) d.srcSpace d.dstSpace d.srcAt d.dstAt (d.len / 64) v
      finishDma r.1 c n (if r.2.2 then stNoResource else if r.2.1 then stPoisoned else stOk) := by
  simp only [completeDma, hd, hst, beq_false_of_ne hs, beq_false_of_ne ht, hl, Bool.not_true, Bool.or_self, Bool.false_eq_true, if_false]

end

/-- Settles O10. -/
theorem dmaTransfers : Obligations.DmaTransfers := by
  intro s c
  refine ⟨fun w win i e h hf hp => ⟨fun hr => cellInsn_effect h (dmaEffect_taken rfl hf hp hr),
    fun id hr => cellInsn_effect h (dmaEffect_waits rfl hf hp hr)⟩,
    fun n d hpow hd hm => ⟨fun st hst => next_quiet (startDma_refused hd hm hst), fun a b hab => ?_⟩,
    fun n d found hpow hd hst hs ht hl => next_quiet (completeDma_moved hd hst hs ht hl)⟩
  exact ⟨fun hs ht => next_quiet (startDma_local hd hm hab hs ht), fun hr =>
    ⟨fun st hst => next_quiet (startDma_ownNode hd hm hab hr rfl hst), fun hst => next_quiet (startDma_remote hd hm hab hr rfl hst)⟩⟩

/-! ## Scrub, stage slots, collectives and codebooks -/

section
variable {s : State}

theorem patrolScrub_on (found : List (CellId × Ecc)) (h : cfld s rClCfg 3 0 ≠ 0) :
    patrolScrub s found =
      let v := found.foldl (fun s f => if cellOn s f.1.val then cellEcc s f.1.val s.grid.scrub f.2 else s) s
      { v with grid := { v.grid with scrub := (v.grid.scrub + 1) % 20480 } } := by
  simp only [patrolScrub, if_neg h]

theorem fillNextSlot_step {h : DWord} {layer c : Nat} {found : Findings} {st : Stage} {d : Desc} {x : Step} {l : Layout}
    (hst : s.cache.stages.find? (fun (x : Stage) => x.handle == h && x.layer == layer) = some st) (hd : descOf s h = some d)
    (hx : stepOf s h = some x) (hl : descLayout s d = some l) :
    fillNextSlot s h layer c found = tryEndStep (fillSlotOf s l st x.ctx x.e c found) h := by
  simp only [fillNextSlot, hst, hd, hx, hl]

/-- The result of a collective is written to its destination (R127). -/
theorem completeColl_written {n : Nat} {inputs : List (List Word)} {q : Coll} {w : Win}
    (hq : s.cache.colls.find? (fun c => c.id == n) = some q)
    (hw : winOfCtx s q.dst.cell q.ctx = some w) :
    completeColl s n inputs =
      let member := (s.sched.image.map fun p => p.1.main.member).getD 0
      let ins := (inputs.mapIdx fun i x => if i = member then q.own else x).map fun x => x.map (·.toNat)
      let out := if q.lse then (List.range (q.src.len / (q.dh + 2))).flatMap fun r => collLse ins q.dh (r * (q.dh + 2))
        else (List.range q.src.len).map (collSum ins)
      cellWrite (collStatus { s with cache := { s.cache with colls := s.cache.colls.filter fun x => x.id != n } } q.ctx stOk) q.dst.cell
        (w.base + q.dst.addr) (out.flatMap (leBytes 4)) q.poison := by
  have hw' : winOfCtx (collStatus { s with cache := { s.cache with colls := s.cache.colls.filter fun x => x.id != n } } q.ctx stOk)
    q.dst.cell q.ctx = some w := hw
  simp only [completeColl, hq, hw']

end

/-- Settles O11. -/
theorem cellAndCacheEvents : Obligations.CellAndCacheEvents :=
  fun _ _ => ⟨fun found h => next_quiet (patrolScrub_on found h),
    fun _ _ _ _ _ _ _ _ hst hd hx hl => next_quiet (congrArg settle (fillNextSlot_step hst hd hx hl)),
    fun _ _ _ _ hq hw => next_quiet (completeColl_written hq hw), fun _ => rfl⟩

end Sys2Proof.Machine
end

section
/-!
PROOFS. The lens: its queue, DRAFT, VERIFY and FIRST (R173 to R180, R193), and its upkeep (R185, R189, R190); a context saved and restored
(R208 to R210, R237).
-/

namespace Sys2Proof.Machine

/-! ## Sampling -/

section
variable {s : State}

theorem lensRequest_joins {c n : Nat} {e : Ecc} {d : DmaOp} (hd : dmaOf s c n = some d) (hst : d.started = true)
    (hl : dmaToLens s d = true) (hs : d.srcSpace ≠ 3) (ho : lensOn s = true) (hq : s.lens.queue.length < 4096) :
    lensRequest s c n e =
      let v := sourceEcc s d.srcSpace d.srcAt 64 [(0, e)]
      let p := placeLine v d.srcSpace d.srcAt
      let q : LensReq := { bytes := bytesVReg p.1, client := ctxClient v d.ctx, ctx := d.ctx }
      finishDma { v with lens := { v.lens with queue := v.lens.queue ++ [q] } } c n (if p.2 then stPoisoned else stOk) := by
  simp only [lensRequest, hd, hst, hl, beq_false_of_ne hs, ho, Bool.not_true, Bool.or_self, Bool.false_eq_true, if_false,
    if_neg (Nat.not_le.mpr hq)]

/-- The request at the head, of a step that does not recompute, is served. -/
theorem onHead_serves {kind : Nat} {k : State → Req → State} {q : Req} {x : Step} (hq : headReq s kind = some q)
    (hx : stepOf s q.handle = some x) (hr : x.recompute = false) : onHead s kind k = k (popReq s) q := by
  simp only [onHead, hq, hx, hr, Bool.false_eq_true, if_false]

variable {q : Req} {x : Step} {d : Desc} {m : LensMeets} {v : State}

section
variable (hx : stepOf s q.handle = some x) (hr : x.recompute = false) (hst : reqStatus (popReq s) q = stOk)
  (hd : descOf (popReq s) q.handle = some d)
include hx hr hst hd

theorem serveDraft_samples {t : Nat} (hq : headReq s 0 = some q)
    (hs : sampleAt (popReq s) q d 0 (x.clen + q.j)
      (x.drafts.foldl (fun g (t : Word) => nextG (popReq s) d g t.toNat) (sbGet (popReq s) d 64 4)) m = (v, .inr t)) :
    serveDraft s m =
      let g := x.drafts.foldl (fun g (t : Word) => nextG (popReq s) d g t.toNat) (sbGet (popReq s) d 64 4)
      let dl := if x.d ≠ 0 ∧ t = setupF d 28 4 then q.j else x.d
      let v := serveDraft.draftTaken (sbPut v d (124 + 4 * q.j) 4 t) d x q.j dl (BitVec.ofNat 32 t)
      writeResult v q t 0 ((if x.d = 0 then 4 else b2n (q.j == dl)) + 8 * b2n x.degraded) stOk (nextG v d g t) := by
  have hx' : stepOf (popReq s) q.handle = some x := hx
  have hdl : (x.d != 0 && t == setupF d 28 4) = decide (x.d ≠ 0 ∧ t = setupF d 28 4) := by
    rw [Bool.eq_iff_iff]
    simp
  rw [serveDraft, onHead_serves hq hx hr]
  simp only [hst, bne_self_eq_false, Bool.false_eq_true, if_false, hd, hx', hs, hdl, decide_eq_true_eq]

theorem serveVerify_accepts {out : List Nat} {g : Nat} (hq : headReq s 1 = some q) (hdis : discarded (popReq s) q = false)
    (hl : verifyLoop m q d x (remaining (popReq s) d) (x.d + 1) (popReq s) 0 (sbGet (popReq s) d 64 4) [] = (v, .inr (out, g))) :
    serveVerify s m =
      let a := out.length - 1
      let v := sbPut (sbPut v d 64 4 g) d 68 4 (sbGet v d 68 4 + a + 1)
      let v := backOff (satAdd v rLnAccepted 31 0 a) d x.d a
      let v := writeResult v q (out.getLastD 0) a
        (2 * b2n (generationEnds v d (out.getLastD 0) (x.clen + a + 1)) + 8 * b2n x.degraded) stOk g
      let v := stepMod v q.handle fun x => { x with accepted := some a }
      tryEndStep (logTokens v q.handle (x.clen + 1) out (tokenStatus x)) q.handle := by
  have hx' : stepOf (popReq s) q.handle = some x := hx
  rw [serveVerify, onHead_serves hq hx hr]
  simp only [hdis, hst, bne_self_eq_false, Bool.false_eq_true, if_false, hd, hx', hl]

theorem serveFirst_samples {t : Nat} (hq : headReq s 2 = some q)
    (hs : sampleAt (popReq s) q d 0 d.plen (sbGet (popReq s) d 64 4) m = (v, .inr t)) :
    serveFirst s m =
      let g := nextG v d (sbGet v d 64 4) t
      let v := sbPut (sbPut v d 64 4 g) d 68 4 (sbGet v d 68 4 + 1)
      let v := writeResult v q t 0 (2 * b2n (generationEnds v d t d.plen) + 8 * b2n x.degraded) stOk g
      let v := logTokens v q.handle d.plen [t] (if x.degraded then stOkDegraded else stOk)
      if d.lead then v else tryEndStep (stepMod v q.handle fun x => { x with accepted := some 0 }) q.handle := by
  have hx' : stepOf (popReq s) q.handle = some x := hx
  rw [serveFirst, onHead_serves hq hx hr]
  simp only [hst, bne_self_eq_false, Bool.false_eq_true, if_false, hd, hx', hs]

end

end

/-- Settles O12. -/
theorem lensSampling : Obligations.LensSampling := by
  intro s hp
  refine ⟨fun c n e d hd hst hl hs ho hq => next_quiet (lensRequest_joins hd hst hl hs ho hq),
    fun shadow found q x d hx hr hst hd => ⟨fun v t hq hs => ?_, fun v out g hq hdis hl => ?_, fun v t hq hs => ?_⟩⟩
  · exact next_quiet (congrArg settle (serveDraft_samples hx hr hst hd hq hs))
  · exact next_quiet (congrArg settle (serveVerify_accepts hx hr hst hd hq hdis hl))
  · exact next_quiet (congrArg settle (serveFirst_samples hx hr hst hd hq hs))

/-! ## Upkeep of the lens -/

section
variable {s : State}

theorem grammarCopied_loading {slot : Nat} (h : (gslotOf s slot).state = .loading) :
    grammarCopied s slot = gslotSet s slot { gslotOf s slot with copied := true } := by
  simp only [grammarCopied, h, beq_self_eq_true, if_true]

theorem shadowSweep_on {upsets : List (Fin 64 × Fin 32768)} (h : cfld s rLnCfg 0 0 ≠ 0) :
    shadowSweep s upsets =
      let i := s.lens.sweep
      let v := ((List.range 64).filter s.lens.on.getLsbD).foldl (fun s b =>
        sweepBank i (upsets.any fun d => d.1.val == b && d.2.val == i) s b) s
      { v with lens := { v.lens with sweep := (i + 1) % 32768 } } := by
  simp only [shadowSweep, if_neg h]

/-! ## Swapping -/

section
variable {n rs : Nat} {x : Ctx} (hx : ctxOf s n = some x) (hrs : x.rs = some rs)
include hx hrs

/-- The record of a drained context, as it is saved: its slot, what ended and what was discarded while it drained, its semaphores. -/
theorem swapSaved_record (hst : x.state = .swappingOut) (hd : x.drained = true) (hs : x.saved = false) (hf : x.force = false) :
    ∃ r : SwapRec, r.rs = rs ∧ r.finished = x.finished ∧ r.discarded = x.discarded ∧ r.sems = x.semsOut ∧
      swapSaved s n =
        ctxMod (satAdd (putRecord (charge s x.client 5 9 ((((imageSlots s)[rs]?).map recordSize).getD 0)) x) rSqSwapCount 31 0 1) n
          fun x => { x with saved := true, record := some r } := by
  refine ⟨{
    rs := rs, finished := x.finished, discarded := x.discarded, sems := x.semsOut
    cells := (slotCells s rs).filterMap fun k => (winOfCtx s k.cell n).map fun w => saveCell s n k.cell w (tgetD x.queues k.cell [])
    barriers := (slotBarriers s rs).map fun b => tgetD s.grid.barriers b.barrier { ctx := n, expected := b.expected } }, rfl, rfl, rfl, rfl, ?_⟩
  simp only [swapSaved, hx, hrs, hst, hd, hs, hf, bne_self_eq_false, Bool.not_true, Bool.or_self, Bool.false_eq_true, if_false]

variable {found : Findings} (hst : x.state = .swappingIn) (hr : x.restored = false)
include hst hr

/-- A context without a record gets a copy of its code (R62, R210). -/
theorem swapRestored_fresh (hc : x.record = none) :
    swapRestored s n found =
      ctxMod (satAdd (copyCode (install s n rs) n rs) rSqSwapCount 31 0 1) n fun x => { x with restored := true, record := none } := by
  simp only [swapRestored, hx, hrs, hst, hr, hc, bne_self_eq_false, Bool.or_self, Option.isSome_none, Bool.false_and, Bool.false_eq_true,
    if_false]

variable {r : SwapRec} (hc : x.record = some r)
include hc

theorem swapRestored_lost (hl : recordLost (readRecord s x found) x = true) :
    swapRestored s n found = abortCtx (readRecord s x found) n stContextAborted := by
  simp only [swapRestored, hx, hrs, hst, hr, hc, hl, bne_self_eq_false, Bool.or_self, Option.isSome_some, Bool.and_self, Bool.false_eq_true,
    if_false, if_true]

theorem swapRestored_record (hl : recordLost (readRecord s x found) x = false) :
    swapRestored s n found =
      let v := install (readRecord s x found) n rs
      let v := charge v x.client 4 8 ((((imageSlots v)[r.rs]?).map recordSize).getD 0)
      ctxMod (satAdd (restoreRest (r.cells.foldl (fun s k => restoreCell s n k (mapCell s r.rs rs k.cell)) v) n rs r) rSqSwapCount 31 0 1)
        n fun x => { x with restored := true, record := none } := by
  simp only [swapRestored, hx, hrs, hst, hr, hc, hl, bne_self_eq_false, Bool.or_self, Option.isSome_some, Bool.and_false, Bool.false_eq_true,
    if_false, if_true]

end

end

/-- Settles O13. -/
theorem lensUpkeepAndSwaps : Obligations.LensUpkeepAndSwaps := by
  refine ⟨fun s hp => ⟨fun slot h => next_quiet (congrArg settle (grammarCopied_loading h)), fun b h => next_quiet (if_pos h),
    fun upsets h => next_quiet (shadowSweep_on h)⟩, fun s n x rs found hp hx hrs => ⟨fun _ _ => rfl, fun hst hd hs hf => ?_,
    fun hst hr hc => next_quiet (swapRestored_fresh hx hrs hst hr hc), fun r hst hr hc => ⟨fun hl => next_quiet (swapRestored_lost hx hrs hst hr hc hl),
      fun hl => next_quiet (swapRestored_record hx hrs hst hr hc hl)⟩⟩⟩
  obtain ⟨r, hr, hfin, hdis, hsem, hsave⟩ := swapSaved_record hx hrs hst hd hs hf
  exact ⟨r, hr, hfin, hdis, hsem, next_quiet hsave⟩

end Sys2Proof.Machine
end

section
/-!
PROOFS. Memory tiers: tile moves (R227, R231, R232), the BAR2 window and failures of memory (R229, R238, R241, R360, R396), and the upkeep of
NAND (R243 to R245).
-/

namespace Sys2Proof.Machine

/-! ## Tile moves -/

section
variable {s : State}

theorem startMove_starts {r : MoveReq} {t : Nat} {x : TileSt} {p : Place} {v : State} (hst : (moveHeads s).any (stuckPin s) = false)
    (hn : nextMove s = some (r, t)) (hx : tileGet s t = some x) (hp : takePlace s r.dest (moveComb s r t) t = some (p, v)) :
    startMove s =
      let w := tileSet v t { x with moving := some p }
      settleMoves { w with tiers := { w.tiers with
        moves := w.tiers.moves ++ [{ tile := t, queue := tierOf x.place * 3 + r.dest, client := r.client }]
        reqs := w.tiers.reqs.map fun q =>
          if q.id == r.id then { q with tiles := q.tiles.filter (· != t), waiting := q.waiting ++ [t] } else q } } := by
  simp only [startMove, hst, Bool.false_eq_true, if_false, hn, hx, hp]

theorem switchMove_switches {t : Nat} {x y : TileSt} {p : Place} {found : Findings} (hx : tileGet s t = some x) (hm : x.moving = some p)
    {v : State} (hv : v = memoryFindings (countRead (countRead s (2 * t)) (2 * t + 1)) (t * tileSize) tileSize found)
    (hy : tileGet v t = some y) (hym : y.moving = some p) (hf : placeFailed v y.place = false) :
    switchMove s t found =
      let hadPoison := v.tiers.poison.any fun l => l / 512 == t
      let client := (v.tiers.moves.find? fun m => m.tile == t).bind fun m => m.client
      let v := chargeMove v t (tierOf y.place) (tierOf p) client
      let v := satAdd (tileSet (freePlace v y.place t) t { y with place := p, moving := none }) rMtMoved 31 0 1
      settleMoves { v with tiers := { v.tiers with
        moves := v.tiers.moves.filter fun m => m.tile != t
        reqs := v.tiers.reqs.map fun q =>
          if q.waiting.contains t then
            { q with waiting := q.waiting.filter (· != t), moved := q.moved + 1, poisoned := q.poisoned || hadPoison }
          else q } } := by
  subst hv
  simp only [switchMove, hx, Option.bind_some, hm, Option.isSome_some, if_true, hy, hym, hf, Bool.false_eq_true, if_false, List.foldl_nil,
    List.isEmpty_nil, Bool.not_true, Bool.false_or]

end

/-- Settles O14. -/
theorem tileMoves : Obligations.TileMoves :=
  fun _ _ => ⟨fun _ _ _ _ _ hst hn hx hp => next_quiet (congrArg settle (startMove_starts hst hn hx hp)),
    fun _ _ _ _ hx hm _ hy hym hf => next_quiet (congrArg (fun v => settle (answerPins v)) (switchMove_switches hx hm rfl hy hym hf))⟩

/-! ## The BAR2 window -/

section
variable {s : State} {f off : Nat}

theorem bar2Put_boot {bs : List Byte} (hb : off + bs.length ≤ barSize s f) (hw : bootWindow s f = true) :
    bar2Put s f off bs = bootWrite s off bs := by
  simp only [bar2Put, if_neg (Nat.not_lt.mpr hb), hw, if_true]

section
variable (hp : s.boot.phase = 7) (he : fnEnabled s f = true) (hw : bootWindow s f = false)
include hp he hw

/-- A write once READY: dropped where R229 or a seal refuses it, else placed. -/
theorem bar2Put_ready {bs : List Byte} (hb : off + bs.length ≤ barSize s f) :
    bar2Put s f off bs =
      if bar2Refused s f (windowAt s f off) bs.length then noteBar2 s f
      else if sealedRange s (windowAt s f off) bs.length then sealRefused (noteBar2 s f)
      else chargeBytes (rangeWrite s (windowAt s f off) bs).1 f (windowAt s f off) bs.length true := by
  simp only [bar2Put, if_neg (Nat.not_lt.mpr hb), hw, hp, he, bne_self_eq_false, Bool.not_true, Bool.or_self, Bool.false_eq_true, if_false]

theorem bar2Get_ready {n : Nat} {found : Findings} (hb : off + n ≤ barSize s f) :
    bar2Get s f off n found =
      let a := windowAt s f off
      let v := memoryFindings s a n found
      if bar2Refused s f a n then emit (noteBar2 s f) (.unsupported f)
      else emit (chargeBytes (touchRange v a n) f a n false) (.completion f (rangeRead v a n) (rangePoisoned v a n)) := by
  simp only [bar2Get, if_neg (Nat.not_lt.mpr hb), hw, hp, he, bne_self_eq_false, Bool.not_true, Bool.false_eq_true, if_false]

end

end

/-! ## Failures of memory -/

section
variable {s t : State}

theorem Reports.tiers (h : Reports s t) : t.tiers = s.tiers := by
  obtain ⟨_, _, _, _, _, _, _, _, rfl⟩ := h
  rfl

theorem healthMove_tiers (s : State) (h : Health) (soft : Bool) : (healthMove s h soft).tiers = s.tiers :=
  (reports_healthMove s h soft).tiers

theorem expel_tiers (s : State) : (expel s).tiers = s.tiers := by
  unfold expel
  dsimp only
  split
  · exact healthMove_tiers ..
  · rw [healthMove_tiers, healthMove_tiers]

theorem hardEvent_tiers (s : State) (cause : Nat) : (hardEvent s cause).tiers = s.tiers := by
  have hset : (setEvent s rRlEvent 0).tiers = s.tiers := (reports_setEvent ..).tiers
  unfold hardEvent
  dsimp only
  split
  · split
    · exact (reports_event ..).tiers.trans hset
    · exact hset
  · exact (expel_tiers _).trans hset

/-- A stack that fails takes no tile again (R238). -/
theorem failStack_tiers {n : Nat} (hf : s.tiers.hbmFailed.getLsbD n = false) (ho : s.tiers.hbmOut.getLsbD n = false) :
    (failStack s n).tiers = { s.tiers with
      hbmFailed := s.tiers.hbmFailed ||| BitVec.ofNat 20 (2 ^ n), freeHbm := terase s.tiers.freeHbm n } := by
  simp only [failStack, hf, ho, Bool.or_self, Bool.false_eq_true, if_false]
  rw [hardEvent_tiers, (reports_event ..).tiers, (reports_setEvent ..).tiers]

/-- A channel that fails takes no tile again (R241). -/
theorem failChannel_tiers {c : Nat} (h : tgetD s.tiers.ddrState c 0 = 1) :
    (failChannel s c).tiers = { s.tiers with ddrState := tset s.tiers.ddrState c 3, freeDdr := terase s.tiers.freeDdr c } := by
  simp only [failChannel, h, bne_self_eq_false, Bool.false_eq_true, if_false]
  rw [(reports_event ..).tiers, (reports_setEvent ..).tiers]

theorem channelFails_lost {c : Nat} {lost : Bool} (h : lost = true ∨ 16 < tgetD s.tiers.ddrLines c 0) :
    channelFails s c lost = failChannel s c := by
  rcases h with h | h <;> simp [channelFails, h]

theorem channelFails_stands {c : Nat} {lost : Bool} (hl : lost = false) (h : tgetD s.tiers.ddrLines c 0 ≤ 16) :
    channelFails s c lost = s := by
  simp [channelFails, hl, Nat.not_lt.mpr h]

end

/-- Settles O15. -/
theorem hostWindowAndMemoryFailures : Obligations.HostWindowAndMemoryFailures := by
  refine ⟨fun s f off => ⟨fun bs hb hw => next_quiet (bar2Put_boot hb hw), fun hp he hw => ⟨fun bs hb => ?_, fun n found hb => ?_⟩⟩,
    fun s hp => ⟨fun line x e hx ht => ?_, fun n hf ho => ?_, fun c lost found => ⟨fun hs hl => ?_, fun hl hn =>
      next_quiet (channelFails_stands hl hn)⟩⟩⟩
  · have hput := bar2Put_ready hp he hw hb
    refine ⟨fun hr hs => next_quiet (hput.trans ?_), fun hr => next_quiet (hput.trans ?_), fun hr hs => next_quiet (hput.trans ?_)⟩
    · rw [if_neg (Bool.eq_false_iff.mp hr), if_neg (Bool.eq_false_iff.mp hs)]
    · rw [if_pos hr]
    · rw [if_neg (Bool.eq_false_iff.mp hr), if_pos hs]
  · have hget := bar2Get_ready (found := found) hp he hw hb
    exact ⟨fun hr => next_quiet (hget.trans (if_neg (Bool.eq_false_iff.mp hr))), fun hr => next_quiet (hget.trans (if_pos hr))⟩
  · refine next_quiet ?_
    simp only [scrubLines, List.foldl_cons, List.foldl_nil, hx, if_pos ht]
  · refine ⟨_, rfl, ?_⟩
    rw [quiet_tiers hp, failStack_tiers hf ho]
    exact ⟨rfl, rfl, rfl, rfl⟩
  · refine ⟨_, rfl, ?_⟩
    rw [quiet_tiers hp, channelFails_lost hl, failChannel_tiers hs]
    exact ⟨rfl, rfl, rfl, rfl⟩

/-! ## NAND -/

section
variable {s v : State} {l b : Nat}

theorem collectBlock_emptied (h : emptyBlock s l b = some v) :
    collectBlock s l b = lunSet v l { lunGet v l with blocks := tmod (lunGet v l).blocks b fun k => { erase := k.erase + 1 } } := by
  simp only [collectBlock, h]

section
variable (hd : (lunGet s l).dead = false)
include hd

theorem garbageCollect_short {k : NandBlock} (hf : freeBlocks (lunGet s l) * 50 < (lunGet s l).blocks.length)
    (hb : leastBlock (fun k => k.pages.length)
      ((lunGet s l).blocks.filter fun e => e.2.used != 0 && !(((lunGet s l).opened.map fun p => p.1 == e.1 || p.2 == e.1).getD false))
        = some (b, k)) : garbageCollect s l = collectBlock s l b := by
  simp only [garbageCollect, hd, decide_eq_false (Nat.not_le.mpr hf), Bool.or_self, Bool.false_eq_true, if_false, hb]

/-- A block of data that a rule of R244 names is relocated. -/
theorem relocateBlock_due {k : NandBlock} {c : RelocCause} (hk : tget (lunGet s l).blocks b = some k) (hu : k.used ≠ 0)
    (hc : (c = .staticWear ∧ wornApart s (lunGet s l) = some b) ∨ (c = .readDisturb ∧ cfld s rMtNandCfg 15 8 * 1024 ≤ k.reads) ∨
      (∃ retry percent, c = .marginalRead retry percent ∧ (4 < retry ∨ 75 < percent)) ∨
      (c = .retention ∧ k.programmed + 72 < s.power.wearHours)) : relocateBlock s l b c = collectBlock s l b := by
  have hdue : relocDue s (lunGet s l) b k c = true := by
    rcases hc with ⟨rfl, hc⟩ | ⟨rfl, hc⟩ | ⟨retry, percent, rfl, hc⟩ | ⟨rfl, hc⟩ <;> simp [relocDue, hc]
  simp only [relocateBlock, hk, hd, hdue, bne_iff_ne.mpr hu, Bool.not_false, Bool.and_self, if_true]

theorem retireBlock_emptied (h : emptyBlock s l b = some v) :
    retireBlock s l b =
      let w := lunSet v l { lunGet v l with blocks := terase (lunGet v l).blocks b }
      checkNandSpare { w with tiers := { w.tiers with spare := w.tiers.spare - 1, goodBlocks := w.tiers.goodBlocks - 1 } } := by
  simp only [retireBlock, hd, Bool.false_eq_true, if_false, h]

theorem failLun_listed {y : Lun} (hy : tget s.tiers.luns l = some y) :
    failLun s l =
      let n := (lunGet s l).blocks.length
      let v := lunSet s l { dead := true }
      checkNandSpare { v with tiers := { v.tiers with spare := v.tiers.spare - n, goodBlocks := v.tiers.goodBlocks - n } } := by
  simp only [failLun, hd, hy, Option.isNone_some, Bool.or_self, Bool.false_eq_true, if_false]

end

end

/-- Settles O16. -/
theorem nandUpkeep : Obligations.NandUpkeep :=
  fun _ _ _ hd => ⟨fun _ _ _ hf hb hv => next_quiet ((garbageCollect_short hd hf hb).trans (collectBlock_emptied hv)),
    fun _ _ _ _ hk hu hc hv => next_quiet ((relocateBlock_due hd hk hu hc).trans (collectBlock_emptied hv)),
    fun _ _ hv => next_quiet (retireBlock_emptied hd hv), fun _ hy => next_quiet (failLun_listed hd hy)⟩

end Sys2Proof.Machine
end

section
/-!
PROOFS. The split between generation and prompts (R218).
-/

namespace Sys2Proof.Machine

section
variable {s : State}

/-- The split once it is evaluated at ratio `r`. -/
def splitTarget (s : State) (r : Nat) : Nat :=
  let x := splitOf s
  if cfld s rSqCfg 20 20 = 1 then s.sched.target
  else if s.sched.level + 1 < x.nlev && decide (x.up.getD s.sched.level 65535 ≤ r) then s.sched.level + 1
  else if 0 < s.sched.level && decide (r < x.down.getD s.sched.level 0) then s.sched.level - 1
  else s.sched.level

/-- The split's work of generation and of prompts (R218). -/
def splitWork (s : State) : Nat × Nat :=
  let x := splitOf s
  let live := s.forager.descs.filter fun d => d.state == .active || d.state == .adopted
  (x.wg * (live.filter fun d => !inPrompt d).length, x.wp * ((s.forager.descs.filter fun d => inPrompt d).map fun d => d.plen - d.clen).sum)

theorem evaluateSplit_due {j0 : Nat} (hj : jobOrigin s = some j0) (hb : hasBeat s = true) (hn : j0 < now s) (hm : (now s - j0) % 256 = 0)
    (he : s.sched.evalAt ≠ now s) :
    evaluateSplit s =
      if (splitWork s).1 + (splitWork s).2 = 0 then { s with sched := { s.sched with evalAt := now s } }
      else
        let r := 65535 * (splitWork s).1 / ((splitWork s).1 + (splitWork s).2)
        { s with sched := { s.sched with evalAt := now s, ratio := r, target := splitTarget s r } } := by
  simp only [evaluateSplit, hj, hb, hm, decide_eq_false (Nat.not_le.mpr hn), beq_false_of_ne he, bne_self_eq_false, Bool.not_true, Bool.or_self,
    Bool.false_eq_true, if_false]
  rfl

variable {r : Nat}

theorem splitTarget_held (h : cfld s rSqCfg 20 20 = 1) : splitTarget s r = s.sched.target := if_pos h

section
variable (hc : cfld s rSqCfg 20 20 ≠ 1)
include hc

theorem splitTarget_up (hu : s.sched.level + 1 < (splitOf s).nlev ∧ (splitOf s).up.getD s.sched.level 65535 ≤ r) :
    splitTarget s r = s.sched.level + 1 := by
  obtain ⟨hl, hr⟩ := hu
  simp only [splitTarget, if_neg hc, hl, hr, decide_true, Bool.and_self, if_true]

variable (hu : ¬ (s.sched.level + 1 < (splitOf s).nlev ∧ (splitOf s).up.getD s.sched.level 65535 ≤ r))
include hu

theorem splitTarget_down (hd : 0 < s.sched.level ∧ r < (splitOf s).down.getD s.sched.level 0) : splitTarget s r = s.sched.level - 1 := by
  obtain ⟨hl, hr⟩ := hd
  simp only [splitTarget, if_neg hc, ← Bool.decide_and, decide_eq_true_eq, if_neg hu, hl, hr, decide_true, Bool.and_self, if_true]

theorem splitTarget_stands (hd : ¬ (0 < s.sched.level ∧ r < (splitOf s).down.getD s.sched.level 0)) :
    splitTarget s r = s.sched.level := by
  simp only [splitTarget, if_neg hc, ← Bool.decide_and, decide_eq_true_eq, if_neg hu, if_neg hd]

end

end

/-- Settles O19. -/
theorem splitEvaluation : Obligations.SplitEvaluation := by
  intro s j0 hp hj hb hn hm he x live g p r lv up down
  have heval := evaluateSplit_due hj hb hn hm he
  by_cases hz : g + p = 0
  · refine ⟨_, rfl, ?_⟩
    rw [quiet_sched hp, show evaluateSplit s = _ from heval.trans (if_pos hz)]
    exact ⟨rfl, rfl, fun _ => ⟨rfl, rfl⟩, fun h => absurd hz h, fun _ => rfl, fun _ h => absurd hz h, fun _ h => absurd hz h,
      fun _ h => absurd hz h⟩
  · refine ⟨_, rfl, ?_⟩
    rw [quiet_sched hp, show evaluateSplit s = _ from heval.trans (if_neg hz)]
    exact ⟨rfl, rfl, fun h => absurd h hz, fun _ => rfl, fun h => splitTarget_held h, fun hc _ hu => splitTarget_up hc hu,
      fun hc _ hu hd => splitTarget_down hc hu hd, fun hc _ hu hd => splitTarget_stands hc hu hd⟩

/-! ## Resets -/

section
variable {s : State} {w : BootWorld}

theorem powerOnReset_boots (hm : w.mfgTest = false) :
    powerOnReset s true w = bootBeat (bootFrom2 { coldState s with
      boot := { (coldState s).boot with pwrOk := true, resetN := true, flash := flashFrom w.flash 0 flashSize [] } } w true) := by
  simp only [powerOnReset, hm, Bool.not_true, Bool.false_eq_true, if_false]

theorem powerOnReset_mfgTest (hm : w.mfgTest = true) :
    powerOnReset s true w = outOfReset { coldState s with
      boot := { (coldState s).boot with pwrOk := true, resetN := true, flash := flashFrom w.flash 0 flashSize [] } } := by
  simp only [powerOnReset, hm, Bool.not_true, Bool.false_eq_true, if_false, if_true]

theorem resetNRise_low (hp : s.boot.pwrOk = true) (hr : s.boot.resetN = false) :
    resetNRise s w =
      let up := { s with boot := { s.boot with resetN := true } }
      if w.mfgTest then outOfReset up else bootBeat (bootFrom2 up w true) := by
  simp only [resetNRise, hp, hr, Bool.not_false, Bool.and_self, if_true]

theorem warmResetBy_running {cause : WarmCause} (hp : s.boot.pwrOk = true) (hr : s.boot.resetN = true) (h1 : s.boot.phase ≠ 1)
    (hc : cause = .perst → s.boot.phase = 7) : warmResetBy s cause w = warmReset s (cause == .resetN) w := by
  have hready : (cause == .perst && s.boot.phase != 7) = false := by
    by_cases h : cause = .perst
    · rw [hc h, bne_self_eq_false, Bool.and_false]
    · rw [beq_false_of_ne h, Bool.false_and]
  simp only [warmResetBy, hp, hr, beq_false_of_ne h1, hready, Bool.and_self, Bool.not_true, Bool.or_self, Bool.false_eq_true, if_false]

theorem perstBeforeReady_drops (hp : s.boot.pwrOk = true) (h7 : s.boot.phase ≠ 7) :
    perstBeforeReady s = keepBeat s (pcieLink s false 0 0 false) := by
  simp only [perstBeforeReady, hp, bne_iff_ne.mpr h7, Bool.and_self, if_true]

/-- PWR_OK falling leaves a cold device, but for the flash, what has left it and its queue (R414). -/
theorem pwrOkFall_cold (s : State) :
    ∃ tx, pwrOkFall s = { State.reset with
      freeCtr := s.freeCtr, tx := tx, pending := s.pending
      boot := { State.reset.boot with resetN := s.boot.resetN, flash := s.boot.flash } } := by
  unfold pwrOkFall
  dsimp only
  split <;> exact ⟨_, rfl⟩

/-- GO with a staged image that fits, no certificate before it, and is accepted (R397). -/
theorem go_accepted {t : State} (h4 : s.boot.phase = 4) (ht : s.power.thermtrip = false)
    (hl : stagingImage + headerSize + leNat (mread s.boot.staging (stagingImage + 8) 8) ≤ stagingSize)
    (hc : ¬ (leNat (mread s.boot.staging 0 4) = 0x49504C54 ∧ leNat (mread s.boot.staging 4 1) = 7))
    (hi : presentImage s (headerSize + leNat (mread s.boot.staging (stagingImage + 8) 8))
      (mread s.boot.staging stagingImage (headerSize + leNat (mread s.boot.staging (stagingImage + 8) 8))) 3 = (t, true)) :
    go s w = bootBeat (bootConfigured t w) := by
  have hcert : (leNat (mread s.boot.staging 0 4) == 0x49504C54 && leNat (mread s.boot.staging 4 1) == 7) = false := by
    rw [Bool.eq_false_iff]
    simpa using hc
  simp only [go, h4, ht, bne_self_eq_false, Bool.or_self, Bool.false_eq_true, if_false, if_neg (Nat.not_lt.mpr hl), hcert, Bool.not_false,
    if_true, hi]

end

/-- The answer of a reset, where its effect is known. -/
theorem next_keepQueue {s t t' : State} (h : t = t') :
    (Host.Outcome.next (keepQueue s t) : Host.Outcome State Fault Refusal) = .next (keepQueue s t') := h ▸ rfl

/-- Settles O20. -/
theorem resetsAndGo : Obligations.ResetsAndGo := by
  refine ⟨?_, fun s t w h4 ht hl hc hi => next_keepQueue (go_accepted h4 ht hl hc hi)⟩
  intro s w cold high
  refine ⟨rfl, fun hm => next_keepQueue (powerOnReset_mfgTest hm), fun hm => next_keepQueue (powerOnReset_boots hm),
    fun hp hr => ⟨fun hm => next_keepQueue ((resetNRise_low hp hr).trans (if_pos hm)),
      fun hm => next_keepQueue ((resetNRise_low hp hr).trans (if_neg (Bool.eq_false_iff.mp hm)))⟩, ?_,
    fun cause hp hr h1 hc => next_keepQueue (warmResetBy_running hp hr h1 hc), fun hp h7 => next_keepQueue (perstBeforeReady_drops hp h7),
    fun hs => next_keepQueue (if_neg (Bool.eq_false_iff.mp hs)), fun hs => next_keepQueue (if_pos hs)⟩
  obtain ⟨tx, h⟩ := pwrOkFall_cold s
  refine ⟨keepQueue s (pwrOkFall s), rfl, ?_⟩
  rw [h]
  exact ⟨rfl, rfl, rfl, rfl, rfl, rfl, rfl, rfl, rfl, rfl⟩

end Sys2Proof.Machine
end

section
/-!
PROOFS. Power domains, rails and sensors (R320 to R332), health and self-tests (R344 to R351), and verifications (R357, R364, R371).
-/

namespace Sys2Proof.Machine

/-! ## Power -/

section
variable {s t : State}

theorem Reports.power (h : Reports s t) : t.power = s.power := by
  obtain ⟨_, _, _, _, _, _, _, _, rfl⟩ := h
  rfl

theorem Reports.grid (h : Reports s t) : t.grid = s.grid := by
  obtain ⟨_, _, _, _, _, _, _, _, rfl⟩ := h
  rfl

theorem closeDomain_next {d : Nat} {rest : List Nat} (h : s.power.closing = d :: rest) :
    closeDomain s =
      let v := { s with power := { s.power with closing := rest, on := s.power.on ||| BitVec.ofNat 50 (2 ^ d) } }
      if d < 32 then v else domainsSettled (domainReady v d) := by
  simp only [closeDomain, h]

theorem groupReady_closed {d : Nat} (hd : d < 32) (ho : s.power.on.getLsbD d = true) (hr : s.power.ready.getLsbD d = false) :
    groupReady s d = domainsSettled (domainReady s d) := by
  simp only [groupReady, hd, ho, hr, decide_true, Bool.not_false, Bool.and_self, if_true]

/-- The hold rotates over the groups while the device is above its cap, and stands on every engine once the cap is unmet (R327). -/
theorem holdRotation_holds (s : State) (above unmet : Bool) :
    (holdRotation s above unmet).grid =
      { s.grid with rotating := above, heldGroup := if above then (s.grid.heldGroup + 1) % 32 else s.grid.heldGroup } ∧
    (holdRotation s above unmet).power.holdAll = (s.power.holdAll || (above && unmet)) := by
  let v : State := { s with
    grid := { s.grid with rotating := above, heldGroup := if above then (s.grid.heldGroup + 1) % 32 else s.grid.heldGroup } }
  let held : State := { v with power := { v.power with holdAll := true } }
  have hrep : Reports held (event (setEvent held rPwEvent 2) { sev := sevNotice, src := srcPower } 64) :=
    (reports_setEvent ..).trans (reports_event ..)
  by_cases h : (above && unmet && !s.power.holdAll) = true
  · have hall : (s.power.holdAll || (above && unmet)) = true := by
      rw [Bool.and_eq_true] at h
      rw [h.1, Bool.or_true]
    simp only [holdRotation, h, if_true]
    exact ⟨hrep.grid, (congrArg (·.holdAll) hrep.power).trans hall.symm⟩
  · have hall : (s.power.holdAll || (above && unmet)) = s.power.holdAll := by
      revert h
      cases s.power.holdAll <;> cases (above && unmet) <;> simp
    simp only [holdRotation, h, Bool.false_eq_true, if_false]
    exact ⟨rfl, hall.symm⟩

theorem railRead_acknowledged (rs : List RailReading) (k : Nat) (h : (rs.any fun r => r.present && !r.ack) = false) :
    (railRead s rs k).power.kFrozen = false ∧ (railRead s rs k).power.k = min 1250 (max 800 k) ∧
      (railRead s rs k).power.measured =
        min 65535 (((rs.filter fun r => r.present && r.ack).map fun r => r.millivolts * r.milliamps).sum / 1000000) := by
  simp only [railRead, h, Bool.false_eq_true, if_false, and_self]

theorem allocLapse_passed {a : Alloc} (ha : s.power.alloc = some a) (hb : hasBeat s = true) (hl : a.last ≤ now s) :
    allocLapse s = setEvent { s with power := { s.power with alloc := none } } rPwEvent 1 := by
  simp only [allocLapse, ha, hb, hl, decide_true, Bool.and_self, if_true]

theorem thermtrip_temps (s : State) : (thermtrip s).power.temps = s.power.temps := by
  unfold thermtrip
  split
  · rfl
  · dsimp only
    rw [(reports_event ..).power]
    exact congrArg (·.temps) (reports_setEvent ..).power

theorem sensorRead_temps (s : State) (temps : List Int) : (sensorRead s temps).power.temps = temps := by
  have h := thermtrip_temps { s with power := { s.power with temps := temps } }
  unfold sensorRead
  dsimp only
  split <;> exact h

end

/-- Settles O21. -/
theorem powerEvents : Obligations.PowerEvents := by
  intro s hp
  refine ⟨fun d rest h => next_quiet (closeDomain_next h), fun d hd ho hr => next_quiet (groupReady_closed hd ho hr), fun above unmet => ?_,
    fun rs k h => ⟨_, rfl, ?_⟩, fun a ha hb hl => next_quiet (allocLapse_passed ha hb hl), fun temps => ⟨_, rfl, ?_⟩⟩
  · obtain ⟨hgrid, hhold⟩ := holdRotation_holds s above unmet
    refine ⟨_, rfl, ?_⟩
    rw [quiet_grid hp, quiet_power hp, hgrid]
    exact ⟨rfl, rfl, hhold⟩
  · rw [quiet_power hp]
    exact railRead_acknowledged rs k h
  · rw [quiet_power hp]
    exact sensorRead_temps s temps

/-! ## Health -/

section
variable {s : State}

theorem decayScore_due (hb : hasBeat s = true) (hn : now s % 2 ^ 24 = 0) (hd : s.reliab.decayAt ≠ now s) :
    decayScore s = { s with reliab := { s.reliab with score := s.reliab.score * 7 / 8, decayAt := now s } } := by
  simp only [decayScore, hb, hn, bne_iff_ne.mpr hd, beq_self_eq_true, Bool.and_self, if_true]

theorem resendSoft_due (hh : s.reliab.health = .softPending) (ha : 4096 ≤ s.reliab.softAge)
    (hc : cfld s rRlCfg 31 16 ≤ s.reliab.score) :
    resendSoft s = event (setEvent { s with reliab := { s.reliab with softAge := 0 } } rRlEvent 1)
      { sev := sevNotice, src := srcReliab, flags := 12 } := by
  simp only [resendSoft, hh, ha, hc, beq_self_eq_true, decide_true, Bool.and_self, if_true]

theorem closeWindow_quiet {src : Nat} (h : tget s.reliab.windows src = some 0) :
    closeWindow s src = { s with reliab := { s.reliab with windows := terase s.reliab.windows src } } := by
  simp only [closeWindow, h]

theorem closeWindow_counted {src n : Nat} (h : tget s.reliab.windows src = some (n + 1)) :
    closeWindow s src =
      let v := writeRecord s { sev := sevCorrected, src := src, flags := 2, count := n + 1 }
      { v with reliab := { v.reliab with windows := tset v.reliab.windows src 0 } } := by
  simp only [closeWindow, h]

theorem stressEnds_running {failing : List CellId} {cool : Bool} {cmd : Nat} (h : s.reliab.test = .stress cmd) :
    stressEnds s failing cool =
      let v := stressFindings { s with reliab := { s.reliab with test := .none } } (failing.map fun c => c.val) cool
      let n := rfld v rRlStress 10 0
      finishCmd v cmd (if n = 0 then stOk else stCheckMismatch) n := by
  simp only [stressEnds, h]

theorem katPassEnds_running {failing transient : List CellId} {cmd : Nat} (h : s.reliab.test = .kat cmd) :
    katPassEnds s failing transient =
      let v := { s with reliab := { s.reliab with test := .none } }
      let bad := (readyCells v).filter fun c => failing.any fun f => f.val == c
      let w := (readyCells v).foldl (fun s c =>
        katOutcome s c (if bad.contains c then .permanent else if transient.any (fun f => f.val == c) then .transient else .pass)) v
      finishCmd w cmd (if bad = [] then stOk else stCheckMismatch) bad.length := by
  simp only [katPassEnds, h, List.isEmpty_iff]

end

/-- Settles O23. -/
theorem healthEvents : Obligations.HealthEvents :=
  fun _ _ => ⟨fun hb hn hd => next_quiet (decayScore_due hb hn hd), fun hh ha hc => next_quiet (resendSoft_due hh ha hc),
    fun _ => ⟨fun h => next_quiet (closeWindow_quiet h), fun _ h => next_quiet (closeWindow_counted h)⟩,
    fun _ _ _ h => next_quiet (congrArg settle (stressEnds_running h)), fun _ _ _ h => next_quiet (congrArg settle (katPassEnds_running h))⟩

/-! ## Verifications -/

section
variable {s : State}

section
variable {n : Nat} {v : Verify} {found : Findings} {s0 s1 v1 : State} (hv : s.sec.verifs.find? (fun v => v.id == n) = some v)
  (h0 : s0 = { s with sec := { s.sec with verifs := s.sec.verifs.filter fun x => x.id != n } })
  (h1 : s1 = memoryFindings (chargeRange (touchRange s0 v.base v.length) v.fn v.base v.length false) v.base v.length found)
  (hok : verifyImage s1 (rangePoisoned s1 v.base v.length) v.length (verifyType v.what) (rangeRead s0 v.base v.length) = (v1, stOk))
  (hj : jobStarted v1 = false)
include hv h0 h1 hok hj

theorem imageVerified_model {m : ModelImage} (hw : v.what = .model) (hm : modelStatus v1 v.fn m = stOk) :
    imageVerified s n (.model m) found = acceptModel v1 v.cmd v.fn m (imgDigest (rangeRead s0 v.base v.length)) := by
  subst h0 h1
  unfold imageVerified
  rw [hv]
  dsimp only at hok ⊢
  rw [hok]
  simp only [hw, hj, hm, bne_self_eq_false, Bool.false_eq_true, if_false]

theorem imageVerified_schedule {im : ScheduleImage} (hw : v.what = .schedule) (hm : scheduleStatus v1 im = stOk) :
    imageVerified s n (.schedule im) found = acceptSchedule v1 v.cmd im (imgDigest (rangeRead s0 v.base v.length)) := by
  subst h0 h1
  unfold imageVerified
  rw [hv]
  dsimp only at hok ⊢
  rw [hok]
  simp only [hw, hj, hm, bne_self_eq_false, Bool.false_eq_true, if_false]

end

/-- A grant for this device that answers its challenge opens the level (R371). -/
theorem grantDone_opens {len : Nat} {v s0 : State} {bs : List Byte} (hg : s.sec.grant = some len) (hl : 0 < len) (hl' : len ≤ 8192)
    (h0 : s0 = { s with sec := { s.sec with grant := none } }) (hbs : bs = grantBytes s0 len)
    (hok : verifyImage s0 false len 6 bs = (v, stOk)) (hd : imgDevice bs ≠ 0) (hlev : 0 < imgNat (imgPayload bs) 32 1)
    (hlev' : imgNat (imgPayload bs) 32 1 ≤ 3) (hp : imgPayloadLen bs = 64) (hz : imgNat (imgPayload bs) 33 31 = 0)
    (hc : imgNat (imgPayload bs) 0 32 = v.sec.challenge.toNat)
    (hw : bit (imgNat (imgPayload bs) 32 1) 1 = 1 → protectedWork v = false) (hr : v.sec.rngOk = true) :
    grantDone s =
      rput (event (setEvent (drawChallenge (extendMeas (setDebug v (imgNat (imgPayload bs) 32 1)) 7 6 (imgDigest bs))) rScEvent 4)
        { sev := sevNotice, src := srcSecurity }) rScGrantStatus 15 0 stOk.toNat := by
  have hwork : (decide (bit (imgNat (imgPayload bs) 32 1) 1 = 1) && protectedWork v) = false := by
    by_cases h : bit (imgNat (imgPayload bs) 32 1) 1 = 1
    · rw [hw h, Bool.and_false]
    · rw [decide_eq_false h, Bool.false_and]
  subst hbs h0
  dsimp only at hok
  simp only [grantDone, hg, if_neg (Nat.pos_iff_ne_zero.mp hl), if_neg (Nat.not_lt.mpr hl'), hok, bne_self_eq_false, Bool.false_eq_true, if_false,
    if_neg hd, hp, hz, decide_eq_false (Nat.pos_iff_ne_zero.mp hlev), decide_eq_false (Nat.not_lt.mpr hlev'), Bool.or_self, hc, hwork, hr,
    Bool.not_true]

theorem rngFails_well (h : s.sec.rngOk = true) :
    rngFails s = event (setEvent { s with sec := { s.sec with rngOk := false } } rScEvent 5) { sev := sevError, src := srcSecurity } := by
  simp only [rngFails, h, Bool.not_true, Bool.false_eq_true, if_false]

end

/-- Settles O24. -/
theorem verifications : Obligations.Verifications := by
  intro s hp
  refine ⟨fun n found v v1 hv => ?_, fun len v hg hl hl' => ?_, fun h => next_quiet (rngFails_well h)⟩
  · exact fun hok hj => ⟨fun m hw hm => next_quiet (congrArg settle (imageVerified_model hv rfl rfl hok hj hw hm)),
      fun im hw hm => next_quiet (congrArg settle (imageVerified_schedule hv rfl rfl hok hj hw hm))⟩
  · exact fun hok hd hlev hlev' hpl hz hc hw hr => next_quiet (grantDone_opens hg hl hl' rfl rfl hok hd hlev hlev' hpl hz hc hw hr)

end Sys2Proof.Machine
end

section
/-!
PROOFS. The fabric's links and ports (R251, R258 to R261, R266) and its packets and credits (R252 to R255, R264, R265, R273).
-/

namespace Sys2Proof.Machine

/-! ## Codewords and replays -/

section
variable {s : State} {p : Nat} {w : CodewordIn}

theorem getD_zero_of_forall {l : List Nat} (h : ∀ n ∈ l, n = 0) (i : Nat) : l.getD i 0 = 0 := by
  rw [List.getD_eq_getElem?_getD]
  cases hi : l[i]? with
  | none => rfl
  | some n => exact h n (List.mem_of_getElem? hi)

section
variable (hup : (portGet s p).state = .up) (hc : ∀ n ∈ w.corrected, n = 0)
include hup hc

/-- A codeword without corrections: what it does to the port's counters is what its decoding says. -/
theorem receiveCodeword_clean :
    receiveCodeword s p w =
      let x := portGet s p
      if !w.decoded then
        satAdd (portPut s p (match w.badLane with
          | some l => { x with badBeat := listAdd x.badBeat l.val 1 }
          | none => x)) (rEgPortLink p) 31 16 1
      else if w.seq.toNat != (x.rxSeq + 1) % 1024 then portPut s p x
      else
        let adv := (w.ack.toNat + 1024 - x.ackSeq) % 1024
        let x := { x with rxSeq := w.seq.toNat }
        if adv = 0 || 256 < adv then portPut s p x
        else
          let x := idleUpTo x w.ack.toNat
          pump (portPut s p { x with
            ackSeq := w.ack.toNat, sent := x.sent.filter fun e => adv < (e.1 + 1024 - x.ackSeq) % 1024, replays := 0 }) := by
  have hz := getD_zero_of_forall hc
  have hid : ((portGet s p).corrBeat.mapIdx fun i v => v + w.corrected.getD i 0) = (portGet s p).corrBeat := by
    simp only [hz, Nat.add_zero]
    apply List.ext_getElem <;> simp
  have hcounts : (List.range 4).foldl (fun s l =>
      let n := w.corrected.getD l 0
      if n = 0 then s else satAdd s (rEgLaneCorr p l) 31 0 n) s = s := by
    simp only [hz, if_true]
    rfl
  have hstate : ¬ ((portGet s p).state != .up) = true := by
    rw [hup]
    decide
  unfold receiveCodeword
  dsimp only
  rw [if_neg hstate, hcounts, hid] <;> rfl

/-- A codeword in order that acknowledges nothing new moves the receive sequence on. -/
theorem receiveCodeword_inOrder (hd : w.decoded = true) (hs : w.seq.toNat = ((portGet s p).rxSeq + 1) % 1024)
    (ha : (w.ack.toNat + 1024 - (portGet s p).ackSeq) % 1024 = 0) :
    receiveCodeword s p w = portPut s p { portGet s p with rxSeq := w.seq.toNat } := by
  rw [receiveCodeword_clean hup hc]
  simp only [hd, ← hs, ha, Bool.not_true, bne_self_eq_false, Bool.false_eq_true, if_false, decide_true, Bool.true_or, if_true]

/-- What it acknowledges leaves what was sent (R251). -/
theorem receiveCodeword_acknowledges (hd : w.decoded = true) (hs : w.seq.toNat = ((portGet s p).rxSeq + 1) % 1024)
    (h0 : 0 < (w.ack.toNat + 1024 - (portGet s p).ackSeq) % 1024) (hl : (w.ack.toNat + 1024 - (portGet s p).ackSeq) % 1024 ≤ 256)
    (hu : (w.ack.toNat + 1024 - (portGet s p).ackSeq) % 1024 ≤ unacked (portGet s p)) :
    receiveCodeword s p w = pump (portPut s p { portGet s p with
      rxSeq := w.seq.toNat, ackSeq := w.ack.toNat, replays := 0
      sent := (portGet s p).sent.filter fun e =>
        (w.ack.toNat + 1024 - (portGet s p).ackSeq) % 1024 < (e.1 + 1024 - (portGet s p).ackSeq) % 1024 }) := by
  have hidle : idleUpTo { portGet s p with rxSeq := w.seq.toNat } w.ack.toNat = { portGet s p with rxSeq := w.seq.toNat } :=
    if_pos (Nat.sub_eq_zero_of_le hu)
  rw [receiveCodeword_clean hup hc]
  simp only [hd, ← hs, Bool.not_true, bne_self_eq_false, Bool.false_eq_true, if_false, decide_eq_false (Nat.pos_iff_ne_zero.mp h0),
    decide_eq_false (Nat.not_lt.mpr hl), Bool.or_self, hidle]

theorem receiveCodeword_outOfOrder (hd : w.decoded = true) (hs : w.seq.toNat ≠ ((portGet s p).rxSeq + 1) % 1024) :
    receiveCodeword s p w = portPut s p (portGet s p) := by
  rw [receiveCodeword_clean hup hc]
  simp only [hd, Bool.not_true, Bool.false_eq_true, if_false, bne_iff_ne.mpr hs, if_true]

theorem receiveCodeword_undecoded (hd : w.decoded = false) :
    receiveCodeword s p w = satAdd (portPut s p (match w.badLane with
      | some l => { portGet s p with badBeat := listAdd (portGet s p).badBeat l.val 1 }
      | none => portGet s p)) (rEgPortLink p) 31 16 1 := by
  rw [receiveCodeword_clean hup hc]
  simp only [hd, Bool.not_false, if_true] <;> rfl

end

/-- A replay sends again what is not acknowledged; the eighth in a row takes the port DOWN (R251). -/
theorem linkReplay_again (hup : (portGet s p).state = .up) (hu : unacked (portGet s p) ≠ 0) :
    linkReplay s p =
      let x := portGet s p
      let t := satAdd (emit (portPut s p { x with replays := x.replays + 1 })
        (.replay p (x.replay.drop (x.replay.length - unacked x)))) (rEgPortLink p) 15 0 1
      if 8 ≤ x.replays + 1 then portGoesDown t p .replays else t := by
  have hstate : ¬ ((portGet s p).state != .up) = true := by
    rw [hup]
    decide
  unfold linkReplay
  dsimp only
  rw [if_neg hstate, if_neg hu]

/-! ## Lanes and the port's states -/

/-- A lane that has lost its lock is dropped, and the ends settle on a width (R258, R259). -/
theorem dropLane_lostLock {l : Nat} {peer : BitVec 4} (hup : (portGet s p).state = .up)
    (hl : (portGet s p).locked &&& BitVec.ofNat 4 (2 ^ l) ≠ 0) :
    dropLane s p l .lostLock peer =
      let x := portGet s p
      let m := BitVec.ofNat 4 (2 ^ l)
      settleWidth (event (setEvent (portPut s p { x with dropped := x.dropped ||| m, locked := x.locked &&& ~~~m }) rEgEvent 0)
        { sev := sevNotice, src := srcEmgait, loc := 0x300 + p } 16) p peer := by
  have hstate : ¬ ((portGet s p).state != .up) = true := by
    rw [hup]
    decide
  have hdue : ¬ ((portGet s p).locked &&& BitVec.ofNat 4 (2 ^ l) == 0 || !laneDue s p l .lostLock) = true := by
    rw [beq_false_of_ne hl]
    exact Bool.false_ne_true
  unfold dropLane
  dsimp only
  rw [if_neg hstate, if_neg hdue]

section
variable {peer : BitVec 4}

theorem settleWidth_none (h : min (portGet s p).width (min (widthOf (portGet s p).locked) (widthOf peer)) = 0) :
    settleWidth s p peer = portGoesDown s p .lanes := if_pos h

theorem settleWidth_narrows (h0 : 0 < min (portGet s p).width (min (widthOf (portGet s p).locked) (widthOf peer)))
    (h : min (portGet s p).width (min (widthOf (portGet s p).locked) (widthOf peer)) < (portGet s p).width) :
    settleWidth s p peer =
      let w := min (portGet s p).width (min (widthOf (portGet s p).locked) (widthOf peer))
      linkEvent (setEvent (satAdd (portPut s p { portGet s p with width := w }) (rEgPortFlaps p) 15 0 1) rEgEvent 0) p
        (portCode .up) (portCode .up) 6 := (if_neg (Nat.pos_iff_ne_zero.mp h0)).trans (if_pos h)

end

theorem portComesUp_trained {t : TrainEnd} (ht : (portGet s p).state = .training)
    (hw : min (widthOf t.lanes) (widthOf t.peerLanes) ≠ 0) :
    portComesUp s p t =
      pump (linkEvent (setEvent (portPut s p { portGet s p with
        state := .up, width := min (widthOf t.lanes) (widthOf t.peerLanes), locked := t.lanes, dropped := 0, peerNode := t.peerNode
        peerPort := t.peerPort.val, peerIdentity := t.peerIdentity, credits := fullCredits, owed := [0, 0, 0, 0], reserved := []
        timer := false, txSeq := 0, stream := [], rxSeq := 1023, ackSeq := 1023, replay := [], replays := 0, sent := []
        corrBeat := [0, 0, 0, 0], badBeat := [0, 0, 0, 0] }) rEgEvent 1) p (portCode .training) (portCode .up) 0) := by
  have hstate : ¬ ((portGet s p).state != .training || decide (min (widthOf t.lanes) (widthOf t.peerLanes) = 0)) = true := by
    rw [ht, decide_eq_false hw]
    decide
  unfold portComesUp
  dsimp only
  rw [if_neg hstate]

section
variable (hup : (portGet s p).state ≠ .up)
include hup

theorem portGoesDown_notUp {c : DownCause} (hc : c ≠ .powerOff) : portGoesDown s p c = s := by
  simp only [portGoesDown, beq_false_of_ne hc, Bool.false_eq_true, if_false, portUp, beq_false_of_ne hup, Bool.not_false, if_true]

theorem portGoesDown_powerOff : portGoesDown s p .powerOff = portPut s p { portGet s p with state := .disabled, width := 0 } := by
  simp only [portGoesDown, beq_self_eq_true, if_true, disablePort, leaveUp, bne_iff_ne.mpr hup]

end

theorem holdExpires_held (hh : (portGet s p).state = .held) (he : (portGet s p).holdEnd ≤ s.beat.periods) :
    holdExpires s p = trainPort s p := by
  simp only [holdExpires, hh, he, beq_self_eq_true, decide_true, Bool.and_self, if_true]

theorem portGet_trainPort (s : State) (p : Nat) : (portGet (trainPort s p) p).state = .training := by
  rw [trainPort, portGet_portPut_same]

end

/-- Settles O43. -/
theorem linksAndPorts : Obligations.LinksAndPorts := by
  intro s p hp
  refine ⟨?_, ?_, fun l peer hup hl => ?_, fun tr ht hw => ?_, fun hup => ⟨fun c => rfl, rfl⟩, fun hup => ⟨fun c hc => ?_, ?_, ?_⟩,
    fun hh he => ?_, fun vc h => next_quiet (congrArg settle (if_pos h))⟩
  · intro w hup hc
    refine ⟨fun hd hs ha hl => ?_, fun hd hs h0 hl hu => ?_, fun hd hs => ?_, fun hd hb => ?_, fun l hd hb => ?_⟩
    · have hadv : (w.ack.toNat + 1024 - (portGet s p.val).ackSeq) % 1024 = 0 := by omega
      exact next_quiet (congrArg settle (receiveCodeword_inOrder hup hc hd hs hadv))
    · exact next_quiet (congrArg settle (receiveCodeword_acknowledges hup hc hd hs h0 hl hu))
    · exact next_quiet (congrArg settle (receiveCodeword_outOfOrder hup hc hd hs))
    · exact next_quiet (congrArg settle ((receiveCodeword_undecoded hup hc hd).trans (by rw [hb])))
    · exact next_quiet (congrArg settle ((receiveCodeword_undecoded hup hc hd).trans (by rw [hb])))
  · intro hup hu
    have again := linkReplay_again hup hu
    exact ⟨fun h => next_quiet (congrArg settle (again.trans (if_neg (by omega)))),
      fun h => next_quiet (congrArg settle (again.trans (if_pos (by omega))))⟩
  · have hdrop := dropLane_lostLock (peer := peer) hup hl
    exact ⟨fun h => next_quiet (congrArg settle (hdrop.trans (settleWidth_none h))),
      fun h0 h => next_quiet (congrArg settle (hdrop.trans (settleWidth_narrows h0 h)))⟩
  · exact next_quiet (congrArg settle (portComesUp_trained ht hw))
  · exact next_quiet (congrArg settle (portGoesDown_notUp hup hc))
  · exact next_quiet (congrArg settle (portGoesDown_powerOff hup))
  · exact next_quiet (congrArg settle (portGoesDown_notUp hup (by decide)))
  · refine ⟨_, rfl, ?_⟩
    rw [quiet_powered hp, holdExpires_held hh he]
    exact portGet_trainPort s p.val

/-! ## Packets -/

section
variable {s : State} {p : Packet}

theorem isDirected_of_type (h : p.type ≠ 0x12) : isDirected p = false := by
  simp only [isDirected, beq_false_of_ne h, Bool.false_and]

theorem forwardPacket_badHop {arr : Option PortId} (h : pktHopOk p = false) : forwardPacket s arr p = discardHchk (takenIn s arr p) := by
  simp only [forwardPacket, h, Bool.not_false, if_true]

/-- The first tests of a packet on its way to a node, each passed. -/
structure Routed (p : Packet) : Prop where
  hop : pktHopOk p = true
  not_marker : p.type ≠ 0x10
  not_credit : p.type ≠ 0x11
  not_directed : isDirected p = false

section
variable {arr : Option PortId} (h : Routed p) (hn : s.fabric.node.isSome = true) (hd : pktNode p = nodeNum s)
include h hn hd

theorem forwardPacket_delivered (hw : p.type ≠ 0x12) (hc : deliverCheck s p = none) :
    forwardPacket s arr p = emit (takenIn s arr p) (.localPacket p) := by
  simp only [forwardPacket, h.hop, beq_false_of_ne h.not_marker, beq_false_of_ne h.not_credit, h.not_directed, hn, hd, hc,
    beq_false_of_ne hw, beq_self_eq_true, Bool.not_true, Bool.or_self, Bool.and_self, Bool.false_eq_true, if_false, if_true]
  cases arr <;> rfl

theorem forwardPacket_refused {st : Half} (hc : deliverCheck s p = some st) :
    forwardPacket s arr p = refuseDelivery (takenIn s arr p) p st := by
  simp only [forwardPacket, h.hop, beq_false_of_ne h.not_marker, beq_false_of_ne h.not_credit, h.not_directed, hn, hd, hc,
    beq_self_eq_true, Bool.not_true, Bool.or_self, Bool.and_self, Bool.false_eq_true, if_false, if_true]

end

section
variable {a : PortId} (h : Routed p) (hd : pktNode p ≠ nodeNum s) (hl : packetLate s p = false)
include h hd hl

/-- A packet in transit: no hop left, no way on, or the queue of its output (R264, R265). -/
theorem forwardPacket_transit :
    forwardPacket s (some a) p =
      if p.hops == 0 then sendReturn (discardExpired (takenIn s (some a) p)) p stNoRoute
      else match placePacket s { input := a.val, vc := p.vc.toNat, pkt := p, early := spanEarly s p } with
        | .inl st => sendReturn (takenIn s (some a) p) p st
        | .inr s => s := by
  simp only [forwardPacket, h.hop, beq_false_of_ne h.not_marker, beq_false_of_ne h.not_credit, h.not_directed, beq_false_of_ne hd, hl,
    Bool.not_true, Bool.or_self, Bool.and_false, Bool.false_eq_true, if_false] <;> rfl

theorem forwardPacket_noHops (hh : p.hops = 0) :
    forwardPacket s (some a) p = sendReturn (discardExpired (takenIn s (some a) p)) p stNoRoute := by
  rw [forwardPacket_transit h hd hl, hh]
  rfl

theorem forwardPacket_queued {k : Nat} (hn : s.fabric.node.isSome = true) (hh : p.hops ≠ 0)
    (hk : (routePorts s a.val (pktNode p)).find? (portUp s) = some k) :
    forwardPacket s (some a) p =
      enqueue s { input := a.val, vc := p.vc.toNat, pkt := p, early := spanEarly s p, out := if p.ordered then some k else none } := by
  have hroute : (routePorts s a.val (pktNode p)).isEmpty = false := by
    cases hr : routePorts s a.val (pktNode p) with
    | nil => simp [hr] at hk
    | cons => rfl
  have hnone : s.fabric.node.isNone = false := by
    rw [← Option.not_isSome, hn]
    rfl
  have hplace : placePacket s { input := a.val, vc := p.vc.toNat, pkt := p, early := spanEarly s p } = .inr (enqueue s
      { input := a.val, vc := p.vc.toNat, pkt := p, early := spanEarly s p, out := if p.ordered then some k else none }) := by
    simp only [placePacket, hnone, hroute, Bool.or_self, Bool.false_eq_true, if_false, hk]
  rw [forwardPacket_transit h hd hl, beq_false_of_ne hh, hplace]
  rfl

end

theorem expirePacket_first {port vc : Nat} {q : QPkt}
    (h : s.fabric.waiting.find? (fun q => q.vc == vc && packetLate s q.pkt && standsAt s port q) = some q) :
    expirePacket s port vc = pump (sendReturn (discardExpired (dropWaiting s q)) q.pkt stDeadlineMissed) := by
  simp only [expirePacket, h]

end

/-! ## Credits and guards -/

section
variable {s : State} {p : Nat}

theorem receiveCredit_up {n0 n1 n2 n3 : Nat} (hup : (portGet s p).state = .up) :
    receiveCredit s p [n0, n1, n2, n3] =
      let x := fillReserved (portGet s p) n0 (reservations s p)
      pump (portPut s p { x with credits := listAdd (listAdd (listAdd x.credits 1 n1) 2 n2) 3 n3 }) := by
  have hstate : ¬ ((portGet s p).state != .up) = true := by
    rw [hup]
    decide
  unfold receiveCredit
  dsimp only
  rw [if_neg hstate]
  rfl

theorem openGuard_opens {j0 r : Nat} {im : ScheduleImage × BitVec 384} (hj : jobOrigin s = some j0) (hi : s.sched.image = some im)
    (hb : hasBeat s = true) (hn : j0 ≤ now s + 1) (hf : im.1.frame ≠ 0) (hs : spanAt s p ((now s + 1 - j0) % im.1.frame) = some r)
    (hg : (portGet s p).span ≠ some r) : openGuard s p = portPut s p { portGet s p with guard := some r } := by
  have hsome : ((portGet s p).span == some r) = false := beq_false_of_ne hg
  simp only [openGuard, hj, hi, hb, hn, bne_iff_ne.mpr hf, decide_true, Bool.and_self, if_true, hs, hsome, Bool.false_eq_true, if_false]

end

/-- Settles O44. -/
theorem packetsAndCredits : Obligations.PacketsAndCredits := by
  intro s hp
  refine ⟨fun arr p h => next_quiet (congrArg settle (forwardPacket_badHop h)), fun arr p hhop h10 h11 h12 hn hd => ?_,
    fun a p hhop h10 h11 hdir hn hd hl => ?_, fun port vc q h => next_quiet (congrArg settle (expirePacket_first h)),
    fun p n0 n1 n2 n3 hup => next_quiet (congrArg settle (receiveCredit_up hup)), fun p ht => next_quiet (if_pos ht),
    fun p j0 im r hj hi hb hn hf hs hg => next_quiet (openGuard_opens hj hi hb hn hf hs hg)⟩
  · have routed : Routed p := ⟨hhop, h10, h11, isDirected_of_type h12⟩
    refine ⟨fun hcrc hlate hresv => ?_, fun hcrc => ?_, fun hcrc hlate => ?_, fun hcrc hlate hresv => ?_⟩
    · have hc : deliverCheck s p = none := by simp [deliverCheck, hcrc, hlate, hresv]
      exact next_quiet (congrArg settle (forwardPacket_delivered routed hn hd h12 hc))
    · have hc : deliverCheck s p = some stCheckMismatch := by simp [deliverCheck, hcrc]
      exact next_quiet (congrArg settle (forwardPacket_refused routed hn hd hc))
    · have hc : deliverCheck s p = some stDeadlineMissed := by simp [deliverCheck, hcrc, hlate]
      exact next_quiet (congrArg settle (forwardPacket_refused routed hn hd hc))
    · have hc : deliverCheck s p = some stBadField := by simp [deliverCheck, hcrc, hlate, hresv]
      exact next_quiet (congrArg settle (forwardPacket_refused routed hn hd hc))
  · have routed : Routed p := ⟨hhop, h10, h11, hdir⟩
    exact ⟨fun hh => next_quiet (congrArg settle (forwardPacket_noHops routed hd hl hh)),
      fun k hh hk => next_quiet (congrArg settle (forwardPacket_queued routed hd hl hn hh hk))⟩

end Sys2Proof.Machine
end

section
/-!
PROOFS. Waggles: passed on, executed and answered (R262, R267 to R270, R293, R330, R407).
-/

namespace Sys2Proof.Machine

/-! ## The way of a waggle -/

section
variable {s : State} {w : WaggleHdr} {kind : Byte} {bad : Bool} {f : State → State × Half × List Nat}

theorem onWaggle_transit (h : waggleTransit w = true) : onWaggle s w kind bad f = forwardWaggle s w kind := if_pos h

section
variable (h : waggleTransit w = false) {t : State} (ht : t = oweCredit s w.port.val 2 (pktCredits (wagglePacket w kind)))
include h ht

theorem onWaggle_refused {st : Half} (hc : waggleCheck t w (kind == 1) (kind == 2) bad = some st) :
    onWaggle s w kind bad f = waggleReply t w st [] := by
  subst ht
  simp only [onWaggle, h, Bool.false_eq_true, if_false, hc]

theorem onWaggle_executed (hb : bad = false) (hc : waggleCheck t w (kind == 1) (kind == 2) false = none) {v : State} {st : Half}
    {body : List Nat} (hf : f t = (v, st, body)) : onWaggle s w kind bad f = waggleReply v w st body := by
  subst ht hb
  simp only [onWaggle, h, Bool.false_eq_true, if_false, hc, hf]

end

end

/-! ## The effect of each kind -/

/-- A number of `n` bytes reads back as what it was, up to its width. -/
theorem leNat_leBytes (n v : Nat) : leNat (leBytes n v) = v % 2 ^ (8 * n) := by
  induction n generalizing v with
  | zero => rw [Nat.mul_zero, Nat.pow_zero, Nat.mod_one, leBytes, leNat]
  | succ n ih =>
    have hpow : 2 ^ (8 * (n + 1)) = 256 * 2 ^ (8 * n) := by rw [Nat.mul_succ, Nat.pow_add, Nat.mul_comm]
    rw [hpow, Nat.mod_mul, leBytes, leNat, ih, BitVec.toNat_ofNat]

section
variable {s : State} {w : WaggleHdr}

section
variable {node epoch : Nat}

theorem assignNode_new (hf : s.fabric.node = none ∨ jobStarted s = false) (hn : s.fabric.node ≠ some (BitVec.ofNat 14 node)) :
    assignNode w node epoch s = (setEvent { s with fabric := { s.fabric with
      node := some (BitVec.ofNat 14 node), epoch := epoch, mgr := w.mgr, active := [], shadow := [] } } rEgEvent 5, stOk, []) := by
  have hfree : (s.fabric.node.isSome && jobStarted s) = false := by
    rcases hf with hf | hf <;> simp [hf]
  simp only [assignNode, bne_iff_ne.mpr hn, Bool.true_and, hfree, Bool.false_eq_true, if_false, if_true]

theorem assignNode_same (hn : s.fabric.node = some (BitVec.ofNat 14 node)) :
    assignNode w node epoch s =
      (setEvent { s with fabric := { s.fabric with epoch := epoch, mgr := w.mgr } } rEgEvent 5, stOk, []) := by
  simp only [assignNode, ← hn, bne_self_eq_false, Bool.false_and, Bool.false_eq_true, if_false]

theorem assignNode_busy (h : s.fabric.node ≠ none) (hn : s.fabric.node ≠ some (BitVec.ofNat 14 node)) (hj : jobStarted s = true) :
    assignNode w node epoch s = (s, stBusyReferenced, []) := by
  simp only [assignNode, bne_iff_ne.mpr hn, Option.isSome_iff_ne_none.mpr h, hj, Bool.and_self, if_true]

end

section
variable (table : Byte) (first count : Half) (entries : List Half) (rest : RouteRest)

theorem routeTable_routeBody : routeTable (routeBody table first count entries rest) = table.toNat :=
  Nat.add_zero _

theorem routeFirst_routeBody : routeFirst (routeBody table first count entries rest) = first.toNat := by
  have h : ((routeBody table first count entries rest).drop 2).take 2 = leBytes 2 first.toNat := rfl
  rw [routeFirst, h, leNat_leBytes, Nat.mod_eq_of_lt first.isLt]

end

theorem routeCommitAt_ahead {b : Nat} (h : b = 0 ∨ hasBeat s = false ∨ now s < b) :
    routeCommitAt b s = ({ s with fabric := { s.fabric with commitAt := s.fabric.commitAt ++ [b] } }, stOk, []) := by
  have hp : (b != 0 && hasBeat s && decide (b ≤ now s)) = false := by
    rcases h with h | h | h
    · rw [h]; rfl
    · rw [h, Bool.and_false, Bool.false_and]
    · rw [decide_eq_false (Nat.not_le.mpr h), Bool.and_false]
  simp only [routeCommitAt, hp, Bool.false_eq_true, if_false]

theorem routeCommitAt_passed {b : Nat} (h0 : b ≠ 0) (hb : hasBeat s = true) (h : b ≤ now s) : routeCommitAt b s = (s, stBeatPassed, []) := by
  simp only [routeCommitAt, bne_iff_ne.mpr h0, hb, h, decide_true, Bool.and_self, if_true]

theorem teardownJob_started {job : Nat} (hs : jobStarted s = true) (hh : heldStarts s = []) (hj : job = imageJob s) :
    teardownJob job s = ({ s with sched := { s.sched with torn := true } }, stOk, []) := by
  have hstarted : (s.sched.job != .none) = true := by
    rw [bne_iff_ne]
    intro h
    simp [jobStarted, jobOrigin, h] at hs
  simp only [teardownJob, hh, hstarted, hj, bne_self_eq_false, Bool.not_true, Bool.false_and, Bool.or_self, Bool.false_eq_true, if_false,
    List.foldl_nil, if_true]

section
variable (watts : Word) (first : BeatField) (span : BitVec 48)

theorem allocWatts_allocBody : allocWatts (allocBody watts first span) = watts.toNat % 65536 := by
  have h : (allocBody watts first span).take 2 = leBytes 2 watts.toNat := rfl
  rw [allocWatts, h]
  exact leNat_leBytes 2 _

theorem allocFirst_allocBody : allocFirst (allocBody watts first span) = first.toNat := by
  have h : ((allocBody watts first span).drop 4).take 6 = leBytes 6 first.toNat := rfl
  rw [allocFirst, h, leNat_leBytes, Nat.mod_eq_of_lt first.isLt]

theorem allocSpan_allocBody : allocSpan (allocBody watts first span) = span.toNat % 65536 := by
  have h : ((allocBody watts first span).drop 10).take 2 = leBytes 2 span.toNat := rfl
  rw [allocSpan, h]
  exact leNat_leBytes 2 _

end

section
variable {watts first span : Nat} (hm : s.power.mode ≠ 0)
include hm

theorem powerAlloc_recorded (h : now s < first + span) :
    powerAlloc watts first span s = ({ s with power := { s.power with
      allocNext := s.power.allocNext ++ [{ watts := watts, first := first, last := first + span }] } }, stOk, []) := by
  simp only [powerAlloc, if_neg hm, if_neg (Nat.not_le.mpr h)]

theorem powerAlloc_passed (h : first + span ≤ now s) : powerAlloc watts first span s = (s, stBeatPassed, []) := by
  simp only [powerAlloc, if_neg hm, if_pos h]

end

end

/-- Settles O45. -/
theorem waggles : Obligations.Waggles := by
  intro s w hp taken
  refine ⟨fun ht => ⟨fun kind => next_quiet (if_pos ht), fun n e b k hk => ?_, fun table first count entries rest => ?_,
    fun watts first span => ?_⟩, fun ht => ⟨fun kind => next_quiet (if_neg (Bool.eq_false_iff.mp ht)), fun n e b k hk st hst => ?_,
    fun hc => ?_, fun node epoch hn hc => ?_, fun table first count entries rest => ?_, fun beat hc => ?_, fun node hn hc => ?_,
    fun node e hn hc => ?_, fun job hc hj hh hi => ?_, fun watts first span => ?_⟩⟩
  · simp only [List.mem_cons, List.not_mem_nil, or_false] at hk
    rcases hk with rfl | rfl | rfl | rfl <;> exact next_quiet (onWaggle_transit ht)
  · exact next_quiet (onWaggle_transit (w := { w with body := routeBody table first count entries rest }) ht)
  · exact next_quiet (onWaggle_transit (w := { w with body := allocBody watts first span }) ht)
  · simp only [List.mem_cons, List.not_mem_nil, or_false] at hk
    rcases hk with rfl | rfl | rfl | rfl <;> exact next_quiet (onWaggle_refused ht rfl hst)
  · exact next_quiet (onWaggle_executed ht rfl rfl hc rfl)
  · have hbad : decide (16383 < node.toNat) = false := decide_eq_false (Nat.not_lt.mpr hn)
    exact ⟨fun hf hne => next_quiet (onWaggle_executed ht rfl hbad hc (assignNode_new hf hne)),
      fun hs => next_quiet (onWaggle_executed ht rfl hbad hc (assignNode_same hs)),
      fun h hne hj => next_quiet (onWaggle_executed ht rfl hbad hc (assignNode_busy h hne hj))⟩
  · let b := routeBody table first count entries rest
    refine ⟨fun st hst => next_quiet (onWaggle_refused (w := { w with body := b }) (kind := 3) ht rfl hst), fun hbad hc => ?_⟩
    refine next_quiet (onWaggle_executed (w := { w with body := b }) (kind := 3) ht rfl hbad hc ?_)
    rw [writeRoutes, routeTable_routeBody, routeFirst_routeBody]
  · exact ⟨fun h => next_quiet (onWaggle_executed ht rfl rfl hc (routeCommitAt_ahead (h.imp_left fun h => by rw [h]; rfl))),
      fun h0 hb h => next_quiet (onWaggle_executed ht rfl rfl hc (routeCommitAt_passed (by simpa [BitVec.toNat_eq] using h0) hb h))⟩
  · exact next_quiet (congrArg settle (onWaggle_executed ht rfl (decide_eq_false (Nat.not_lt.mpr hn)) hc rfl))
  · exact next_quiet (congrArg settle (onWaggle_executed ht rfl (decide_eq_false (Nat.not_lt.mpr hn)) hc rfl))
  · exact next_quiet (onWaggle_executed ht rfl rfl hc (teardownJob_started hj hh hi))
  · let b := allocBody watts first span
    refine ⟨fun st hst => next_quiet (onWaggle_refused (w := { w with body := b }) (kind := 8) ht rfl hst), fun hbad hc hm => ?_⟩
    refine ⟨fun h => next_quiet (onWaggle_executed (w := { w with body := b }) (kind := 8) ht rfl hbad hc ?_),
      fun h => next_quiet (onWaggle_executed (w := { w with body := b }) (kind := 8) ht rfl hbad hc ?_)⟩
    · rw [allocWatts_allocBody, allocFirst_allocBody, allocSpan_allocBody]
      exact powerAlloc_recorded hm h
    · rw [allocWatts_allocBody, allocFirst_allocBody, allocSpan_allocBody]
      exact powerAlloc_passed hm h

end Sys2Proof.Machine
end

section
/-!
PROOFS. Remote access: what each kind of packet does on arrival (R283 to R286, R290, R265), and the placements, answers and attempts that
complete (R285, R286, R288, R290).
-/

namespace Sys2Proof.Machine

/-! ## Admission -/

section
variable {s : State} {arr : Option PortId} {p : Packet} {ty : Byte}

/-- A packet that meets every check on arrival is handed to the row of its type (R265, R252). -/
theorem arriving_arrives (h : Arrives s arr p ty) (k : State → State) : arriving s arr p ty k = k (takenIn s arr p) := by
  have hkind : ¬ (p.type != ty) = true := by simp [h.kind]
  have hhop : ¬ (!pktHopOk p) = true := by simp [pktHopOk, h.header, h.known, h.span]
  have hmine : ¬ (s.fabric.node.isNone || pktNode p != nodeNum s) = true := by
    have hnode : s.fabric.node.isNone = false := by simpa using h.assigned
    simp [hnode, h.mine]
  have hcheck : deliverCheck (takenIn s arr p) p = none := by simp [deliverCheck, h.whole, h.inTime, h.zero]
  unfold arriving
  rw [if_neg hkind, if_neg hhop, if_neg hmine]
  simp only [hcheck, h.form, Bool.not_true, Bool.false_eq_true, if_false]

theorem takenIn_sends : (takenIn s arr p).remote.sends = s.remote.sends := by
  unfold takenIn
  split
  · simp only [oweCredit]
    split
    · rfl
    · split <;> rfl
  · rfl

end

section
variable {t : State} {p : Packet}

section
variable {r : Region} (ha : admitStatus t p = (stOk, true)) (hr : regionOf t (pktRegion p) = some r)
include ha hr

theorem receiveWrite_admitted :
    receiveWrite t p = addAdmitted (chargeRx t p) (pktRegion p) 0 (r.base + pktOffset p) { p with payload := (openPacket t p).getD [] } := by
  simp only [receiveWrite, ha, hr, beq_self_eq_true, if_true]

theorem receiveRead_admitted : receiveRead t p = addAdmitted t (pktRegion p) 0 (r.base + pktOffset p) p := by
  simp only [receiveRead, ha, hr, beq_self_eq_true, if_true]

theorem receivePiece_admitted :
    receivePiece t p =
      let i := r.slot0 + pktSlot p
      let x := fillSlot (slotOf t i) p
      addAdmitted (slotPut (chargeRx t p) i x) (pktRegion p) (pktSlot p) (x.buf + pktOffset p)
        { p with payload := (openPacket t p).getD [] } := by
  simp only [receivePiece, ha, hr, beq_self_eq_true]

theorem receiveFlush_admitted :
    receiveFlush t p =
      let i := r.slot0 + pktSlot p
      let pl := (openPacket t p).getD []
      trySlot (slotPut (chargeRx t p) i { fillSlot (slotOf t i) p with
        tailv := true, tlen := leNat (pl.take 4), tcrc := BitVec.ofNat 32 (leNat ((pl.drop 4).take 4)) }) (pktRegion p) (pktSlot p) := by
  simp only [receiveFlush, ha, hr, beq_self_eq_true]

end

section
variable {st : Half} {known : Bool} (ha : admitStatus t p = (st, known)) (hst : st ≠ stOk)
include ha hst

theorem receiveWrite_refused : receiveWrite t p = refuseRequest t p st known := by
  cases hr : regionOf t (pktRegion p) <;> simp only [receiveWrite, ha, hr, beq_false_of_ne hst, Bool.false_eq_true, if_false]

theorem receiveRead_refused : receiveRead t p = refuseRequest t p st known := by
  cases hr : regionOf t (pktRegion p) <;> simp only [receiveRead, ha, hr, beq_false_of_ne hst, Bool.false_eq_true, if_false]

theorem receivePiece_refused : receivePiece t p = refuseRequest t p st known := by
  cases hr : regionOf t (pktRegion p) <;> simp only [receivePiece, ha, hr, beq_false_of_ne hst]

theorem receiveFlush_refused : receiveFlush t p = refuseRequest t p st known := by
  cases hr : regionOf t (pktRegion p) <;> simp only [receiveFlush, ha, hr, beq_false_of_ne hst]

end

/-! ## Answers -/

/-- An answer to a line operation settles it with its status and data (R290). -/
theorem onAnswer_line {read : Bool} {l : LineOp} {d : List Byte} (h7 : p.type ≠ 7) (hread : (p.type == 3) = read)
    (hl : t.remote.lines.find? (fun l => l.tag % 2 ^ 32 == p.tag.toNat && l.sent && l.dest.toNat / 2 ^ 50 == p.src.toNat && l.isRead == read) =
      some l) (hw : checkWord l.key p = p.echk) (hd : openPacket t p = some d)
    (hs : settles false (BitVec.ofNat 16 p.aux.toNat) = true) :
    onAnswer t p = settleLine (noteAnswer (if d.isEmpty then t else charge t l.fn 9 13 d.length) (BitVec.ofNat 16 p.aux.toNat)) l
      (BitVec.ofNat 16 p.aux.toNat) d := by
  subst hread
  simp only [onAnswer, beq_false_of_ne h7, Bool.false_eq_true, if_false, hl, hw, bne_self_eq_false, hd, hs, if_true]

/-- An answer to a FLUSH settles its transfer (R290). -/
theorem onAnswer_send {x : SendTx} (h7 : p.type = 7)
    (hx : t.remote.sends.find? (fun y => y.tag % 2 ^ 32 == p.tag.toNat && y.inFlight && y.node == p.src.toNat && !y.forager) = some x)
    (hw : checkWord x.key p = p.echk) (hd : (openPacket t p).isSome = true) (hs : settles true (BitVec.ofNat 16 p.aux.toNat) = true) :
    onAnswer t p = settleSend (noteAnswer t (BitVec.ofNat 16 p.aux.toNat)) x (BitVec.ofNat 16 p.aux.toNat) := by
  have hd' : (openPacket t p).isNone = false := by simpa using hd
  simp only [onAnswer, h7, beq_self_eq_true, if_true, hx, hw, bne_self_eq_false, hd', Bool.or_self, Bool.false_eq_true, if_false, hs]

section
variable (hf : ∀ y ∈ t.remote.sends, y.forager = false)
include hf

/-- Without a forager message in flight an answer goes to the requester's trackers. -/
theorem answerIn_requester : answerIn t p = onAnswer t p := by
  have hnone : t.remote.sends.find? (fun y => y.forager && y.inFlight && y.tag % 2 ^ 32 == p.tag.toNat && y.node == p.src.toNat) = none :=
    List.find?_eq_none.mpr fun y hy => by simp [hf y hy]
  simp only [answerIn, foragerAnswer, hnone, Bool.false_eq_true, if_false]

theorem foragerReturn_requester : foragerReturn t p = t := by
  have hnone : t.remote.sends.find? (fun y => y.forager && y.inFlight && y.tag % 2 ^ 32 == leNat ((p.payload.drop 16).take 4)) = none :=
    List.find?_eq_none.mpr fun y hy => by simp [hf y hy]
  simp only [foragerReturn, hnone]

end

theorem Reports.remote {s t : State} (h : Reports s t) : t.remote = s.remote := by
  obtain ⟨_, _, _, _, _, _, _, _, rfl⟩ := h
  rfl

/-- The state once a RETURN is counted (R265). -/
def returnCounted (s : State) : State := setEvent (satAdd s rEgReturnCount 15 0 1) rEgEvent 4

theorem returnCounted_remote (s : State) : (returnCounted s).remote = s.remote :=
  ((reports_satAdd ..).trans (reports_setEvent ..)).remote

/-- A RETURN of a WRITE is noted as the last answer of its attempt (R290). -/
theorem receiveReturn_write {l : LineOp} (h1 : leNat (p.payload.take 1) = 1) (hst : BitVec.ofNat 16 p.aux.toNat ≠ stBadField)
    (hl : (returnCounted t).remote.lines.find? (fun l => l.tag % 2 ^ 32 == leNat ((p.payload.drop 16).take 4) && l.sent && !l.isRead) = some l) :
    receiveReturn t p = lineMod (returnCounted t) l.tag fun l => { l with last := some (BitVec.ofNat 16 p.aux.toNat) } := by
  have hread : ∀ l : LineOp, (l.isRead == ((1 : Nat) == 2)) = !l.isRead := fun l => beq_false l.isRead
  simp only [returnCounted] at hl
  simp only [receiveReturn, h1, decide_true, Bool.true_or, if_true, hread, hl, beq_false_of_ne hst, Bool.false_eq_true, if_false, returnCounted]

end

/-- Settles O46, by the checks of arrival and the row of each type. -/
theorem remotePackets : Obligations.RemotePackets := by
  unfold Obligations.RemotePackets
  intro s arr p t
  refine ⟨?_, ?_, ?_, ?_, ?_, ?_, ?_, ?_, ?_⟩
  · intro r h ha hr
    exact next_quiet (congrArg settle ((arriving_arrives h _).trans (receiveWrite_admitted ha hr)))
  · intro st known ha hst
    refine ⟨fun h => ?_, fun h => ?_, fun h => ?_, fun h => ?_⟩
    · exact next_quiet (congrArg settle ((arriving_arrives h _).trans (receiveWrite_refused ha hst)))
    · exact next_quiet (congrArg settle ((arriving_arrives h _).trans (receiveRead_refused ha hst)))
    · exact next_quiet (congrArg settle ((arriving_arrives h _).trans (receivePiece_refused ha hst)))
    · exact next_quiet (congrArg settle ((arriving_arrives h _).trans (receiveFlush_refused ha hst)))
  · intro r h ha hr
    exact next_quiet (congrArg settle ((arriving_arrives h _).trans (receiveRead_admitted ha hr)))
  · intro r h ha hr
    exact next_quiet (congrArg settle ((arriving_arrives h _).trans (receivePiece_admitted ha hr)))
  · intro r h ha hr
    exact next_quiet (congrArg settle ((arriving_arrives h _).trans (receiveFlush_admitted ha hr)))
  · intro l d h hl hw hd hne hs
    have h7 : p.type ≠ 7 := by simp [h.kind]
    have hread : (p.type == 3) = true := beq_iff_eq.mpr h.kind
    have hcharge : d.isEmpty = false := by simpa using hne
    refine next_quiet (congrArg settle ((arriving_arrives h _).trans ?_))
    have := onAnswer_line h7 hread (by simpa only [beq_true] using hl) hw hd hs
    simpa only [hcharge, Bool.false_eq_true, if_false] using this
  · intro l h hl hw hd hs
    have h7 : p.type ≠ 7 := by simp [h.kind]
    have hread : (p.type == 3) = false := by simp [h.kind]
    refine next_quiet (congrArg settle ((arriving_arrives h _).trans ?_))
    have := onAnswer_line h7 hread (by simpa only [beq_false] using hl) hw hd hs
    simpa only [List.isEmpty_nil, if_true] using this
  · intro x h hf hx hw hd hs
    exact next_quiet (congrArg settle ((arriving_arrives h _).trans ((answerIn_requester hf).trans (onAnswer_send h.kind hx hw hd hs))))
  · intro l h u st h1 hst hf hl
    refine next_quiet (congrArg settle ((arriving_arrives h _).trans ?_))
    rw [receiveReturn_write h1 hst hl]
    refine foragerReturn_requester fun y hy => hf y ?_
    have hsends : (returnCounted t).remote.sends = s.remote.sends := (congrArg _ (returnCounted_remote t)).trans takenIn_sends
    exact hsends ▸ hy

/-! ## Completions of admitted operations -/

section
variable {s t : State} {n : Nat} {a : Admitted} {r : Region}

theorem placeWrite_placed (ha : takeAdmitted s n 1 = some (a, t)) {w1 w2 : State × Bool}
    (h1 : w1 = rangeWrite t a.place (a.pkt.payload.take 64) (pktPoison a.pkt))
    (h2 : w2 = rangeWrite w1.1 (a.place + 64) (a.pkt.payload.drop 64) (pktPoison a.pkt)) (hr : regionOf w2.1 a.region = some r) :
    placeWrite s n = admittedDone (sendAnswer (chargeAccess w2.1 r.client a.place 128 true) 5 a.pkt.src.toNat a.pkt.tag.toNat a.region
      a.pkt.prot (if w1.2 && w2.2 then stOk else stNoResource) true false []) a.region := by
  subst h1 h2
  simp only [placeWrite, ha, hr]

theorem finishRead_answered (ha : takeAdmitted s n 2 = some (a, t)) {found : Findings} {u : State}
    (hu : u = touchRange (memoryFindings t a.place 128 found) a.place 128) (hr : regionOf u a.region = some r) :
    finishRead s n found =
      let v := chargeAccess u r.client a.place 128 false
      admittedDone (sendAnswer v 3 a.pkt.src.toNat a.pkt.tag.toNat a.region a.pkt.prot
        (if rangePoisoned u a.place 128 then stPoisoned else stOk) true (rangePoisoned u a.place 128) (rangeRead v a.place 128)) a.region := by
  subst hu
  simp only [finishRead, ha, hr]

theorem placePiece_counted (ha : takeAdmitted s n 4 = some (a, t)) {w v : State} {x : RecvSlot}
    (hw : w = (rangeWrite t a.place a.pkt.payload (pktPoison a.pkt)).1) (hr : regionOf w a.region = some r)
    (hv : v = chargeAccess w r.client a.place a.pkt.payload.length true) (hx : x = slotOf v (r.slot0 + a.slot))
    (hs : x.state = .filling) (hg : x.gen = a.pkt.aux.toNat) (htag : x.tag = a.pkt.tag) :
    placePiece s n = admittedDone (trySlot (slotPut v (r.slot0 + a.slot) { x with
      placed := x.placed ++ [(pktOffset a.pkt, a.pkt.payload.length)], poison := x.poison || pktPoison a.pkt }) a.region a.slot) a.region := by
  subst hw hv
  have hstate : (x.state == .filling) = true := by
    rw [hs]
    decide
  simp only [placePiece, ha, hr, ← hx, hstate, hg, htag, beq_self_eq_true, Bool.and_self, if_true]

end

/-! ## Attempts -/

section
variable {s : State}

section
variable {tag : Nat} {l : LineOp} (hl : s.remote.lines.find? (fun l => l.tag == tag) = some l) (hsent : l.sent = true)
  (hover : attemptOver s l.until_ l.last = true)
include hl hsent hover

theorem timeOut_line : timeOut s tag = endAttemptLine s l := by
  simp only [timeOut, hl, hsent, hover, Bool.and_self, if_true]

theorem timeOut_again (h : l.attempts ≤ cfld s rRaCfg 11 8) : timeOut s tag = attemptLine s l :=
  (timeOut_line hl hsent hover).trans (if_pos h)

theorem timeOut_fails (h : cfld s rRaCfg 11 8 < l.attempts) : timeOut s tag = settleLine s l (l.last.getD stTargetLost) [] :=
  (timeOut_line hl hsent hover).trans (if_neg (Nat.not_le.mpr h))

end

theorem startSend_next {x : SendTx} (hx : s.remote.sends.find? (fun t => !t.inFlight && !t.forager) = some x) (hn : sendsInFlight s < 1024) :
    startSend s =
      let r := takeFindings s (x.len / 64 + 2)
      attemptSend (memoryFindings r.2 x.src x.len r.1) x := by
  simp only [startSend, hx, hn, if_true]

/-! ## The next line of a descriptor -/

/-- The state once a descriptor's next line is taken (R285). -/
def lineTaken (s : State) (c : Nat) (d : DmaOp) : State :=
  dmaMod s c d.id fun d => { d with linesToIssue := d.linesToIssue - 1, linesOpen := d.linesOpen + 1 }

/-- The line operation of the next line that a descriptor reads from another node, in the state that has taken the line. -/
def readLine (u : State) (client c : Nat) (d : DmaOp) : LineOp :=
  let i := d.len / 128 - d.linesToIssue
  let at_ := (d.dstAt.1, d.dstAt.2 + 128 * i)
  { tag := u.remote.nextTag, isRead := true, fn := client, ctx := d.ctx, cell := c, mem := at_.1, dma := d.id, line := i
    dest := BitVec.ofNat 64 (d.src + 128 * i), key := d.key, space := d.dstSpace, addr := at_.2
    data := bytesVReg (placeLine u d.dstSpace at_).1, data2 := bytesVReg (placeLine u d.dstSpace (at_.1, at_.2 + 64)).1
    poison := false, prot := ((tget u.sched.ctxs d.ctx).map fun x => x.prot).getD false }

/-- The state once a line operation is in the tracker of 8,192. -/
def lineTracked (u : State) (l : LineOp) : State :=
  { u with remote := { u.remote with nextTag := u.remote.nextTag + 1, lines := u.remote.lines ++ [l] } }

theorem issueLine_none (h : nextLineDma s = none) : issueLine s = s := by
  simp only [issueLine, h]

section
variable {c : Nat} {d : DmaOp} (hn : nextLineDma s = some (c, d)) (hroom : s.remote.lines.length < 8192) (hspace : d.srcSpace = 3)
  {l : LineOp} (hl : l = readLine (lineTaken s c d) (ctxClient s d.ctx) c d) {v : State} (hv : v = lineTracked (lineTaken s c d) l)
include hn hroom hspace hl hv

theorem issueLine_tracked :
    issueLine s =
      if nodeDown v ((d.src + 128 * (d.len / 128 - d.linesToIssue)) / 2 ^ 50) then settleLine v l stTargetLost []
      else if l.prot && v.remote.kfab.isNone then settleLine v l stRights []
      else if lineHeld v l then v else attemptLine v l := by
  subst hl hv
  have hfits : ¬ 8192 ≤ s.remote.lines.length := Nat.not_le.mpr hroom
  have hread : (d.srcSpace == 3) = true := beq_iff_eq.mpr hspace
  simp only [issueLine, hn, hfits, hread, if_false, if_true, Bool.not_true, Bool.false_and, Bool.false_eq_true]
  rfl

/-- A line read from a node that is up, which nothing holds, leaves at once (R285). -/
theorem issueLine_read (hup : nodeDown v ((d.src + 128 * (d.len / 128 - d.linesToIssue)) / 2 ^ 50) = false) (hprot : l.prot = false)
    (hheld : lineHeld v l = false) : issueLine s = attemptLine v l := by
  rw [issueLine_tracked hn hroom hspace hl hv, hup, hprot, hheld]
  rfl

end

end

/-- Settles O47. -/
theorem remoteCompletions : Obligations.RemoteCompletions := by
  unfold Obligations.RemoteCompletions
  intro s _
  refine ⟨?_, ?_, ?_, ?_, ?_, ?_, ?_⟩
  · intro n a t r ha w1 w2 hr
    exact next_quiet (congrArg settle (placeWrite_placed ha rfl rfl hr))
  · intro n a t found r ha u hr
    exact next_quiet (congrArg settle (finishRead_answered ha rfl hr))
  · intro n a t ha w r hr v i x hs hg htag
    exact next_quiet (congrArg settle (placePiece_counted ha rfl hr rfl rfl hs hg htag))
  · intro tag l hl hsent hover
    exact ⟨fun h => next_quiet (congrArg settle (timeOut_again hl hsent hover h)),
      fun h => next_quiet (congrArg settle (timeOut_fails hl hsent hover h))⟩
  · intro x hx hn
    exact next_quiet (congrArg settle (startSend_next hx hn))
  · intro h
    exact next_quiet (congrArg settle (issueLine_none h))
  · intro c d hn hroom hspace i client u at_ b0 b1 l v hup hprot hheld
    exact next_quiet (congrArg settle (issueLine_read hn hroom hspace rfl rfl hup hprot hheld))

end Sys2Proof.Machine
end

section
/-!
PROOFS. The I3C target with its MCTP control messages (R383, R384) and the test access port (R386 to R388).
-/

namespace Sys2Proof.Machine

/-! ## The I3C target -/

section
variable {s : State}

theorem i3cServes_on (hon : s.mgmt.i3cOn = true) (hpins : scanOwnsPins s = false) : i3cServes s = true := by
  simp only [i3cServes, hon, hpins, Bool.not_false, Bool.and_self]

theorem i3cServes_off (h : s.mgmt.i3cOn = false ∨ scanOwnsPins s = true) : i3cServes s = false := by
  rcases h with h | h <;> simp only [i3cServes, h, Bool.false_and, Bool.not_true, Bool.and_false]

section
variable (h : i3cServes s = true)
include h

theorem assignAddress_taken {a : BitVec 7} (hd : s.mgmt.daddr = none) :
    assignAddress s a = raiseIbi (setEvent { emit s (.i3c ((leBytes 6 (provisionalId s)).reverse ++ [0x06, 0x00])) with
      mgmt := { s.mgmt with daddr := some a } } rMgEvent 0) := by
  simp only [assignAddress, h, hd, Option.isNone_none, Bool.and_self, if_true]
  rfl

theorem setIbi_on : setIbi s true true = raiseIbi { s with mgmt := { s.mgmt with ibiOn := true } } := by
  simp only [setIbi, h, Bool.and_self, if_true]

theorem setIbi_off : setIbi s true false = { s with mgmt := { s.mgmt with ibiOn := false } } := by
  have hdue : ibiDue { s with mgmt := { s.mgmt with ibiOn := false } } = false := by
    simp only [ibiDue, Bool.and_false, Bool.false_and]
  simp only [setIbi, h, Bool.and_self, if_true, raiseIbi, hdue, Bool.false_and, Bool.false_eq_true, if_false]

theorem i3cAnswer_answers {k : State → State} (hd : s.mgmt.daddr.isSome = true) : i3cAnswer s k = k s := by
  simp only [i3cAnswer, h, hd, Bool.and_self, if_true]

end

section
variable (h : i3cServes s = false)
include h

theorem assignAddress_silent (a : BitVec 7) : assignAddress s a = s := by
  simp only [assignAddress, h, Bool.false_and, Bool.false_eq_true, if_false]

theorem setIbi_silent (int on : Bool) : setIbi s int on = s := by
  simp only [setIbi, h, Bool.false_and, Bool.false_eq_true, if_false]

theorem i3cAnswer_silent (k : State → State) : i3cAnswer s k = s := by
  simp only [i3cAnswer, h, Bool.false_and, Bool.false_eq_true, if_false]

end

/-! ## Interrupts -/

/-- An event flag of any register but HI_EVENT raises no vector. -/
theorem setEvent_eq_rput {off : Nat} (i : Nat) (h : off ≠ rHiEvent) : setEvent s off i = rput s off i i 1 := by
  simp only [setEvent, beq_false_of_ne h, Bool.false_and, Bool.false_eq_true, if_false]

theorem raiseIbi_mgmt (s : State) : ∃ hold, (raiseIbi s).mgmt = { s.mgmt with ibiHold := hold } := by
  unfold raiseIbi
  split
  · exact ⟨true, rfl⟩
  · exact ⟨s.mgmt.ibiHold, rfl⟩

theorem mem_raiseIbi_tx {x : Tx} (h : x ∈ s.tx) : x ∈ (raiseIbi s).tx := by
  unfold raiseIbi
  split
  · exact List.mem_cons_of_mem _ h
  · exact h

theorem raiseIbi_due (h : ibiDue s = true) (hh : s.mgmt.ibiHold = false) :
    raiseIbi s = emit { s with mgmt := { s.mgmt with ibiHold := true } } .ibi := by
  simp only [raiseIbi, h, hh, Bool.not_false, Bool.and_self, if_true]

/-- The retry after 1 ms raises the interrupt again, once more to be held for 1 ms (R383). -/
theorem retryIbi_due (h : ibiDue { s with mgmt := { s.mgmt with ibiHold := false } } = true) :
    retryIbi s = emit { s with mgmt := { s.mgmt with ibiHold := true } } .ibi :=
  raiseIbi_due h rfl

theorem ibiDue_retry (hon : s.mgmt.i3cOn = true) (hpins : scanOwnsPins s = false) (hd : s.mgmt.daddr.isSome = true)
    (hi : s.mgmt.ibiOn = true) (hpath : cfld s rMgCfg 0 0 = 1) (hunsent : s.mgmt.sent < s.reliab.seq) :
    ibiDue { s with mgmt := { s.mgmt with ibiHold := false } } = true := by
  have hdue : ibiDue s = true := by
    simp only [ibiDue, hon, hpins, hd, hi, hpath, hunsent, beq_self_eq_true, decide_true, Bool.not_false, Bool.and_self]
  exact hdue

end

/-! ## The TAP -/

section
variable {s : State}

theorem setTap_plain (i : TapInsn) : setTap s i false = { s with mgmt := { s.mgmt with tap := i } } := by
  simp only [setTap, Bool.or_false]

theorem setTap_scan (i : TapInsn) : setTap s i true = { s with mgmt := { s.mgmt with tap := i, scanned := true } } := by
  simp only [setTap, Bool.or_true]

theorem tapIjtag_instrument (h : bit s.sec.debug 1 = 1) : tapIjtag s = { s with mgmt := { s.mgmt with tap := .ijtag } } := by
  simp only [tapIjtag, h, if_true, setTap_plain]

theorem tapIjtag_bypass (h : bit s.sec.debug 1 = 0) : tapIjtag s = { s with mgmt := { s.mgmt with tap := .bypass } } := by
  simp only [tapIjtag, h, Nat.zero_ne_one, if_false, setTap_plain]

/-- A read of the registers moves no register and sends nothing: only a latch and a free value are taken (R39). -/
theorem readReg_frame (s : State) (path : Path) (off : Nat) :
    (readReg s path off).2.regs = s.regs ∧ (readReg s path off).2.tx = s.tx := by
  have hlive : (liveReg s off).2.regs = s.regs ∧ (liveReg s off).2.tx = s.tx := by
    unfold liveReg
    split
    · split <;> exact ⟨rfl, rfl⟩
    · split <;> exact ⟨rfl, rfl⟩
  unfold readReg
  split
  · exact ⟨rfl, rfl⟩
  · dsimp only
    split
    · exact ⟨rfl, rfl⟩
    · split <;> exact hlive

/-- The capture that follows an operation of REGACC (R387). -/
def regaccDone (s : State) (off data result : Nat) : State :=
  emit { s with mgmt := { s.mgmt with
      regData := BitVec.ofNat 32 data, regResult := BitVec.ofNat 2 result, regOff := BitVec.ofNat 24 (off / 4) } }
    (.tap (BitVec.ofNat 64 (data * 2 ^ 32 + result * 2 ^ 30 + off)))

section
variable {dr : DWord} (htap : s.mgmt.tap = .regacc)
include htap

/-- An operation that its instruction and its code let through (R387). -/
theorem regaccOp_eq {write : Bool} (hop : bits dr.toNat 31 30 = if write then 2 else 1) :
    regaccOp s write dr =
      let off := bits dr.toNat 25 2 * 4
      if write then
        if mgmtMayWrite off then regaccDone (writeReg s .tap off (bits dr.toNat 63 32)) off s.mgmt.regData.toNat 0
        else regaccDone s off s.mgmt.regData.toNat 1
      else regaccDone (readReg s .tap off).2 off (readReg s .tap off).1 0 := by
  have hok : ¬ (s.mgmt.tap != .regacc || bits dr.toNat 31 30 != if write then 2 else 1) = true := by
    simp only [htap, hop, bne_self_eq_false, Bool.or_self, Bool.false_eq_true, not_false_eq_true]
  unfold regaccOp
  dsimp only
  rw [if_neg hok]
  rfl

theorem regaccOp_read (hop : bits dr.toNat 31 30 = 1) :
    regaccOp s false dr =
      regaccDone (readReg s .tap (bits dr.toNat 25 2 * 4)).2 (bits dr.toNat 25 2 * 4) (readReg s .tap (bits dr.toNat 25 2 * 4)).1 0 :=
  regaccOp_eq (write := false) htap hop

section
variable (hop : bits dr.toNat 31 30 = 2)
include hop

theorem regaccOp_write (hmay : mgmtMayWrite (bits dr.toNat 25 2 * 4) = true) :
    regaccOp s true dr =
      regaccDone (writeReg s .tap (bits dr.toNat 25 2 * 4) (bits dr.toNat 63 32)) (bits dr.toNat 25 2 * 4) s.mgmt.regData.toNat 0 := by
  simp only [regaccOp_eq (write := true) htap hop, if_true, hmay]

theorem regaccOp_denied (hmay : mgmtMayWrite (bits dr.toNat 25 2 * 4) = false) :
    regaccOp s true dr = regaccDone s (bits dr.toNat 25 2 * 4) s.mgmt.regData.toNat 1 := by
  simp only [regaccOp_eq (write := true) htap hop, if_true, hmay, Bool.false_eq_true, if_false]

end

end

theorem instrumentOp_operates {g : Nat} {changes : Bool} (htap : s.mgmt.tap = .ijtag) (hb : bit s.sec.debug 1 = 1) :
    instrumentOp s g changes = emit { s with mgmt := { s.mgmt with segments := s.mgmt.segments ||| BitVec.ofNat 8 (2 ^ g) } }
      (.instrument g (!(changes && jobStarted s))) := by
  simp only [instrumentOp, htap, hb, bne_self_eq_false, Nat.one_ne_zero, decide_false, Bool.or_self, Bool.false_eq_true, if_false]

theorem getLsbD_or_twoPow (b : BitVec 8) (g : Fin 8) : (b ||| BitVec.ofNat 8 (2 ^ g.val)).getLsbD g.val = true := by
  rw [BitVec.getLsbD_or, BitVec.getLsbD_ofNat, Nat.testBit_two_pow_self, decide_eq_true g.isLt, Bool.and_self, Bool.or_true]

end

/-! ## O49 -/

section
variable {s : State}

section
variable (hp : Powered s) (hserves : i3cServes s = true)
include hp hserves

/-- ENTDAA gives the target its address, sets the event flag, and sends the provisional ID, BCR and DCR (R383). -/
theorem exec_entdaa (a : BitVec 7) (hd : s.mgmt.daddr = none) :
    ∃ t, exec (.entdaa a) s = .next t ∧ t.mgmt.daddr = some a ∧ rfld t rMgEvent 0 0 = 1 ∧
      Tx.i3c ((leBytes 6 (provisionalId s)).reverse ++ [0x06, 0x00]) ∈ t.tx := by
  refine ⟨_, next_quiet (assignAddress_taken hserves hd), ?_, ?_, ?_⟩
  · rw [quiet_mgmt hp, setEvent_eq_rput 0 (by decide)]
    obtain ⟨hold, hm⟩ := raiseIbi_mgmt (rput { emit s (.i3c ((leBytes 6 (provisionalId s)).reverse ++ [0x06, 0x00])) with
      mgmt := { s.mgmt with daddr := some a } } rMgEvent 0 0 1)
    rw [hm]
    rfl
  · rw [rfld, rget_congr ((quiet_regs hp).trans (raiseIbi_frame _).2), setEvent_eq_rput 0 (by decide)]
    exact rfld_rput_one ..
  · rw [quiet_tx hp, setEvent_eq_rput 0 (by decide)]
    exact mem_raiseIbi_tx List.mem_cons_self

theorem exec_enec : ∃ t, exec (.enec true) s = .next t ∧ t.mgmt.ibiOn = true := by
  refine ⟨_, next_quiet (setIbi_on hserves), ?_⟩
  obtain ⟨hold, hm⟩ := raiseIbi_mgmt { s with mgmt := { s.mgmt with ibiOn := true } }
  rw [quiet_mgmt hp, hm]

end

/-- What stands after a command that sends one message, with its own block at `m`. -/
theorem quiet_sends (hp : Powered s) {u : State} {x : Tx} {m : Mgmt} (htx : u.tx = x :: s.tx) (hm : u.mgmt = m) :
    (quiet s u).tx = x :: s.tx ∧ (quiet s u).mgmt = m :=
  ⟨(quiet_tx hp).trans htx, (quiet_mgmt hp).trans hm⟩

end

/-- Direct CCCs and MCTP control requests are answered by a target that serves and has an address (R383, R384). -/
theorem i3c_answers {s : State} (hp : Powered s) (hserves : i3cServes s = true) (hd : s.mgmt.daddr.isSome = true) :
    (exec .getpid s = .next (quiet s (emit s (.i3c (leBytes 6 (provisionalId s)).reverse)))) ∧
    (exec .getbcr s = .next (quiet s (emit s (.i3c [0x06])))) ∧
    (exec .getdcr s = .next (quiet s (emit s (.i3c [0x00])))) ∧
    (∃ t bs, exec .getstatus s = .next t ∧ t.tx = .i3c bs :: s.tx ∧ t.mgmt = s.mgmt) ∧
    (∃ t bs, exec .getmxds s = .next t ∧ t.tx = .i3c bs :: s.tx ∧ t.mgmt = s.mgmt) ∧
    (∀ eid : Byte, eid ≠ 0 → eid ≠ 0xFF → ∃ t bs, exec (.setEndpointId eid) s = .next t ∧
      t.tx = .mctpControl 1 (0 :: bs) :: s.tx ∧ t.mgmt = { s.mgmt with eid := eid }) ∧
    (∃ t bs, exec .getEndpointId s = .next t ∧ t.tx = .mctpControl 2 (0 :: s.mgmt.eid :: bs) :: s.tx ∧ t.mgmt = s.mgmt) ∧
    (∃ t bs, exec .getMctpVersionSupport s = .next t ∧ t.tx = .mctpControl 4 (0 :: bs) :: s.tx ∧ t.mgmt = s.mgmt) ∧
    (exec .getMessageTypeSupport s = .next (quiet s (emit s (.mctpControl 5 [0, 1, 0x7F])))) ∧
    (∃ t bs, exec .getVendorDefinedSupport s = .next t ∧ t.tx = .mctpControl 6 (0 :: bs) :: s.tx ∧ t.mgmt = s.mgmt) := by
  have answers := fun k => next_quiet (s := s) (i3cAnswer_answers (k := k) hserves hd)
  refine ⟨answers _, answers _, answers _, ⟨_, _, answers _, quiet_sends hp rfl rfl⟩, ⟨_, _, answers _, quiet_sends hp rfl rfl⟩,
    fun eid h0 hFF => ?_, ⟨_, _, answers _, quiet_sends hp rfl rfl⟩, ⟨_, _, answers _, quiet_sends hp rfl rfl⟩, answers _,
    ⟨_, _, answers _, quiet_sends hp rfl rfl⟩⟩
  have hvalid : ¬ (eid == 0 || eid == 0xFF) = true := by
    simp only [beq_false_of_ne h0, beq_false_of_ne hFF, Bool.or_self, Bool.false_eq_true, not_false_eq_true]
  have haccepted : i3cAnswer s (fun s => if eid == 0 || eid == 0xFF then emit s (.mctpControl 1 [2])
      else emit { s with mgmt := { s.mgmt with eid := eid } } (.mctpControl 1 [0, 0, eid, 0])) =
      emit { s with mgmt := { s.mgmt with eid := eid } } (.mctpControl 1 [0, 0, eid, 0]) :=
    (i3cAnswer_answers hserves hd).trans (if_neg hvalid)
  exact ⟨_, _, next_quiet haccepted, quiet_sends hp rfl rfl⟩

/-- The I3C target of a device that has power serves its controller (R383, R384). -/
theorem i3c_target {s : State} (hp : Powered s) (hon : s.mgmt.i3cOn = true) (hpins : scanOwnsPins s = false) :
    (∀ a : BitVec 7, s.mgmt.daddr = none → ∃ t, exec (.entdaa a) s = .next t ∧ t.mgmt.daddr = some a ∧ rfld t rMgEvent 0 0 = 1 ∧
      Tx.i3c ((leBytes 6 (provisionalId s)).reverse ++ [0x06, 0x00]) ∈ t.tx) ∧
    (exec .rstdaa s = .next (quiet s { s with mgmt := { s.mgmt with daddr := none } })) ∧
    (exec (.disec true) s = .next (quiet s { s with mgmt := { s.mgmt with ibiOn := false } })) ∧
    (∃ t, exec (.enec true) s = .next t ∧ t.mgmt.ibiOn = true) ∧
    (s.mgmt.daddr.isSome = true → s.mgmt.ibiOn = true → cfld s rMgCfg 0 0 = 1 → s.mgmt.sent < s.reliab.seq →
      ∃ t, exec .ibiRetry s = .next t ∧ t.tx = .ibi :: s.tx ∧ t.mgmt.ibiHold = true) := by
  have hserves := i3cServes_on hon hpins
  refine ⟨exec_entdaa hp hserves, next_quiet (if_pos hserves), next_quiet (setIbi_off hserves), exec_enec hp hserves,
    fun hd hi hpath hunsent => ⟨_, next_quiet (retryIbi_due (ibiDue_retry hon hpins hd hi hpath hunsent)), ?_, ?_⟩⟩
  · rw [quiet_tx hp]
    rfl
  · rw [quiet_mgmt hp]
    rfl

/-- A target that does not serve, or whose pins boundary scan owns, answers nothing (R383, R386). -/
theorem i3c_silent {s : State} (h : i3cServes s = false) (a : BitVec 7) (int : Bool) (eid : Byte) :
    ∀ k ∈ [Instr.entdaa a, .rstdaa, .enec int, .disec int, .getpid, .getbcr, .getdcr, .getstatus, .getmxds, .setEndpointId eid,
        .getEndpointId, .getMctpVersionSupport, .getMessageTypeSupport, .getVendorDefinedSupport],
      exec k s = .next (quiet s s) := by
  have silent := fun k => next_quiet (s := s) (i3cAnswer_silent h k)
  simp only [List.mem_cons, List.not_mem_nil, or_false, forall_eq_or_imp, forall_eq]
  exact ⟨next_quiet (assignAddress_silent h a), next_quiet (if_neg (Bool.eq_false_iff.mp h)), next_quiet (setIbi_silent h int true),
    next_quiet (setIbi_silent h int false), silent _, silent _, silent _, silent _, silent _, silent _, silent _, silent _, silent _,
    silent _⟩

/-- Instructions of the TAP stand until the next (R386). -/
theorem tap_instructions (s : State) :
    (∀ k ∈ [(Instr.bypass, TapInsn.bypass), (.samplePreload, .samplePreload), (.regacc, .regacc)],
      exec k.1 s = .next (quiet s { s with mgmt := { s.mgmt with tap := k.2 } })) ∧
    (∀ k ∈ [(Instr.extest, TapInsn.extest), (.clamp, .clamp), (.highz, .highz)],
      exec k.1 s = .next (quiet s { s with mgmt := { s.mgmt with tap := k.2, scanned := true } })) := by
  simp only [List.mem_cons, List.not_mem_nil, or_false, forall_eq_or_imp, forall_eq]
  exact ⟨⟨next_quiet (setTap_plain _), next_quiet (setTap_plain _), next_quiet (setTap_plain _)⟩,
    next_quiet (setTap_scan _), next_quiet (setTap_scan _), next_quiet (setTap_scan _)⟩

/-- REGACC reads any register, and writes those that a management path may write (R387). -/
theorem regacc_accesses {s : State} (hp : Powered s) {dr : DWord} (htap : s.mgmt.tap = .regacc) :
    let off := bits dr.toNat 25 2 * 4
    (bits dr.toNat 31 30 = 1 → ∃ t, exec (.regaccRead dr) s = .next t ∧
      t.mgmt.regData = BitVec.ofNat 32 (readReg s .tap off).1 ∧ t.mgmt.regResult = 0 ∧ t.regs = s.regs ∧
      t.tx = .tap (BitVec.ofNat 64 ((readReg s .tap off).1 * 2 ^ 32 + off)) :: s.tx) ∧
    (bits dr.toNat 31 30 = 2 → mgmtMayWrite off = true →
      ∃ t, exec (.regaccWrite dr) s = .next t ∧ t.regs = (writeReg s .tap off (bits dr.toNat 63 32)).regs ∧ t.mgmt.regResult = 0) ∧
    (bits dr.toNat 31 30 = 2 → mgmtMayWrite off = false →
      ∃ t, exec (.regaccWrite dr) s = .next t ∧ t.regs = s.regs ∧ t.mgmt.regResult = 1) := by
  intro off
  refine ⟨fun hop => ?_, fun hop hmay => ?_, fun hop hmay => ?_⟩
  · obtain ⟨hregs, htx⟩ := readReg_frame s .tap off
    have hsent : (regaccDone (readReg s .tap off).2 off (readReg s .tap off).1 0).tx =
        .tap (BitVec.ofNat 64 ((readReg s .tap off).1 * 2 ^ 32 + off)) :: s.tx := by
      simp only [regaccDone, emit, htx, Nat.zero_mul, Nat.add_zero]
    refine ⟨_, next_quiet (regaccOp_read htap hop), ?_, ?_, (quiet_regs hp).trans hregs, (quiet_tx hp).trans hsent⟩
    · rw [quiet_mgmt hp]
      rfl
    · rw [quiet_mgmt hp]
      rfl
  · refine ⟨_, next_quiet (regaccOp_write htap hop hmay), (quiet_regs hp).trans rfl, ?_⟩
    rw [quiet_mgmt hp]
    rfl
  · refine ⟨_, next_quiet (regaccOp_denied htap hop hmay), (quiet_regs hp).trans rfl, ?_⟩
    rw [quiet_mgmt hp]
    rfl

/-- Settles O49. -/
theorem i3cAndTestAccess : Obligations.I3cAndTestAccess := by
  unfold Obligations.I3cAndTestAccess
  refine ⟨fun s hp hon hpins => ?_, fun s h a int eid => i3c_silent (i3cServes_off h) a int eid, fun s hp => ?_⟩
  · obtain ⟨hentdaa, hrstdaa, hdisec, henec, hretry⟩ := i3c_target hp hon hpins
    exact ⟨hentdaa, hrstdaa, hdisec, henec, hretry, fun hd => i3c_answers hp (i3cServes_on hon hpins) hd⟩
  · obtain ⟨hplain, hscan⟩ := tap_instructions s
    refine ⟨hplain, hscan, next_quiet (congrArg (emit · _) (setTap_plain _)), fun dr htap => regacc_accesses hp htap,
      fun hb => next_quiet (tapIjtag_instrument hb), fun hb => next_quiet (tapIjtag_bypass hb), fun g changes htap hb => ?_⟩
    refine ⟨_, next_quiet (instrumentOp_operates htap hb), ?_, (quiet_tx hp).trans rfl, (quiet_tiers hp).trans rfl⟩
    rw [quiet_mgmt hp]
    exact getLsbD_or_twoPow s.mgmt.segments g

end Sys2Proof.Machine
end
